-- ==== Sys2Proof/Word.lean ====
section
/-! DEFINITION. The word types of the part: bytes of the shared memory and of unit-link frames, and the 32-bit words of the
host port. Everything the data book calls a number (codes, indexes, counts, times, margins, gains) is a Nat or an Int. -/

namespace Sys2Proof

/-- A byte of shared memory or of a unit-link frame. -/
abbrev Byte := BitVec 8

/-- A word of the 32-bit host port. -/
abbrev Word := BitVec 32

end Sys2Proof
end

