-- ==== Sys2Proof/Syntax.lean ====
section
/-! DEFINITION. The commands of the RZ-960: one constructor per row of spec/opcode_table.json. A row that comes from outside
the part (a host access, a pin, a frame of a near unit) carries what the outside gives. A row inside the part (a block takes
what another block handed over, a timer of a link expires) carries at most the index it is about: its contents stand in
State, where the block that sent them put them. -/

namespace Sys2Proof

/-- The two carriers of a link (1.6.6). -/
inductive Role where
  | outbound
  | inbound
  deriving DecidableEq, Repr

/-- The two lock ports (R157): LOCK P guards the station tables, LOCK C the cue tables. -/
inductive LockPort where
  | stationPort
  | cuePort
  deriving DecidableEq, Repr

/-- The blocks that report changes to the journal writer (R163). -/
inductive Owner where
  | dispatcher
  | supervisor
  | controller
  | engine
  | unitLink
  | tally
  | router
  | timebase
  | killControl
  | adoption
  deriving DecidableEq, Repr

/-- One constructor per row of spec/opcode_table.json; each docstring names the row's rule. -/
inductive Instr where
  /-- POWER_ON_RESET (R161). -/
  | powerOnReset
  /-- PART_RESET (R161): a CONTROL write with RESET set. -/
  | partReset
  /-- RUN (R162): a CONTROL write with RUN set and RESET clear. -/
  | run
  /-- POST (R153): the whole word written is the cell number (TABLE 12-2). -/
  | post (number : Word)
  /-- NOTICE_CLEAR (R167): a host write of this word to NOTICE. -/
  | noticeClear (bits : Word)
  /-- NOTICE_ENABLE_WRITE (R167): a host write of this word to NOTICE ENABLE. -/
  | noticeEnableWrite (bits : Word)
  /-- LOCK_SET (R157): a write whose lowest bit is 1. -/
  | lockSet (port : LockPort)
  /-- LOCK_RELEASE (R157): a write whose lowest bit is 0. -/
  | lockRelease (port : LockPort)
  /-- REGISTER_WRITE_DISCARDED (R151): a write of a word to IDENT or above 2001Bh, or to CONTROL with neither bit set (R161);
  `wordIndex` counts words from 20000h. -/
  | registerWriteDiscarded (wordIndex : Nat) (data : Word)
  /-- HOST_MEMORY_WRITE (R151, R152): word `wordIndex` of the memory window, with the four byte enables. -/
  | hostMemoryWrite (wordIndex : Nat) (data : Word) (enables : BitVec 4)
  /-- DISPATCH_CELL (R155). -/
  | dispatchCell
  /-- PLAN_PLACE_GRANT (R43). -/
  | planPlaceGrant
  /-- CLEAR_RESERVE_PLACE_GRANT (R156). -/
  | clearReservePlaceGrant
  /-- ENABLE_LINK (R63). -/
  | enableLink
  /-- RETUNE_LINK (R69). -/
  | retuneLink
  /-- PARK_LINK (R75). -/
  | parkLink
  /-- PLAN_QUERY (R49). -/
  | planQuery
  /-- FILL_RESERVE (R50). -/
  | fillReserve
  /-- AUDIT_PLAN (R53). -/
  | auditPlan
  /-- CLEAR_RESERVE (R37). -/
  | clearReserve
  /-- SET_TALLY (R102). -/
  | setTally
  /-- KEY (R119). -/
  | key
  /-- CLEAR_KEYS (R121). -/
  | clearKeys
  /-- APPLY (R142). -/
  | apply
  /-- SET_CLOCK (R137). -/
  | setClock
  /-- KILL (R144). -/
  | kill
  /-- RELEASE_KILL (R144). -/
  | releaseKill
  /-- LINE_TEST (R97). -/
  | lineTest
  /-- INSERT (R27). -/
  | insert
  /-- TAKE (R36): the reserve take of a failover. -/
  | take
  /-- LEARN (R30). -/
  | learn
  /-- UPDATE (R31). -/
  | update
  /-- PURGE (R33). -/
  | purge
  /-- APPEND (R35). -/
  | append
  /-- ADOPT (R38). -/
  | adopt
  /-- MARK (R39). -/
  | mark
  /-- PLAN_SERVICE_START (R44). -/
  | planServiceStart
  /-- PLANNING_ATTEMPT_END (R47). -/
  | planningAttemptEnd
  /-- QUERY_SEARCH_END (R49). -/
  | querySearchEnd
  /-- FILL_SEARCH_END (R50). -/
  | fillSearchEnd
  /-- AUDIT_MEASURING_END (R53). -/
  | auditMeasuringEnd
  /-- PLANNING_INSERT_ANSWER (R47). -/
  | planningInsertAnswer
  /-- APPEND_ANSWER (R51). -/
  | appendAnswer
  /-- MARK_ANSWER (R54). -/
  | markAnswer
  /-- CANCEL (R52). -/
  | cancel
  /-- PLANNING_ANSWER (R64). -/
  | planningAnswer
  /-- INSERTION_ANSWER (R65). -/
  | insertionAnswer
  /-- FAILOVER_TAKE_ANSWER (R74). -/
  | failoverTakeAnswer
  /-- LEARN_ANSWER (R76). -/
  | learnAnswer
  /-- LIVE_UPDATE_ANSWER (R68). -/
  | liveUpdateAnswer
  /-- PURGE_ANSWER (R75). -/
  | purgeAnswer
  /-- TUNE_ACK (R66). -/
  | tuneAck
  /-- TUNE_FAILED (R65). -/
  | tuneFailed
  /-- TUNE_WITHHELD (R72). -/
  | tuneWithheld
  /-- UNMUTE_ACK (R68). -/
  | unmuteAck
  /-- UNMUTE_FAILED (R68). -/
  | unmuteFailed
  /-- UNMUTE_WITHHELD (R68). -/
  | unmuteWithheld
  /-- PARK_MUTE_OUTCOME (R75). -/
  | parkMuteOutcome
  /-- SETTLE_POLL_OUTCOME (R67). -/
  | settlePollOutcome
  /-- SETTLE_POLL_TIMER_EXPIRY (R67) of this link. -/
  | settlePollTimerExpiry (link : Nat)
  /-- GUARD_EXPIRY (R66) of this link. -/
  | guardExpiry (link : Nat)
  /-- SETTLE_LIMIT_EXPIRY (R67) of this link. -/
  | settleLimitExpiry (link : Nat)
  /-- HOLD_LIMIT_EXPIRY (R71) of this link. -/
  | holdLimitExpiry (link : Nat)
  /-- FAILOVER_DELAY_EXPIRY (R73) of this link and role. -/
  | failoverDelayExpiry (link : Nat) (role : Role)
  /-- FAILOVER_RETRY_EXPIRY (R74) of this link. -/
  | failoverRetryExpiry (link : Nat)
  /-- TALLY_CHANGE_TO_SUPERVISOR (R71). -/
  | tallyChangeToSupervisor
  /-- STATION_ADOPTION (R159). -/
  | stationAdoption
  /-- STATION_DEFINITIONS_TAKEN (R77). -/
  | stationDefinitionsTaken
  /-- CUE_ADOPTION (R160). -/
  | cueAdoption
  /-- TALLY_STATION_ADOPTION (R107). -/
  | tallyStationAdoption
  /-- ROUTER_STATION_ADOPTION (R131). -/
  | routerStationAdoption
  /-- LINK_STATE_TO_TALLY (R111). -/
  | linkStateToTally
  /-- LINK_STATE_TO_ROUTER (R124). -/
  | linkStateToRouter
  /-- UNIT_FRAME_RECEIVED (R80, R176): the bytes of a frame that reached the part on the unit link. -/
  | unitFrameReceived (bytes : List Byte)
  /-- FRAME_TRANSMITTED (R81). -/
  | frameTransmitted
  /-- REPLY_TIMEOUT (R81). -/
  | replyTimeout
  /-- SWEEP_SPACING_EXPIRY (R87). -/
  | sweepSpacingExpiry
  /-- REPORT_TO_LINK_SUPERVISOR (R91). -/
  | reportToLinkSupervisor
  /-- POLL_MISS (R89). -/
  | pollMiss
  /-- STALE_TIMER_EXPIRY (R90) of this link. -/
  | staleTimerExpiry (link : Nat)
  /-- UATN_ASSERTED (R96). -/
  | uatnAsserted
  /-- UATN_DEASSERTED (R96). -/
  | uatnDeasserted
  /-- LOOP_OUTCOME (R97). -/
  | loopOutcome
  /-- KILL_INPUT_CHANGE (R143): the raw KILL input, true at its active level. -/
  | killInputChange (active : Bool)
  /-- KILL_FILTER_RUN_COMPLETE (R143). -/
  | killFilterRunComplete
  /-- LINK_KILL_ASSERTION (R147). -/
  | linkKillAssertion
  /-- KILL_MUTE_LIST (R146). -/
  | killMuteList
  /-- KILL_MUTE_OUTCOME (R146). -/
  | killMuteOutcome
  /-- KILL_MUTE_RETRY_EXPIRY (R146) of this link. -/
  | killMuteRetryExpiry (link : Nat)
  /-- LINK_KILL_RELEASE (R149). -/
  | linkKillRelease
  /-- TALLY_KILL_STATE (R112). -/
  | tallyKillState
  /-- ROUTER_KILL_STATE (R124). -/
  | routerKillState
  /-- CONTACT_INPUT_CHANGE (R100): the raw level of contact input `input`, true at its active level. -/
  | contactInputChange (input : Nat) (active : Bool)
  /-- CONTACT_FILTER_RUN_COMPLETE (R100) of contact input `input`. -/
  | contactFilterRunComplete (input : Nat)
  /-- LAMP_APPLY (R106). -/
  | lampApply
  /-- CALL_CHANGE (R108). -/
  | callChange
  /-- CUE_OUTCOME (R109). -/
  | cueOutcome
  /-- TALLY_ECHO_REPORT (R110). -/
  | tallyEchoReport
  /-- ROUTER_TALLY_COLOURS (R129). -/
  | routerTallyColours
  /-- BELTPACK_KEY_REPORT (R120). -/
  | beltpackKeyReport
  /-- CROSSPOINT_APPLY (R128). -/
  | crosspointApply
  /-- CROSSPOINT_WORD_SENT (R128). -/
  | crosspointWordSent
  /-- FRAME_BOUNDARY (R134): the tick passes 255 with no FRAME pulse. -/
  | frameBoundary
  /-- FRAME_PULSE (R135): a pulse of the FRAME reference input. -/
  | framePulse
  /-- TAKE_INPUT_CHANGE (R139): the raw TAKE input, true at its active level. -/
  | takeInputChange (active : Bool)
  /-- TAKE_FILTER_RUN_COMPLETE (R139). -/
  | takeFilterRunComplete
  /-- STAGED_CHANGE (R140). -/
  | stagedChange
  /-- APPLY_ANSWER (R141). -/
  | applyAnswer
  /-- JOURNAL_REPORT (R163): the journal writer takes the oldest report of this owner. -/
  | journalReport (owner : Owner)
  /-- JOURNAL_DELAY_EXPIRY (R168). -/
  | journalDelayExpiry
  /-- UPDATE_ANSWER (R31). -/
  | updateAnswer
  deriving DecidableEq, Repr

end Sys2Proof
end

