-- ==== Sys2Proof/Decode.lean ====
section
/-! DEFINITION. The part has no instruction words: no row of spec/opcode_table.json gives bits (every row's `fields` is empty
and none has `fixed`), so no word spells a command by itself. A word that the host writes to a register does, by the register. -/

namespace Sys2Proof

/-- The command that a word spells by the table's bits: none, as no row of the table gives bits. -/
def decodeTableWord (_nbits _w : Nat) : Option Instr := none

/-- A write of a lock port: the lowest bit of the word decides the action, the other bits are ignored (R157). -/
def decodeLockWrite (port : LockPort) (w : Word) : Instr := if w.getLsbD 0 then .lockSet port else .lockRelease port

/-- A write of CONTROL: with RESET (bit 1) set a part reset, a RUN bit beside it being ignored; with RUN (bit 0) alone the start of the
part (R161, TABLE 12-2); a word with neither bit commands nothing (DEDUCED, notes/assumptions/13). -/
def decodeControlWrite (w : Word) : Instr :=
  if w.getLsbD 1 then .partReset else if w.getLsbD 0 then .run else .registerWriteDiscarded 5 w

/-- The command that a host write of a word to a register word spells; register words are counted from 20000h (TABLE 12-2), and from
IDENT on a write is discarded (R151, R161). -/
def decodeRegisterWrite (wordIndex : Nat) (w : Word) : Instr :=
  match wordIndex with
  | 0 => .post w
  | 1 => .noticeClear w
  | 2 => .noticeEnableWrite w
  | 3 => decodeLockWrite .stationPort w
  | 4 => decodeLockWrite .cuePort w
  | 5 => decodeControlWrite w
  | k => .registerWriteDiscarded k w

end Sys2Proof
end

