-- ==== Sys2Proof/Config.lean ====
section
/-! DEFINITION. What the data book fixes once for the part (numbers of things, the unit of elapsed time) and the free values:
constants with no body, so that nothing proved about the model can depend on what they are. -/

namespace Sys2Proof.Config

/-- Numbers of things (TABLE 1-5). -/
def links : Nat := 96
def cameras : Nat := 32
def cells : Nat := 64
def slots : Nat := 160
def reservePlaces : Nat := 32
def keyRecords : Nat := 64
def destinations : Nat := 32
def inputs : Nat := 28
def contacts : Nat := 48
def journalEntries : Nat := 128
/-- Places of the intake queue (R153), of the plan queue (R42), of CLEAR_RESERVE orders at the controller (R26). -/
def intakePlaces : Nat := 32
def planPlaces : Nat := 8
def clearReservePlaces : Nat := 6
/-- The greatest frequency code (R1). -/
def maxCode : Nat := 131071
/-- The margin of a check with no comparison, and the cap of every margin (R14). -/
def marginCap : Int := 4095

/-- Elapsed time is counted in units of 1/768,000 s, in which a millisecond and a tick at every frame rate are whole
(R134, R138; notes/assumptions/4). -/
def unitsPerMs : Nat := 768
def unitsPerSecond : Nat := 768000
/-- A tick is one 256th of the nominal frame period (R134). -/
def tickUnits (rate : Nat) : Nat := 3000 / rate

/-- FREE VALUE. The revision in bits 16 to 23 of IDENT (TABLE 12-2), which the data book does not give. -/
opaque revision : BitVec 8
/-- FREE VALUE. How many units of its work (candidates of a search, entries of an audit) the plan engine does in the n-th
tick it spends searching: the data book gives a search no speed (R9, R45; notes/assumptions/5). -/
opaque searchPace : Nat → Nat
/-- FREE VALUE. How many entries the n-th stretch of the resynchronising walk writes before the journal writer turns to
something else: the data book lets reports arrive during the walk and gives the walk no speed (R166;
notes/assumptions/29). -/
opaque walkPace : Nat → Nat
/-- FREE VALUE. The n-th result byte that the part writes where the data book gives the result field no value
(notes/assumptions/8). -/
opaque openByte : Nat → BitVec 8

end Sys2Proof.Config
end

