-- ==== Sys2Proof/Machine/State.lean ====
section
/-! DEFINITION. The state of the part, as plain data: one structure per block of section 1.3, each holding every register,
table, queue, timer and flag its chapter gives it, and `Mail`, what one block has handed to another and the other has not yet
taken. Part-written records of shared memory are held once, as these structures; their bytes are computed by Machine/View.lean.
-/

namespace Sys2Proof.Machine

/-- No command of the part stops the machine: the data book describes no event that does. No constructor. -/
inductive Fault where
  deriving DecidableEq, Repr

/-- Reasons for which the model has no meaning to give. -/
inductive Refusal where
  /-- Raised by exec's arm of a command that has no meaning yet; safe (the model stops where the part goes on). No arm is
  refused in this model. -/
  | notModelled (mnemonic : String)
  deriving DecidableEq, Repr

/-! ### Common values -/

/-- A reading of the timebase (R134, R138). -/
structure Timestamp where
  sec : Nat
  frame : Nat
  tick : Nat
  deriving DecidableEq, Repr

/-- Result codes, in the order of TABLE 12-1. -/
inductive ResultCode where
  | ok
  | noCandidate
  | contended
  | tableFull
  | noReserve
  | notTunable
  | busy
  | wrongState
  | killed
  | lineActive
  | badParameter
  | badKind
  | cancelled
  | timeout
  | faulted
  | notReady
  deriving DecidableEq, Repr

/-- What travels with an order from the dispatcher to its owner: its cell, its kind byte and the CLAMPED flag (R155). -/
structure OrderTag where
  cell : Nat
  kind : Nat
  clamped : Bool
  deriving DecidableEq, Repr

/-- The three tally colours of a camera (R104). -/
structure Colours where
  programme : Bool
  preview : Bool
  iso : Bool
  deriving DecidableEq, Repr

def Colours.off : Colours := { programme := false, preview := false, iso := false }

/-- The two staged outputs (R140). -/
inductive Output where
  | lamps
  | crosspoints
  deriving DecidableEq, Repr

/-! ### Chapter 1: the plan rules -/

/-- A class of the working class table (TABLE 1-8). -/
structure ClassDef where
  hw : Nat
  eg : Nat
  g3 : Nat
  g5 : Nat
  gx : Nat
  emits : Bool
  sensitive : Bool
  floor : Int
  ceiling : Nat
  guardMs : Nat
  settleMs : Nat
  deriving DecidableEq, Repr

/-- Every field 0 and both flags clear: an undefined class (R2, R3). -/
def ClassDef.undefinedClass : ClassDef :=
  { hw := 0, eg := 0, g3 := 0, g5 := 0, gx := 0, emits := false, sensitive := false, floor := 0, ceiling := 0
    guardMs := 0, settleMs := 0 }

/-- A range of the working exclusion table (R4); bit z of `zones` is zone z. -/
structure ExclRange where
  low : Nat
  high : Nat
  zones : BitVec 4
  deriving DecidableEq, Repr

/-- The working plan rules (1.10): 8 classes, 48 ranges and the two product-order switches. -/
structure PlanRules where
  classes : List ClassDef
  exclusions : List ExclRange
  fifth : Bool
  three : Bool
  deriving DecidableEq, Repr

/-- R2, R3, R4. The codes of the 48 exclusion ranges, to which R4 gives no value after a reset (their zone masks are 0), are 0:
DESIGN CHOICE, notes/assumptions/33. -/
def PlanRules.reset : PlanRules :=
  { classes := List.replicate 8 ClassDef.undefinedClass
    exclusions := List.replicate 48 { low := 0, high := 0, zones := 0 }
    fifth := false, three := false }

/-- Eligibility of a verdict (TABLE 1-10, TABLE 12-1). -/
inductive Eligibility where
  | acceptable
  | outsideWindow
  | offGrid
  | excluded
  | negativeMargin
  deriving DecidableEq, Repr

/-- The verdict of a check of one code (R15). -/
structure Verdict where
  eligibility : Eligibility
  margin : Int
  spacing : Int
  product : Int
  deriving DecidableEq, Repr

/-! ### Chapter 2: the carrier table and the reserve list -/

/-- States of a carrier entry (R23); a free slot is `none` in the table. -/
inductive CarrierState where
  | reserved
  | live
  | learned
  | silent
  deriving DecidableEq, Repr

/-- A carrier entry (TABLE 2-1), less its change count. -/
structure CarrierEntry where
  link : Nat
  role : Role
  code : Nat
  cls : Nat
  zone : Nat
  state : CarrierState
  conflict : Bool
  excluded : Bool
  imSuspect : Bool
  since : Timestamp
  deriving DecidableEq, Repr

/-- A reserve entry (R34), less its position's change count. -/
structure ReserveEntry where
  code : Nat
  cls : Nat
  zone : Nat
  fill : Timestamp
  deriving DecidableEq, Repr

/-- A role of a request to the controller: its class, zone, tuning range, step and offset (TABLE 2-4). -/
structure RolePlan where
  role : Role
  cls : Nat
  zone : Nat
  lo : Nat
  hi : Nat
  step : Nat
  off : Nat
  deriving DecidableEq, Repr

/-- One change of an UPDATE (R31): a removal, or a state change to a target state. -/
inductive EntryChange where
  | remove
  | become (target : CarrierState)
  deriving DecidableEq, Repr

/-- An UPDATE names an entry of its link by role and code (R31). -/
structure CarrierChange where
  role : Role
  code : Nat
  change : EntryChange
  deriving DecidableEq, Repr

/-- A finding of an audit about a carrier-table entry (R39). -/
structure Finding where
  slot : Nat
  link : Nat
  role : Role
  code : Nat
  suspect : Bool
  deriving DecidableEq, Repr

/-- A request to the carrier table controller (TABLE 2-4). `seq` names the sequence of the link that sent it, so that the
link supervisor knows an answer that comes after the sequence was abandoned. -/
inductive CtlReq where
  | insert (byEngine : Bool) (link seq : Nat) (roles : List (RolePlan × Nat))
  | take (link seq : Nat) (roles : List RolePlan)
  | learn (link seq zone : Nat) (roles : List (Role × Nat × Nat))
  | update (link seq : Nat) (live : Bool) (changes : List CarrierChange)
  | purge (link : Nat)
  | append (code cls zone : Nat)
  | clearReserve (tag : OrderTag) (filter : Option Nat)
  | adopt (rules : PlanRules)
  | mark (gen : Nat) (findings : List Finding) (codes : List Nat)
  deriving DecidableEq, Repr

/-- The controller's word about one role of an INSERT, TAKE or LEARN: result, code, slot when inserted, verdict when checked. -/
structure RoleAnswer where
  role : Role
  result : ResultCode
  code : Nat
  slot : Option Nat
  verdict : Option Verdict
  deriving DecidableEq, Repr

/-- The answer to an INSERT, TAKE or LEARN. -/
structure InsertAnswer where
  link : Nat
  seq : Nat
  result : ResultCode
  roles : List RoleAnswer
  deriving DecidableEq, Repr

/-- Counts of a MARK answer (R39). -/
structure MarkAnswer where
  conflict : Nat
  excluded : Nat
  imSuspect : Nat
  removed : Nat
  applied : Bool
  deriving DecidableEq, Repr

/-- The controller's answer to the plan engine; that of an APPEND carries the verdict of its check, if it made one (R35). -/
inductive EngineAnswer where
  | inserted (a : InsertAnswer)
  | appended (result : ResultCode) (verdict : Option Verdict)
  | marked (a : MarkAnswer)
  deriving DecidableEq, Repr

/-- The answer to an UPDATE: of which link and sequence, and the outcome of each change (R31). -/
structure UpdateAnswer where
  link : Nat
  seq : Nat
  outcomes : List ResultCode
  deriving DecidableEq, Repr

/-- The carrier table controller (chapter 2): table, reserve list, working plan rules, generations, request queue. -/
structure Controller where
  table : List (Option CarrierEntry)
  reserve : List ReserveEntry
  rules : PlanRules
  carrierGen : Nat
  ruleGen : Nat
  queue : List CtlReq
  deriving DecidableEq, Repr

/-- R41. -/
def Controller.reset : Controller :=
  { table := List.replicate Config.slots none, reserve := [], rules := PlanRules.reset, carrierGen := 0, ruleGen := 0
    queue := [] }

/-! ### Chapter 3: the plan engine -/

/-- The parameters of a PLAN_QUERY or FILL_RESERVE, as the dispatcher clamped them (TABLE 3-3). -/
structure PlanParams where
  cls : Nat
  zone : Nat
  lo : Nat
  hi : Nat
  step : Nat
  off : Nat
  preferred : Option Nat
  count : Nat
  deriving DecidableEq, Repr

/-- An ENABLE or RETUNE planning request (TABLE 3-1): the roles to search and the given code of any other role. -/
structure PlanningReq where
  retune : Bool
  link : Nat
  cell : Nat
  seq : Nat
  search : List Role
  given : List (Role × Nat)
  deriving DecidableEq, Repr

/-- The plan requests (TABLE 3-1). -/
inductive PlanReq where
  | query (tag : OrderTag) (p : PlanParams)
  | fill (tag : OrderTag) (p : PlanParams)
  | audit (tag : OrderTag)
  | internalAudit
  | planning (r : PlanningReq)
  deriving DecidableEq, Repr

/-- A carrier as a check sees it (R10): its code, class, zone, and the link and role it belongs to (none for a spare). -/
structure Carrier where
  code : Nat
  cls : Nat
  zone : Nat
  owner : Option (Nat × Role)
  deriving DecidableEq, Repr

/-- A search in progress (R8, R45): the next code to visit, its inputs, the ranked acceptable candidates kept, the counts, and
the generations read at its start. -/
structure SearchRun where
  next : Nat
  hi : Nat
  step : Nat
  cls : Nat
  zone : Nat
  subject : Option (Nat × Role)
  tentative : List Carrier
  useReserve : Bool
  preferred : Option Nat
  keep : Nat
  best : List (Nat × Int)
  found : Nat
  evaluated : Nat
  carrierStart : Nat
  ruleStart : Nat
  deriving DecidableEq, Repr

/-- The measuring of an audit (R53): the kept generation, the next slot and reserve position, and what was found. -/
structure AuditRun where
  gen : Nat
  slot : Nat
  pos : Nat
  findings : List Finding
  failing : List Nat
  reserveMeasured : Nat
  deriving DecidableEq, Repr

/-- Progress of a FILL_RESERVE (R50, R51). -/
structure FillRun where
  added : Nat
  first : Option (Nat × Int)
  last : Option (Nat × Int)
  least : Int
  restarts : Nat
  deriving DecidableEq, Repr

/-- The request in service (R44): SEARCHING while `awaiting` is clear, AWAITING while it is set. `role` is the role whose
search runs, `todo` the roles still to be searched in this attempt, `chosen` those searched (R46). -/
structure Service where
  req : PlanReq
  awaiting : Bool
  cancelMark : Bool
  restarts : Nat
  attempts : Nat
  genChanged : Bool
  role : Option Role
  todo : List Role
  chosen : List (Role × Nat × Int)
  search : SearchRun
  audit : AuditRun
  fill : FillRun
  deriving DecidableEq, Repr

/-- The plan engine (chapter 3); IDLE while `service` is none. -/
structure Engine where
  queue : List PlanReq
  standby : List PlanningReq
  auditPending : Bool
  service : Option Service
  paceCount : Nat
  deriving DecidableEq, Repr

/-- R57 (paceCount is the model's own counter of the free search pace). -/
def Engine.reset : Engine :=
  { queue := [], standby := [], auditPending := false, service := none, paceCount := 0 }

/-- The engine's answer to a planning request (R48). `outcome` is CANCELLED with `afterCancel` set for OK-AFTER-CANCEL. -/
structure PlanAnswer where
  link : Nat
  seq : Nat
  result : ResultCode
  afterCancel : Bool
  roles : List RoleAnswer
  attempts : Nat
  nothingFor : Option Role
  genChanged : Bool
  deriving DecidableEq, Repr

/-! ### Chapter 4: the link supervisor -/

inductive LinkKind where
  | camera
  | mic
  | iem
  | beltpack
  | data
  deriving DecidableEq, Repr

/-- A declared role of a link definition (TABLE 4-1). -/
structure RoleDef where
  cls : Nat
  lo : Nat
  hi : Nat
  step : Nat
  off : Nat
  deriving DecidableEq, Repr

/-- A present link definition (TABLE 4-1); a role is `some` when the definition declares it (R59). -/
structure LinkDef where
  kind : LinkKind
  unit : Nat
  chan : Nat
  camera : Nat
  zone : Nat
  outRole : Option RoleDef
  inRole : Option RoleDef
  auto : Bool
  attn : Bool
  delayS : Nat
  holdS : Nat
  deriving DecidableEq, Repr

inductive LinkState where
  | vacant
  | parked
  | learning
  | planning
  | tuning
  | active
  | holding
  | retuning
  | killed
  | faulted
  deriving DecidableEq, Repr

inductive Health where
  | good
  | degraded
  | stale
  | lost
  deriving DecidableEq, Repr

inductive SeqKind where
  | noSequence
  | enable
  | retune
  | failover
  | restore
  deriving DecidableEq, Repr

inductive Phase where
  | noPhase
  | inserting
  | tuneSent
  | guarding
  | settling
  | unmuting
  deriving DecidableEq, Repr

inductive HoldReason where
  | order
  | failover
  deriving DecidableEq, Repr

inductive FailoverBlock where
  | clear
  | noReserve
  | tableFull
  | timeout
  deriving DecidableEq, Repr

/-- The per-role part of a link state record (TABLE 4-3, TABLE 12-8). -/
structure RoleRec where
  health : Option Health
  present : Option Nat
  fresh : Option Nat
  degradedSince : Option Timestamp
  badRun : Nat
  goodRun : Nat
  deriving DecidableEq, Repr

def RoleRec.reset : RoleRec :=
  { health := none, present := none, fresh := none, degradedSince := none, badRun := 0, goodRun := 0 }

/-- A link state record (TABLE 4-3), less its change count. -/
structure LinkRec where
  state : LinkState
  outRec : RoleRec
  inRec : RoleRec
  seqKind : SeqKind
  phase : Phase
  seqOut : Bool
  seqIn : Bool
  repeats : Nat
  orderCell : Option Nat
  untracked : Bool
  unsilenceable : Bool
  retuneNeeded : Bool
  pending : Bool
  hold : Option HoldReason
  block : FailoverBlock
  learning : Nat
  misses : Nat
  holdStart : Option Timestamp
  lastVisit : Option Timestamp
  deriving DecidableEq, Repr

/-- R60: the record after reset. -/
def LinkRec.reset : LinkRec :=
  { state := .vacant, outRec := RoleRec.reset, inRec := RoleRec.reset, seqKind := .noSequence, phase := .noPhase
    seqOut := false, seqIn := false, repeats := 0, orderCell := none, untracked := false, unsilenceable := false
    retuneNeeded := false, pending := false, hold := none, block := .clear, learning := 0, misses := 0
    holdStart := none, lastVisit := none }

inductive LinkOrderKind where
  | enable
  | retune
  | park
  deriving DecidableEq, Repr

/-- A link order as handed to the supervisor: its roles and the fixed or target codes it gives (TABLE 12-5). -/
structure LinkOrder where
  tag : OrderTag
  kind : LinkOrderKind
  link : Nat
  roleOut : Bool
  roleIn : Bool
  codeOut : Option Nat
  codeIn : Option Nat
  force : Bool
  deriving DecidableEq, Repr

/-- What a PARK in service waits for (R75): its MUTE (not needed, waiting, answered, failed) and its PURGE. -/
inductive ParkMute where
  | notNeeded
  | waiting
  | answered
  | failed
  deriving DecidableEq, Repr

/-- What the link supervisor holds for a link beside its record: the order in service, timers as deadlines of elapsed time,
the requests outstanding or held, and what its order results need. `killWait` names the sequences whose answer the UPDATE of a
kill waits for (R147), `killChanges` holds the changes of that UPDATE, `afterKill` the requests that come after it, and `parkSeq`
is the number under which the MUTE of the PARK in service went out. -/
structure LinkAux where
  seq : Nat
  began : LinkState
  permitKept : Bool
  tuneBegun : Bool
  unmuteBegun : Bool
  order : Option LinkOrder
  attempts : Nat
  framesHeld : Nat
  holdFrame : Nat
  answerOut : Option RoleAnswer
  answerIn : Option RoleAnswer
  holdAt : Option Nat
  holdTimer : Bool
  guardAt : Option Nat
  settleAt : Option Nat
  settleLen : Nat
  pollAt : Option Nat
  retryAt : Option Nat
  outDegradedAt : Option Nat
  inDegradedAt : Option Nat
  staleFrom : Option Nat
  staleExpired : Bool
  planOut : Bool
  outstanding : Bool
  held : List CtlReq
  purges : Nat
  killWait : List Nat
  killChanges : List CarrierChange
  afterKill : List CtlReq
  parkLeft : LinkState
  parkRemoved : Nat
  parkMute : ParkMute
  parkSeq : Nat
  deriving DecidableEq, Repr

def LinkAux.reset : LinkAux :=
  { seq := 0, began := .vacant, permitKept := false, tuneBegun := false, unmuteBegun := false, order := none, attempts := 0
    framesHeld := 0, holdFrame := 0, answerOut := none, answerIn := none, holdAt := none, holdTimer := false
    guardAt := none, settleAt := none, settleLen := 0, pollAt := none, retryAt := none, outDegradedAt := none
    inDegradedAt := none, staleFrom := none, staleExpired := false, planOut := false, outstanding := false, held := []
    purges := 0, killWait := [], killChanges := [], afterKill := [], parkLeft := .vacant, parkRemoved := 0
    parkMute := .notNeeded, parkSeq := 0 }

structure Link where
  vis : LinkRec
  aux : LinkAux
  deriving DecidableEq, Repr

def Link.reset : Link := { vis := LinkRec.reset, aux := LinkAux.reset }

/-- The working supervision settings (R78, R98). -/
structure Settings where
  periodMs : Nat
  staleFactor : Nat
  missLimit : Nat
  persistence : Nat
  pattern : List Word
  deriving DecidableEq, Repr

/-- R78. -/
def Settings.reset : Settings :=
  { periodMs := 1000, staleFactor := 3, missLimit := 3, persistence := 2, pattern := List.replicate 8 0 }

/-- The link supervisor (chapter 4): working definitions and settings, and the 96 links. -/
structure Supervisor where
  defs : List (Option LinkDef)
  settings : Settings
  links : List Link
  deriving DecidableEq, Repr

def Supervisor.reset : Supervisor :=
  { defs := List.replicate Config.links none, settings := Settings.reset, links := List.replicate Config.links Link.reset }

/-! ### Chapter 5: the unit link -/

inductive ControlKind where
  | tune
  | mute
  | unmute
  | settlePoll
  deriving DecidableEq, Repr

/-- A CONTROL request of a link (R85). `forRetune` marks a request of a RETUNE or FAILOVER sequence that does not keep its
permit: the programme part of the tune permit governs its TUNE frames, whatever has become of the sequence (R72). -/
structure ControlReq where
  link : Nat
  seq : Nat
  forRetune : Bool
  unit : Nat
  chan : Nat
  kind : ControlKind
  roleOut : Bool
  roleIn : Bool
  codeOut : Nat
  codeIn : Nat
  deriving DecidableEq, Repr

/-- A request of the KILL class (R85): SILENCE, or the kill MUTE of a link. -/
inductive KillReq where
  | silence
  | mute (link epoch serial unit chan : Nat) (roleOut roleIn : Bool)
  deriving DecidableEq, Repr

/-- A CUE request of a camera (R108, R110). -/
structure CueReq where
  camera : Nat
  epoch : Nat
  unit : Nat
  chan : Nat
  colours : Colours
  call : Bool
  resend : Bool
  deriving DecidableEq, Repr

/-- A request of the SWEEP class (R85). -/
inductive SweepReq where
  | poll (unit : Nat)
  | loop (unit : Nat) (pattern : List Word)
  deriving DecidableEq, Repr

/-- A request in the transaction machine. -/
inductive UlReq where
  | killReq (r : KillReq)
  | cueReq (r : CueReq)
  | controlReq (r : ControlReq)
  | attentionPoll (unit : Nat)
  | sweepReq (r : SweepReq)
  deriving DecidableEq, Repr

/-- A transaction in progress (R81): FIRST while `second` is clear, SECOND while it is set; `sending` while its frame is on
the line, and then `deadline` is the end of its reply timeout. -/
structure Transaction where
  req : UlReq
  second : Bool
  sending : Bool
  deadline : Nat
  deriving DecidableEq, Repr

/-- Which part of the tune permit withheld a frame (R82). -/
inductive PermitPart where
  | killPart
  | programmePart
  deriving DecidableEq, Repr

/-- How a transaction ended for its requester (R83). -/
inductive ControlResult where
  | acked
  | failed
  | withheld (part : PermitPart)
  deriving DecidableEq, Repr

structure ControlOutcome where
  link : Nat
  seq : Nat
  kind : ControlKind
  result : ControlResult
  deriving DecidableEq, Repr

/-- A role's block of a REPORT's channel entry (TABLE 5-3). -/
structure RoleReport where
  level : Int
  quality : Nat
  on : Bool
  settled : Bool
  code : Nat
  deriving DecidableEq, Repr

/-- A channel entry of a REPORT (TABLE 5-3); `cause` is the attention cause byte, 0 for NONE. -/
structure ChanReport where
  echo : Colours
  key0 : Bool
  key1 : Bool
  cause : Nat
  outRep : RoleReport
  inRep : RoleReport
  deriving DecidableEq, Repr

structure Report where
  unit : Nat
  channels : List ChanReport
  deriving DecidableEq, Repr

/-- A LINE_TEST in service (R97): the units still to test (the first has its LOOP placed), and the failures so far; `wrong`
is set for WRONG_ECHO and clear for NO_ECHO. -/
structure LineTest where
  tag : OrderTag
  address : Nat
  pattern : List Word
  units : List Nat
  tested : Nat
  failures : List (Nat × Bool)
  deriving DecidableEq, Repr

inductive LoopResult where
  | right
  | wrong
  | noEcho
  deriving DecidableEq, Repr

/-- The unit link controller (chapter 5). -/
structure UnitLink where
  xact : Option Transaction
  killQ : List KillReq
  cueQ : List CueReq
  controlQ : List ControlReq
  attnQ : Option Nat
  sweepQ : List SweepReq
  units : List Nat
  sweepPos : Option Nat
  sweepOut : Bool
  sweepDue : Nat
  sweepCount : Nat
  uatn : Bool
  roundSet : List Nat
  attnPos : Option Nat
  attnOut : Bool
  lineTest : Option LineTest
  deriving DecidableEq, Repr

/-- R99 (`uatn` is the raw level of the UATN pin, which no reset drives). -/
def UnitLink.reset : UnitLink :=
  { xact := none, killQ := [], cueQ := [], controlQ := [], attnQ := none, sweepQ := [], units := [], sweepPos := none
    sweepOut := false, sweepDue := 0, sweepCount := 0, uatn := false, roundSet := [], attnPos := none, attnOut := false
    lineTest := none }

/-! ### Chapter 6: tally -/

/-- A filtered input (R100): raw level, accepted level, and the run start as a reading and as elapsed time. -/
structure Filter where
  raw : Bool
  accepted : Bool
  runStart : Option (Timestamp × Nat)
  deriving DecidableEq, Repr

def Filter.reset : Filter := { raw := false, accepted := false, runStart := none }

inductive Colour where
  | programme
  | preview
  | iso
  deriving DecidableEq, Repr

/-- A tally map entry (R103); `colour` is none when the field holds no defined colour. -/
structure MapEntry where
  base : Nat
  mask : Nat
  camera : Nat
  colour : Option Colour
  spread : Bool
  enable : Bool
  deriving DecidableEq, Repr

def MapEntry.disabled : MapEntry :=
  { base := 0, mask := 0, camera := 0, colour := none, spread := false, enable := false }

inductive Lamp where
  | off
  | red
  | green
  | yellow
  deriving DecidableEq, Repr

inductive Delivery where
  | noLink
  | sent
  | confirmed
  | unconfirmed
  | suspended
  deriving DecidableEq, Repr

/-- A camera tally record (TABLE 6-2), less its change count. -/
structure CamRec where
  staged : Colours
  applied : Colours
  stagedLamp : Lamp
  appliedLamp : Lamp
  edge : Option Timestamp
  link : Option Nat
  call : Bool
  delivery : Delivery
  cueOut : Bool
  reports : Nat
  pending : Bool
  deriving DecidableEq, Repr

/-- R105: the record after reset. -/
def CamRec.reset : CamRec :=
  { staged := Colours.off, applied := Colours.off, stagedLamp := .off, appliedLamp := .off, edge := none, link := none
    call := false, delivery := .noLink, cueOut := false, reports := 0, pending := false }

/-- The tally unit (chapter 6). `defs`, `linkStates`, `calls` and `killed` are its own view of what the link supervisor, the
talkback router and kill control have handed it; `epochs` counts, per camera, the withdrawals after which an outcome of an
older CUE is stale (R109). `lampPort` is the image latched on the lamp port. -/
structure TallyUnit where
  inputs : List Filter
  widths : List Nat
  virtuals : List Bool
  map : List MapEntry
  cams : List CamRec
  epochs : List Nat
  defs : List (Option LinkDef)
  linkStates : List LinkState
  calls : List Bool
  killed : Bool
  lampPort : List Lamp
  deriving DecidableEq, Repr

/-- R114. -/
def TallyUnit.reset : TallyUnit :=
  { inputs := List.replicate Config.contacts Filter.reset, widths := [4, 4, 4], virtuals := List.replicate 16 false
    map := List.replicate 64 MapEntry.disabled, cams := List.replicate Config.cameras CamRec.reset
    epochs := List.replicate Config.cameras 0, defs := List.replicate Config.links none
    linkStates := List.replicate Config.links .vacant, calls := List.replicate Config.links false, killed := false
    lampPort := List.replicate Config.cameras .off }

/-! ### Chapter 7: talkback -/

inductive SourceKind where
  | unused
  | panel
  | beltpack
  deriving DecidableEq, Repr

structure Source where
  kind : SourceKind
  link : Option Nat
  trim : Int
  deriving DecidableEq, Repr

inductive DestKind where
  | unused
  | iem
  | beltpack
  | camera
  | wired
  deriving DecidableEq, Repr

/-- A destination of the talkback plan (TABLE 7-1); levels in half-dB. -/
structure Dest where
  kind : DestKind
  link : Option Nat
  bus : Option Nat
  level : Int
  dim : Int
  trim : Int
  deriving DecidableEq, Repr

inductive GroupKind where
  | unused
  | fixed
  | programmeCameras
  | previewCameras
  | isoCameras
  deriving DecidableEq, Repr

structure Group where
  kind : GroupKind
  members : BitVec 32
  deriving DecidableEq, Repr

/-- A beltpack binding (R117). -/
structure Binding where
  enable : Bool
  source : Nat
  dest : Nat
  priority : Nat
  latch : Bool
  level : Int
  deriving DecidableEq, Repr

/-- The working talkback plan (R115 to R117); binding 2·link + key. -/
structure TalkPlan where
  sources : List Source
  dests : List Dest
  groups : List Group
  bindings : List Binding
  deriving DecidableEq, Repr

def TalkPlan.reset : TalkPlan :=
  { sources := List.replicate 24 { kind := .unused, link := none, trim := 0 }
    dests := List.replicate Config.destinations
      { kind := .unused, link := none, bus := none, level := 0, dim := 0, trim := 0 }
    groups := List.replicate 8 { kind := .unused, members := 0 }
    bindings := List.replicate 192
      { enable := false, source := 0, dest := 0, priority := 0, latch := false, level := 0 } }

/-- A key (TABLE 7-2), less its change count; `byBeltpack` is its origin. -/
structure KeyRec where
  source : Nat
  dest : Nat
  priority : Nat
  latch : Bool
  level : Int
  byBeltpack : Bool
  keyed : Timestamp
  deriving DecidableEq, Repr

inductive RouteState where
  | slotted
  | waiting
  | merged
  | excludedSelf
  deriving DecidableEq, Repr

/-- The route list record of a destination (TABLE 7-5), less its change count: `routes` gives the key index and state of every
route of the destination, those of the list first, in the list's order. -/
structure DestRec where
  kind : DestKind
  link : Option Nat
  heard : Bool
  routes : List (Nat × RouteState)
  pending : Bool
  deriving DecidableEq, Repr

def DestRec.reset : DestRec := { kind := .unused, link := none, heard := false, routes := [], pending := false }

/-- A word of the crosspoint port (R128). -/
structure XWord where
  output : Nat
  input : Nat
  code : Nat
  deriving DecidableEq, Repr

/-- The talkback router (chapter 7). `defs`, `links`, `colours` and `killed` are its own view of what the link supervisor, the
tally unit and kill control have handed it. -/
structure Router where
  plan : TalkPlan
  keys : List (Option KeyRec)
  images : List (Option (Bool × Bool))
  dests : List DestRec
  staged : List (List Nat)
  applied : List (List Nat)
  calls : List Bool
  defs : List (Option LinkDef)
  links : List (LinkState × Option Health)
  colours : List Colours
  killed : Bool
  portQueue : List XWord
  portSending : Option XWord
  imageSent : Bool
  deriving DecidableEq, Repr

/-- R133. -/
def Router.reset : Router :=
  { plan := TalkPlan.reset, keys := List.replicate Config.keyRecords none
    images := List.replicate Config.links none, dests := List.replicate Config.destinations DestRec.reset
    staged := List.replicate Config.destinations (List.replicate Config.inputs 0)
    applied := List.replicate Config.destinations (List.replicate Config.inputs 0)
    calls := List.replicate Config.links false, defs := List.replicate Config.links none
    links := List.replicate Config.links (.vacant, none), colours := List.replicate Config.cameras Colours.off
    killed := false, portQueue := [], portSending := none, imageSent := false }

/-! ### Chapter 8: the station timebase -/

/-- A trigger set (R140). -/
structure Triggers where
  frame : Bool
  change : Bool
  order : Bool
  take : Bool
  deriving DecidableEq, Repr

/-- What an APPLY in service has from one output (R142): not named, waiting, or the count of the answer. -/
inductive ApplyWait where
  | notNamed
  | waiting
  | answered (count : Nat)
  deriving DecidableEq, Repr

structure ApplyOrder where
  tag : OrderTag
  lampWait : ApplyWait
  xpWait : ApplyWait
  deriving DecidableEq, Repr

/-- The station timebase (chapter 8). `elapsed` and `frames` are the model's own: elapsed time since power-on in units of
1/768,000 s, which every timer measures (R138), and the frame boundaries passed. -/
structure Timebase where
  sec : Nat
  frame : Nat
  tick : Nat
  rate : Nat
  buffered : Option Nat
  locked : Bool
  misses : Nat
  clockWait : Option (OrderTag × Nat × Nat)
  takeFilter : Filter
  takeWidth : Nat
  lampSet : Triggers
  xpSet : Triggers
  lampFlag : Bool
  xpFlag : Bool
  applies : List ApplyOrder
  elapsed : Nat
  frames : Nat
  deriving DecidableEq, Repr

/-- R134, R135, R136, R139, R140, R141. -/
def Timebase.reset : Timebase :=
  { sec := 0, frame := 0, tick := 0, rate := 25, buffered := none, locked := false, misses := 0, clockWait := none
    takeFilter := Filter.reset, takeWidth := 4
    lampSet := { frame := true, change := false, order := true, take := false }
    xpSet := { frame := false, change := true, order := false, take := false }
    lampFlag := false, xpFlag := false, applies := [], elapsed := 0, frames := 0 }

/-! ### Chapter 9: kill control -/

inductive KillCause where
  | none
  | line
  | order
  deriving DecidableEq, Repr

/-- The MUTE state of a link that kill control tracks (R146); `untracked` for a link not on the list. -/
inductive MuteState where
  | untracked
  | waiting
  | inProgress
  | retry (deadline : Nat)
  | answered
  deriving DecidableEq, Repr

/-- A link to mute as the link supervisor hands it over: the unit, channel and declared roles that its kill MUTE names. The
MUTE keeps them over any later change of the link (R146). -/
structure MuteTarget where
  link : Nat
  unit : Nat
  chan : Nat
  roleOut : Bool
  roleIn : Bool
  deriving DecidableEq, Repr

/-- What kill control keeps of a link: its MUTE state, whether it failed before in this assertion, what its MUTE names, and how many
MUTEs have been placed for it in this assertion, so that the outcome of an earlier one is known. -/
structure MuteRec where
  state : MuteState
  failedBefore : Bool
  target : Option MuteTarget
  serial : Nat
  deriving DecidableEq, Repr

def MuteRec.reset : MuteRec := { state := .untracked, failedBefore := false, target := none, serial := 0 }

/-- Kill control (chapter 9); `epoch` counts assertions, so that the outcome of an older assertion's MUTE is known. -/
structure KillControl where
  asserted : Bool
  cause : KillCause
  filter : Filter
  width : Nat
  mutes : List MuteRec
  epoch : Nat
  deriving DecidableEq, Repr

/-- R143, R150; the filtered line is `filter.accepted`. -/
def KillControl.reset : KillControl :=
  { asserted := false, cause := .none, filter := Filter.reset, width := 8
    mutes := List.replicate Config.links MuteRec.reset, epoch := 0 }

/-! ### Chapter 10: the host port, the dispatcher and the adoptions -/

/-- POST outcomes (TABLE 12-1). -/
inductive PostOutcome where
  | none
  | taken
  | outOfRange
  | queueFull
  | duplicate
  | notRunning
  deriving DecidableEq, Repr

inductive PartState where
  | initializing
  | halted
  | running
  deriving DecidableEq, Repr

/-- A lock port (R157). -/
structure Lock where
  flag : Bool
  test : Bool
  deriving DecidableEq, Repr

/-- An order as the dispatcher tested and clamped it, by its owner (TABLE 10-3). -/
inductive Order where
  | link (o : LinkOrder)
  | plan (r : PlanReq)
  | clearReserve (tag : OrderTag) (filter : Option Nat)
  | setTally (tag : OrderTag) (states masks : BitVec 16)
  | key (tag : OrderTag) (source dest priority : Nat) (latch press : Bool) (level : Int)
  | clearKeys (tag : OrderTag) (source : Option Nat)
  | apply (tag : OrderTag) (lamps crosspoints : Bool)
  | setClock (tag : OrderTag) (sec frame : Nat)
  | kill (tag : OrderTag)
  | releaseKill (tag : OrderTag)
  | lineTest (tag : OrderTag) (address : Nat)
  deriving DecidableEq, Repr

/-- The order dispatcher (R153 to R156): the intake queue, the order that waits ACCEPTED at its head, the cells in service
with an owner, and the outcome of the last post. -/
structure Dispatcher where
  intake : List Nat
  waiting : Option Order
  service : List Nat
  outcome : PostOutcome
  deriving DecidableEq, Repr

def Dispatcher.reset : Dispatcher := { intake := [], waiting := none, service := [], outcome := .none }

/-- Rejection reasons (TABLE 10-4, R160), in the order of TABLE 12-1. -/
inductive Reason where
  | none
  | badDefinition
  | badClass
  | badWindow
  | badStep
  | duplicateUnit
  | duplicateCamera
  | linkInUse
  | badReference
  deriving DecidableEq, Repr

inductive AdoptResult where
  | none
  | accepted
  | rejected
  deriving DecidableEq, Repr

/-- A group's status in the directory (R158). -/
structure AdoptStatus where
  result : AdoptResult
  reason : Reason
  subject : Option Nat
  gen : Nat
  deriving DecidableEq, Repr

def AdoptStatus.reset : AdoptStatus := { result := .none, reason := .none, subject := none, gen := 0 }

/-- How far a group's adoption is (R157, R159): IDLE; begun (the copy is made, its validation is next); its ADOPT is at the controller; the
controller has answered. The last three are IN_PROGRESS. -/
inductive AdoptStage where
  | idle
  | begun
  | atController
  | answered
  deriving DecidableEq, Repr

/-- The adoption state of a group (R157): `held` is a request that waits in IDLE for the lock flag to be cleared, and `tables`
the copy of the group's regions, made at the moment the adoption began (nothing outside an adoption). `written` is the model's own:
how often the status has been written (R152, notes/assumptions/6). -/
structure AdoptState where
  stage : AdoptStage
  pending : Bool
  held : Bool
  tables : List Host.Cell
  status : AdoptStatus
  written : Nat
  deriving DecidableEq, Repr

def AdoptState.reset : AdoptState :=
  { stage := .idle, pending := false, held := false, tables := [], status := AdoptStatus.reset, written := 0 }

/-- An accepted station copy on its way to its owners (R159). -/
structure StationCopy where
  rules : PlanRules
  defs : List (Option LinkDef)
  settings : Settings
  killWidth : Nat
  deriving DecidableEq, Repr

/-- The adoption logic (10.4): both groups, the station copy between validation and taking, the links whose ENABLE_LINK is
refused BUSY meanwhile (R159), and the cue adoption of RUN that follows its station adoption (R162). -/
structure Adoption where
  station : AdoptState
  cue : AdoptState
  copy : Option StationCopy
  barred : List Nat
  cueAfterStation : Bool
  deriving DecidableEq, Repr

def Adoption.reset : Adoption :=
  { station := AdoptState.reset, cue := AdoptState.reset, copy := none, barred := [], cueAfterStation := false }

/-! ### Chapter 11: the journal and the notices -/

/-- Journal kinds (TABLE 11-1, TABLE 12-1). -/
inductive JKind where
  | link
  | carrier
  | tally
  | route
  | order
  | timebase
  | kill
  | table
  | holdExpired
  deriving DecidableEq, Repr

/-- The record that a report's pending flag stands for (TABLE 11-2); `nowhere` for a report that is not kept. -/
inductive PendingOf where
  | killFlag
  | referenceFlag
  | tableFlag
  | linkRec (i : Nat)
  | camera (c : Nat)
  | dest (d : Nat)
  | cell (n : Nat)
  | nowhere
  deriving DecidableEq, Repr

/-- A notice that the journal writer raises when it takes the report (R167): ORDER always, ORDER only if appended (a
NOT_READY drop), KILL, or none. -/
inductive NoticeOf where
  | none
  | order
  | orderIfAppended
  | kill
  deriving DecidableEq, Repr

/-- A change report of an owner (R163). `values` holds the 24-bit old value and, above it, the 24-bit new value. -/
structure JReport where
  kind : JKind
  stamp : Timestamp
  subject : Nat
  values : Nat
  dropped : Bool
  clamped : Bool
  flagOf : PendingOf
  notice : NoticeOf
  deriving DecidableEq, Repr

/-- A journal entry (TABLE 11-1, R175). -/
structure JEntry where
  sequence : Nat
  kind : JKind
  stamp : Timestamp
  subject : Nat
  values : Nat
  resync : Bool
  dropped : Bool
  clamped : Bool
  deriving DecidableEq, Repr

/-- The journal writer and the notice logic (chapter 11). A position no entry has been written to is `none`. `walking` is set
while the resynchronising walk goes on: the last read of the taken count found room and some flag is pending (R166);
`walkCount` is the model's own counter of the free walk pace. -/
structure Journal where
  entries : List (Option JEntry)
  head : Nat
  taken : Nat
  killPending : Bool
  referencePending : Bool
  tablePending : Bool
  cellPending : List Bool
  threshold : Nat
  delayFrames : Nat
  delayCount : Option Nat
  walking : Bool
  walkCount : Nat
  notice : BitVec 5
  enable : BitVec 5
  line : Bool
  deriving DecidableEq, Repr

/-- R169. -/
def Journal.reset : Journal :=
  { entries := List.replicate Config.journalEntries none, head := 0, taken := 0, killPending := false
    referencePending := false, tablePending := false, cellPending := List.replicate Config.cells false, threshold := 8
    delayFrames := 25, delayCount := none, walking := false, walkCount := 0, notice := 0, enable := 0, line := false }

/-! ### What blocks have handed to one another -/

/-- Everything one block has sent another and the other has not yet taken: each list is first in, first out. -/
structure Mail where
  linkOrders : List LinkOrder
  tallyOrders : List Order
  routerOrders : List Order
  timebaseOrders : List Order
  killOrders : List Order
  lineTests : List Order
  engineAnswers : List EngineAnswer
  cancels : List (Nat × Nat)
  planAnswers : List PlanAnswer
  insertAnswers : List InsertAnswer
  takeAnswers : List InsertAnswer
  learnAnswers : List InsertAnswer
  liveAnswers : List UpdateAnswer
  updateAnswers : List UpdateAnswer
  purgeAnswers : List (Nat × Nat)
  controlOutcomes : List ControlOutcome
  tallyChanges : List Nat
  tallyDefs : List (List (Option LinkDef))
  routerDefs : List (List (Option LinkDef))
  linkToTally : List (Nat × LinkState)
  linkToRouter : List (Nat × LinkState × Option Health)
  supervisorReports : List Report
  tallyReports : List Report
  routerReports : List Report
  missedUnits : List Nat
  loopResults : List LoopResult
  killToLinks : List Bool
  killToTally : List Bool
  killToRouter : List Bool
  muteLists : List (List MuteTarget)
  killMuteOutcomes : List (Nat × Nat × Nat × Bool)
  callChanges : List (Nat × Bool)
  cueOutcomes : List (CueReq × Bool)
  colourChanges : List (List (Nat × Colours))
  stagedChanges : List Output
  lampApplySent : Bool
  xpApplySent : Bool
  applyAnswers : List (Output × Nat)
  reports : List (Owner × JReport)
  deriving DecidableEq, Repr

def Mail.reset : Mail :=
  { linkOrders := [], tallyOrders := [], routerOrders := [], timebaseOrders := [], killOrders := [], lineTests := []
    engineAnswers := [], cancels := [], planAnswers := [], insertAnswers := [], takeAnswers := [], learnAnswers := []
    liveAnswers := [], updateAnswers := [], purgeAnswers := [], controlOutcomes := [], tallyChanges := [], tallyDefs := []
    routerDefs := [], linkToTally := [], linkToRouter := [], supervisorReports := [], tallyReports := []
    routerReports := [], missedUnits := [], loopResults := [], killToLinks := [], killToTally := [], killToRouter := []
    muteLists := [], killMuteOutcomes := [], callChanges := [], cueOutcomes := [], colourChanges := []
    stagedChanges := [], lampApplySent := false, xpApplySent := false, applyAnswers := [], reports := [] }

/-- The change counts of the part-written records (R152, R170): 16 bits each, 8 for a reserve position. -/
structure Counts where
  directory : Nat
  links : List Nat
  carriers : List Nat
  reserve : List Nat
  cameras : List Nat
  keys : List Nat
  routes : List Nat
  deriving DecidableEq, Repr

def Counts.reset : Counts :=
  { directory := 0, links := List.replicate Config.links 0, carriers := List.replicate Config.slots 0
    reserve := List.replicate Config.reservePlaces 0, cameras := List.replicate Config.cameras 0
    keys := List.replicate Config.keyRecords 0, routes := List.replicate Config.destinations 0 }

/-- The state of the part. `mem` holds the bytes of the host-written regions and of the order cells, in the canonical form of
Memory.wf; `openCount` numbers the free result bytes written (Config.openByte); `pending` is the queue of commands that are
waiting, which no command reads. -/
structure State where
  part : PartState
  mem : List Host.Cell
  lockP : Lock
  lockC : Lock
  disp : Dispatcher
  adopt : Adoption
  ctl : Controller
  eng : Engine
  sup : Supervisor
  ul : UnitLink
  tally : TallyUnit
  router : Router
  tb : Timebase
  kc : KillControl
  jw : Journal
  mail : Mail
  counts : Counts
  openCount : Nat
  pending : List Instr
  deriving DecidableEq, Repr

/-- The machine right after power-on reset (R161): HALTED, every block in the reset state its chapter gives, nothing in
memory. -/
def State.reset : State :=
  { part := .halted, mem := [], lockP := { flag := false, test := false }, lockC := { flag := false, test := false }
    disp := Dispatcher.reset, adopt := Adoption.reset, ctl := Controller.reset, eng := Engine.reset
    sup := Supervisor.reset, ul := UnitLink.reset, tally := TallyUnit.reset, router := Router.reset, tb := Timebase.reset
    kc := KillControl.reset, jw := Journal.reset, mail := Mail.reset, counts := Counts.reset, openCount := 0
    pending := [] }

end Sys2Proof.Machine
end

