-- ==== Sys2Proof/Machine/Ops.lean ====
section
/-! DEFINITION. Named operations that every block uses: bytes of shared memory, the reading of the timebase, reports to the
journal writer, notices, the completion of an order, and messages taken from Mail. -/

namespace Sys2Proof.Machine

/-! ### Memory: a list of (address, byte) in one canonical form -/

/-- What a byte reads as that nothing has written: the data book gives no contents after power-on (R161); DESIGN CHOICE,
notes/assumptions/1. -/
def unwrittenByte : Byte := 0

/-- Addresses strictly rise, and no entry equals what an unlisted address reads as. -/
abbrev Memory.wf (m : List Host.Cell) : Prop :=
  m.Pairwise (fun a b => a.1 < b.1) ∧ ∀ c ∈ m, c.2 ≠ unwrittenByte

def Memory.read : List Host.Cell → Nat → Byte
  | [], _ => unwrittenByte
  | (k, b) :: rest, a => if k = a then b else Memory.read rest a

/-- Write one byte, keeping the canonical form. -/
def Memory.write : List Host.Cell → Nat → Byte → List Host.Cell
  | [], a, b => if b = unwrittenByte then [] else [(a, b)]
  | (k, c) :: rest, a, b =>
    if a < k then
      if b = unwrittenByte then (k, c) :: rest else (a, b) :: (k, c) :: rest
    else if a = k then
      if b = unwrittenByte then rest else (a, b) :: rest
    else (k, c) :: Memory.write rest a b

/-- Bytes from an address upward. -/
def Memory.writeBytes : List Host.Cell → Nat → List Byte → List Host.Cell
  | m, _, [] => m
  | m, a, b :: bs => Memory.writeBytes (Memory.write m a b) (a + 1) bs

/-- An n-byte field, least significant byte at the lowest offset (12.1). -/
def Memory.readLE (m : List Host.Cell) (a : Nat) : Nat → Nat
  | 0 => 0
  | n + 1 => (Memory.read m a).toNat + 256 * Memory.readLE m (a + 1) n

/-- The n bytes of a field, least significant first. -/
def leBytes (v : Nat) : Nat → List Byte
  | 0 => []
  | n + 1 => BitVec.ofNat 8 v :: leBytes (v / 256) n

/-- The n bytes of a signed field in two's complement (R170). -/
def leBytesInt (v : Int) (n : Nat) : List Byte := leBytes (v % (256 ^ n : Nat)).toNat n

/-! ### Lists of a fixed length and of messages -/

/-- Put a value at an index of a list of fixed length. -/
def put {α : Type} (l : List α) (i : Nat) (v : α) : List α := l.set i v

/-- The first element that satisfies p, and the list without it. -/
def takeFirst {α : Type} (p : α → Bool) : List α → Option (α × List α)
  | [] => none
  | x :: xs => if p x then some (x, xs) else (takeFirst p xs).map (fun r => (r.1, x :: r.2))

/-- Insert into a list kept in order by `before`. -/
def insertBy {α : Type} (before : α → α → Bool) (x : α) : List α → List α
  | [] => [x]
  | y :: ys => if before x y then x :: y :: ys else y :: insertBy before x ys

/-- The states a walk over a list goes through, one after each element. -/
def pathOf {α σ : Type} (f : σ → α → σ) : σ → List α → List σ
  | _, [] => []
  | s, x :: xs => f s x :: pathOf f (f s x) xs

def sortBy {α : Type} (before : α → α → Bool) : List α → List α
  | [] => []
  | x :: xs => insertBy before x (sortBy before xs)

/-! ### Time -/

/-- The reading of the timebase (R138). -/
def State.now (s : State) : Timestamp := { sec := s.tb.sec, frame := s.tb.frame, tick := s.tb.tick }

def State.running (s : State) : Bool := s.part = .running

/-- A timer that was set for this elapsed time has reached it. -/
def State.reached (s : State) (deadline : Nat) : Bool := deadline ≤ s.tb.elapsed

/-! ### Result codes and order cells -/

/-- TABLE 12-1. -/
def ResultCode.toNat : ResultCode → Nat
  | .ok => 0
  | .noCandidate => 1
  | .contended => 2
  | .tableFull => 3
  | .noReserve => 4
  | .notTunable => 5
  | .busy => 6
  | .wrongState => 7
  | .killed => 8
  | .lineActive => 9
  | .badParameter => 10
  | .badKind => 11
  | .cancelled => 12
  | .timeout => 13
  | .faulted => 14
  | .notReady => 15

/-- Cell state bytes (TABLE 12-1). -/
def stEmpty : Nat := 0
def stReady : Nat := 1
def stAccepted : Nat := 2
def stWorking : Nat := 3
def stDone : Nat := 4
def stRefused : Nat := 5

/-- R172. -/
def cellBase (n : Nat) : Nat := 0x400 + 128 * n
def cellParams (n : Nat) : Nat := cellBase n + 0x10
def cellResults (n : Nat) : Nat := cellBase n + 0x40

/-- A timestamp word (R170). -/
def Timestamp.word (t : Timestamp) : Nat := t.tick + t.frame * 2 ^ 8 + t.sec * 2 ^ 14

def stampWord : Option Timestamp → Nat
  | none => 0xFFFFFFFF
  | some t => t.word

/-- The part writes a cell's state byte with a byte write (R152). -/
def writeCellState (cell v : Nat) (s : State) : State :=
  { s with mem := Memory.write s.mem (cellBase cell) (BitVec.ofNat 8 v) }

/-! ### Reports to the journal writer and notices -/

/-- An owner's change report joins those of the same owner that the writer has not yet taken (R163). -/
def report (o : Owner) (r : JReport) (s : State) : State :=
  { s with mail.reports := s.mail.reports ++ [(o, r)] }

/-- Old and new 24-bit values side by side (R175). -/
def values (old new : Nat) : Nat := old + new * 2 ^ 24

/-- The subject value for none (R175). -/
def noSubject : Nat := 0xFFFFFF

/-- Bits of NOTICE (TABLE 12-2). -/
def nOrder : BitVec 5 := 1
def nJournal : BitVec 5 := 2
def nAlarm : BitVec 5 := 4
def nKill : BitVec 5 := 8
def nTable : BitVec 5 := 16

/-- The notice line follows the bits (R167). -/
def Journal.drive (j : Journal) : Journal := { j with line := j.notice &&& j.enable ≠ 0 }

/-- A setting event (R167). -/
def Journal.raise (b : BitVec 5) (j : Journal) : Journal := { j with notice := j.notice ||| b }.drive

def raise (b : BitVec 5) (s : State) : State := { s with jw := s.jw.raise b }

/-- An owner raises the ALARM notice. -/
def alarm (s : State) : State := raise nAlarm s

/-! ### Orders -/

/-- The owner has taken the order and its work takes time: the cell is written WORKING (TABLE 10-2). -/
def beginWork (tag : OrderTag) (s : State) : State := writeCellState tag.cell stWorking s

/-- Result fields of an order: offsets within the results area and bytes. -/
abbrev Results := List (Nat × List Byte)

def writeResults (cell : Nat) : Results → State → State
  | [], s => s
  | (off, bs) :: rest, s =>
    writeResults cell rest { s with mem := Memory.writeBytes s.mem (cellResults cell + off) bs }

/-- The result code, the subject and the completion timestamp of the header (TABLE 12-4). -/
def writeHeader (cell : Nat) (code : ResultCode) (subject : Option Nat) (s : State) : State :=
  let b := cellBase cell
  let m := Memory.write s.mem (b + 4) (BitVec.ofNat 8 code.toNat)
  let m := Memory.writeBytes m (b + 6) (leBytes (subject.getD 0xFFFF) 2)
  { s with mem := Memory.writeBytes m (b + 8) (leBytes s.now.word 4) }

/-- The ORDER entry of a completion (TABLE 12-10): old the kind, new the result code and the state byte. -/
def orderReport (tag : OrderTag) (code : ResultCode) (state : Nat) (s : State) : JReport :=
  { kind := .order, stamp := s.now, subject := tag.cell, values := values tag.kind (code.toNat + state * 256)
    dropped := false, clamped := tag.clamped, flagOf := .cell tag.cell, notice := .order }

/-- The four steps of every completion (R154): results, header, state byte, ORDER entry. The cell leaves service. -/
def completeOrder (o : Owner) (tag : OrderTag) (res : Results) (code : ResultCode) (subject : Option Nat) (state : Nat)
    (s : State) : State :=
  let s := writeResults tag.cell res s
  let s := writeHeader tag.cell code subject s
  let s := writeCellState tag.cell state s
  let s := { s with disp.service := s.disp.service.filter (· ≠ tag.cell) }
  report o (orderReport tag code state s) s

def doneOrder (o : Owner) (tag : OrderTag) (res : Results) (code : ResultCode) (subject : Option Nat) (s : State) : State :=
  completeOrder o tag res code subject stDone s

def refuseOrder (o : Owner) (tag : OrderTag) (res : Results) (code : ResultCode) (subject : Option Nat) (s : State) : State :=
  completeOrder o tag res code subject stRefused s

/-- n free result bytes, for result fields the data book gives no value (notes/assumptions/8), and the counter past them. -/
def openBytes (count : Nat) : Nat → List Byte
  | 0 => []
  | n + 1 => Config.openByte count :: openBytes (count + 1) n

end Sys2Proof.Machine
end

