-- ==== Sys2Proof/Machine/Arith.lean ====
section
/-! DEFINITION. Chapter 1: the frequency coordination arithmetic. Every check, by a search, a quick check, an audit or a
re-marking, is `verdictOf` over a list of considered carriers; exact integers throughout (R1, R14). -/

namespace Sys2Proof.Machine

def PlanRules.cls (r : PlanRules) (k : Nat) : ClassDef := r.classes.getD k ClassDef.undefinedClass

/-- A band meets a range when they touch (R7). -/
def bandMeets (c hw : Nat) (x : ExclRange) : Bool :=
  (c : Int) - hw ≤ x.high && (c : Int) + hw ≥ x.low

/-- A range in use excludes in the zones of its mask (R4). -/
def ExclRange.inUseFor (x : ExclRange) (zone : Nat) : Bool := x.low ≤ x.high && x.zones.getLsbD zone

/-- The occupied band of a carrier of class k at code c meets an exclusion range in use for its zone (R7). -/
def bandExcluded (r : PlanRules) (c k zone : Nat) : Bool :=
  r.exclusions.any fun x => x.inUseFor zone && bandMeets c (r.cls k).hw x

/-- c − o is divisible by s (R7). -/
def onGrid (c step off : Nat) : Bool := ((c : Int) - off) % step = 0

/-! ### Spacing (R11) -/

def requiredSpacing (a b : ClassDef) : Nat := a.hw + b.hw + max a.eg b.eg

/-- Absolute difference of codes. -/
def distance (a b : Int) : Int := ((a - b).natAbs : Int)

/-- The spacing margin of code c, class k against carrier a. -/
def spacingTo (r : PlanRules) (c k : Nat) (a : Carrier) : Int :=
  distance c a.code - requiredSpacing (r.cls k) (r.cls a.cls)

/-- The least of some margins, capped at 4,095, which is also the value with none (R11, R14). -/
def leastMargin (l : List Int) : Int := l.foldl min Config.marginCap

/-- The considered carriers of a zone (R10). -/
def inZone (zone : Nat) (l : List Carrier) : List Carrier := l.filter (fun a => a.zone = zone)

def spacingMargin (r : PlanRules) (c k zone : Nat) (l : List Carrier) : Int :=
  leastMargin ((inZone zone l).map (spacingTo r c k))

/-! ### Products (R10, R12, R13) -/

inductive ProductOrder where
  | third
  | fifth
  | three
  deriving DecidableEq, Repr

/-- The guard of a class against products of an order (R12). -/
def ClassDef.guardFor (k : ClassDef) : ProductOrder → Nat
  | .third => k.g3
  | .fifth => k.g5
  | .three => k.gx

/-- A product: order, value, product half width. -/
structure Product where
  order : ProductOrder
  value : Int
  pw : Nat
  deriving DecidableEq, Repr

/-- A product is kept only when its value is a code (R10). -/
def Product.kept (p : Product) : Bool := 0 ≤ p.value && p.value ≤ Config.maxCode

/-- Each element of a list with all the others. -/
def picks {α : Type} : List α → List (α × List α)
  | [] => []
  | x :: xs => (x, xs) :: (picks xs).map (fun p => (p.1, x :: p.2))

/-- The products of the left column of TABLE 1-9 among the emitting carriers `e`, of the orders now formed (R6). An
unordered pair a, b is met twice for a + b − d, which a least margin does not see. -/
def receivedProducts (r : PlanRules) (e : List Carrier) : List Product :=
  (picks e).flatMap fun (a, others) =>
    let ha := (r.cls a.cls).hw
    (others.map fun b => { order := .third, value := 2 * (a.code : Int) - b.code, pw := max ha (r.cls b.cls).hw })
    ++ (if r.fifth then
          others.map fun b => { order := .fifth, value := 3 * (a.code : Int) - 2 * b.code, pw := max ha (r.cls b.cls).hw }
        else [])
    ++ (if r.three then
          (picks others).flatMap fun (b, rest) =>
            rest.map fun d =>
              { order := .three, value := (a.code : Int) + b.code - d.code
                pw := max (max ha (r.cls b.cls).hw) (r.cls d.cls).hw }
        else [])

/-- The received check (R12), over the considered carriers `p` of the zone less the subject's own. -/
def receivedMargins (r : PlanRules) (c k : Nat) (p : List Carrier) : List Int :=
  let kc := r.cls k
  if kc.sensitive then
    ((receivedProducts r (p.filter fun a => (r.cls a.cls).emits)).filter Product.kept).map fun x =>
      distance c x.value - (kc.hw + x.pw + kc.guardFor x.order : Nat)
  else []

/-- The products of the middle column of TABLE 1-9 with c, of class half width `hc`, as one former; each with the considered
carriers that are not its formers. -/
def emittedProducts (r : PlanRules) (c hc : Nat) (p : List Carrier) : List (Product × List Carrier) :=
  (picks p).flatMap fun (a, others) =>
    let ka := r.cls a.cls
    if ka.emits then
      let w := max hc ka.hw
      [({ order := .third, value := 2 * (c : Int) - a.code, pw := w }, others),
       ({ order := .third, value := 2 * (a.code : Int) - c, pw := w }, others)]
      ++ (if r.fifth then
            [({ order := .fifth, value := 3 * (c : Int) - 2 * a.code, pw := w }, others),
             ({ order := .fifth, value := 3 * (a.code : Int) - 2 * c, pw := w }, others)]
          else [])
      ++ (if r.three then
            (picks others).flatMap fun (b, rest) =>
              let kb := r.cls b.cls
              if kb.emits then
                [({ order := .three, value := (c : Int) + a.code - b.code, pw := max w kb.hw }, rest),
                 ({ order := .three, value := (a.code : Int) + b.code - c, pw := max w kb.hw }, rest)]
              else []
          else [])
    else []

/-- The emitted check (R13). -/
def emittedMargins (r : PlanRules) (c k : Nat) (p : List Carrier) : List Int :=
  let kc := r.cls k
  if kc.emits then
    ((emittedProducts r c kc.hw p).filter fun x => x.1.kept).flatMap fun (x, others) =>
      (others.filter fun b => (r.cls b.cls).sensitive).map fun b =>
        let kb := r.cls b.cls
        distance x.value b.code - (kb.hw + x.pw + kb.guardFor x.order : Nat)
  else []

/-- The product checks leave out every entry owned by the subject (R10). -/
def lessSubject (subject : Option (Nat × Role)) (l : List Carrier) : List Carrier :=
  match subject with
  | none => l
  | some o => l.filter fun a => a.owner ≠ some o

/-- R14. -/
def productMargin (r : PlanRules) (c k zone : Nat) (subject : Option (Nat × Role)) (l : List Carrier) : Int :=
  let p := lessSubject subject (inZone zone l)
  leastMargin (receivedMargins r c k p ++ emittedMargins r c k p)

/-! ### Verdicts (R15, R18) -/

/-- A tuning range with step and offset. -/
structure Window where
  lo : Nat
  hi : Nat
  step : Nat
  off : Nat
  deriving DecidableEq, Repr

def RolePlan.window (p : RolePlan) : Window := { lo := p.lo, hi := p.hi, step := p.step, off := p.off }

/-- The first of OUTSIDE_WINDOW, OFF_GRID and EXCLUDED that applies; window and grid only when a window is given. -/
def eligibilityOf (r : PlanRules) (c k zone : Nat) (w : Option Window) (margin : Int) : Eligibility :=
  if w.any (fun w => c < w.lo || w.hi < c) then .outsideWindow
  else if w.any (fun w => !onGrid c w.step w.off) then .offGrid
  else if bandExcluded r c k zone then .excluded
  else if margin < 0 then .negativeMargin
  else .acceptable

/-- The check of one code over the carriers `l` (R10 to R15). -/
def verdictOf (r : PlanRules) (l : List Carrier) (c k zone : Nat) (subject : Option (Nat × Role)) (w : Option Window) :
    Verdict :=
  let sp := spacingMargin r c k zone l
  let pr := productMargin r c k zone subject l
  let m := min sp pr
  { eligibility := eligibilityOf r c k zone w m, margin := m, spacing := sp, product := pr }

def Verdict.passes (v : Verdict) : Bool := v.eligibility = .acceptable

/-! ### What the tables hold, as carriers -/

def CarrierEntry.carrier (e : CarrierEntry) : Carrier :=
  { code := e.code, cls := e.cls, zone := e.zone, owner := some (e.link, e.role) }

/-- A reserve entry considered as a carrier has no owner (R21). -/
def ReserveEntry.carrier (e : ReserveEntry) : Carrier :=
  { code := e.code, cls := e.cls, zone := e.zone, owner := none }

def tableCarriers (t : List (Option CarrierEntry)) : List Carrier := t.filterMap fun o => o.map CarrierEntry.carrier

def reserveCarriers (l : List ReserveEntry) : List Carrier := l.map ReserveEntry.carrier

/-- The entry check (R19): the entry of a slot against all others, its own link and role the subject, no window. -/
def entryCheck (r : PlanRules) (t : List (Option CarrierEntry)) (slot : Nat) (e : CarrierEntry) : Verdict :=
  verdictOf r (tableCarriers (put t slot none)) e.code e.cls e.zone (some (e.link, e.role)) none

/-- The reserve check (R20, R21): the entry of a position against the table and the other reserve entries. -/
def reserveCheck (r : PlanRules) (t : List (Option CarrierEntry)) (l : List ReserveEntry) (pos : Nat) (e : ReserveEntry) :
    Verdict :=
  verdictOf r (tableCarriers t ++ reserveCarriers (l.eraseIdx pos)) e.code e.cls e.zone none none

/-! ### Selection (R17) and the enumeration of candidates (R8) -/

/-- One candidate ranks before another: greater margin, then smaller distance to a preferred code, then lower code. -/
def ranksBefore (preferred : Option Nat) (a b : Nat × Int) : Bool :=
  if a.2 ≠ b.2 then a.2 > b.2
  else
    match preferred with
    | none => a.1 < b.1
    | some p =>
      let da := distance a.1 p
      let db := distance b.1 p
      if da ≠ db then da < db else a.1 < b.1

/-- The first code of the grid at or above lo. -/
def firstOnGrid (lo step off : Nat) : Nat := lo + (((off : Int) - lo) % step).toNat

end Sys2Proof.Machine
end

