-- ==== Sys2Proof/Machine/Flags.lean ====
section
/-! DEFINITION. The enumerations of TABLE 12-1, the bits of flag and mark fields (R170, R174), and the values that journal
entries carry (TABLE 12-10). -/

namespace Sys2Proof.Machine

def bit (b : Bool) (n : Nat) : Nat := if b then 2 ^ n else 0

/-! ### Enumerations (TABLE 12-1) -/

def LinkKind.toNat : LinkKind → Nat
  | .camera => 0
  | .mic => 1
  | .iem => 2
  | .beltpack => 3
  | .data => 4

def LinkState.toNat : LinkState → Nat
  | .vacant => 0
  | .parked => 1
  | .learning => 2
  | .planning => 3
  | .tuning => 4
  | .active => 5
  | .holding => 6
  | .retuning => 7
  | .killed => 8
  | .faulted => 9

def Health.toNat : Health → Nat
  | .good => 0
  | .degraded => 1
  | .stale => 2
  | .lost => 3

/-- 7 for an absent health. -/
def healthNat : Option Health → Nat
  | none => 7
  | some h => h.toNat

def SeqKind.toNat : SeqKind → Nat
  | .noSequence => 0
  | .enable => 1
  | .retune => 2
  | .failover => 3
  | .restore => 4

def Phase.toNat : Phase → Nat
  | .noPhase => 0
  | .inserting => 1
  | .tuneSent => 2
  | .guarding => 3
  | .settling => 4
  | .unmuting => 5

def holdNat : Option HoldReason → Nat
  | none => 0
  | some .order => 1
  | some .failover => 2

def FailoverBlock.toNat : FailoverBlock → Nat
  | .clear => 0
  | .noReserve => 1
  | .tableFull => 2
  | .timeout => 3

def CarrierState.toNat : CarrierState → Nat
  | .reserved => 1
  | .live => 2
  | .learned => 3
  | .silent => 4

def Eligibility.toNat : Eligibility → Nat
  | .acceptable => 0
  | .outsideWindow => 1
  | .offGrid => 2
  | .excluded => 3
  | .negativeMargin => 4

def AdoptResult.toNat : AdoptResult → Nat
  | .none => 0
  | .accepted => 1
  | .rejected => 2

def Reason.toNat : Reason → Nat
  | .none => 0
  | .badDefinition => 1
  | .badClass => 2
  | .badWindow => 3
  | .badStep => 4
  | .duplicateUnit => 5
  | .duplicateCamera => 6
  | .linkInUse => 7
  | .badReference => 8

def DestKind.toNat : DestKind → Nat
  | .unused => 0
  | .iem => 1
  | .beltpack => 2
  | .camera => 3
  | .wired => 4

def Lamp.toNat : Lamp → Nat
  | .off => 0
  | .red => 1
  | .green => 2
  | .yellow => 3

def Delivery.toNat : Delivery → Nat
  | .noLink => 0
  | .sent => 1
  | .confirmed => 2
  | .unconfirmed => 3
  | .suspended => 4

def RouteState.toNat : RouteState → Nat
  | .slotted => 1
  | .waiting => 2
  | .merged => 3
  | .excludedSelf => 4

/-- 0 for a deleted or absent route. -/
def routeNat : Option RouteState → Nat
  | none => 0
  | some r => r.toNat

def KillCause.toNat : KillCause → Nat
  | .none => 0
  | .line => 1
  | .order => 2

def PostOutcome.toNat : PostOutcome → Nat
  | .none => 0
  | .taken => 1
  | .outOfRange => 2
  | .queueFull => 3
  | .duplicate => 4
  | .notRunning => 5

def PartState.toNat : PartState → Nat
  | .initializing => 0
  | .halted => 1
  | .running => 2

def JKind.toNat : JKind → Nat
  | .link => 1
  | .carrier => 2
  | .tally => 3
  | .route => 4
  | .order => 5
  | .timebase => 6
  | .kill => 7
  | .table => 8
  | .holdExpired => 9

def Role.toNat : Role → Nat
  | .outbound => 0
  | .inbound => 1

/-! ### Flag sets -/

/-- A colour set (R170). -/
def Colours.toNat (c : Colours) : Nat := bit c.programme 0 + bit c.preview 1 + bit c.iso 2

def Colours.ofNat (n : Nat) : Colours := { programme := n.testBit 0, preview := n.testBit 1, iso := n.testBit 2 }

/-- A role set (R170). -/
def roleSet (o i : Bool) : Nat := bit o 0 + bit i 1

/-- Flags of a link state record, less the pending bit (TABLE 12-8). -/
def LinkRec.flags (l : LinkRec) : Nat := bit l.untracked 0 + bit l.unsilenceable 1 + bit l.retuneNeeded 2

/-- Marks of a carrier entry (TABLE 12-9). -/
def CarrierEntry.marks (e : CarrierEntry) : Nat := bit e.conflict 0 + bit e.excluded 1 + bit e.imSuspect 2

/-! ### Link health (TABLE 4-3) -/

/-- GOOD < DEGRADED < STALE < LOST. -/
def worse : Option Health → Option Health → Option Health
  | none, b => b
  | a, none => a
  | some a, some b => if a.toNat < b.toNat then some b else some a

/-- The worst of the role healths; absent outside ACTIVE and HOLDING. -/
def LinkRec.health (l : LinkRec) : Option Health :=
  if l.state = .active ∨ l.state = .holding then worse l.outRec.health l.inRec.health else none

/-! ### Journal values (TABLE 12-10) -/

def LinkRec.value (l : LinkRec) : Nat :=
  l.state.toNat + healthNat l.health * 2 ^ 4 + healthNat l.outRec.health * 2 ^ 7 + healthNat l.inRec.health * 2 ^ 10
    + l.flags * 2 ^ 13 + l.block.toNat * 2 ^ 16 + holdNat l.hold * 2 ^ 18

/-- The 48-bit value of a link's RESYNC entry, and its subject. -/
def LinkRec.resyncValue (l : LinkRec) : Nat :=
  l.state.toNat + healthNat l.outRec.health * 2 ^ 4 + healthNat l.inRec.health * 2 ^ 7 + l.flags * 2 ^ 10
    + l.outRec.present.getD 0 * 2 ^ 13 + l.inRec.present.getD 0 * 2 ^ 30

def LinkRec.resyncSubject (i : Nat) (l : LinkRec) : Nat :=
  i + bit l.outRec.present.isSome 16 + bit l.inRec.present.isSome 17

/-- Carrier state and marks; 0 for a free slot. -/
def carrierValue : Option CarrierEntry → Nat
  | none => 0
  | some e => e.state.toNat + e.marks * 2 ^ 3

/-- The subject of a change of the reserve list. -/
def reserveSubject (code : Nat) : Nat := code + 2 ^ 23

/-- What happened to the reserve list (TABLE 12-10). -/
inductive ReserveChange where
  | append
  | take
  | discard
  | spacing
  | clear
  | adoption
  | audit
  | giveBack
  deriving DecidableEq, Repr

def ReserveChange.toNat : ReserveChange → Nat
  | .append => 0
  | .take => 1
  | .discard => 2
  | .spacing => 3
  | .clear => 4
  | .adoption => 5
  | .audit => 6
  | .giveBack => 7

/-- A 16-bit signed field in two's complement (R170). -/
def signed16 (v : Int) : Nat := (v % 65536).toNat

/-- The old value of a discard: eligibility and margin. -/
def discardValue (v : Verdict) : Nat := v.eligibility.toNat + signed16 v.margin * 2 ^ 8

def CamRec.value (c : CamRec) : Nat := c.staged.toNat + c.applied.toNat * 2 ^ 3 + c.delivery.toNat * 2 ^ 6

def routeValue (key : Nat) (r : Option RouteState) : Nat := key + routeNat r * 2 ^ 8

def heardValue (h : Bool) : Nat := 2 ^ 23 + bit h 0

def killValue (asserted : Bool) (cause : KillCause) : Nat := bit asserted 0 + cause.toNat * 2 ^ 2

def tableValue (group : Nat) (st : AdoptStatus) : Nat := group + st.result.toNat * 2 + st.reason.toNat * 2 ^ 3

def clockValue (sec frame : Nat) : Nat := frame + sec * 2 ^ 6

end Sys2Proof.Machine
end

