-- ==== Sys2Proof/Machine/Operands.lean ====
section
/-! DEFINITION. Reading what the host wrote: fields of shared memory (R170), the order cells and their parameters (R172,
TABLE 12-5, TABLE 10-3, TABLE 3-3), and the two groups of host tables with the clamps of their adoption (R173, TABLE 12-6,
TABLE 12-7). -/

namespace Sys2Proof.Machine

/-! ### Fields (R170) -/

/-- An unsigned field of n bytes. -/
def fieldAt (m : List Host.Cell) (a n : Nat) : Nat := Memory.readLE m a n

def byteAt (m : List Host.Cell) (a : Nat) : Nat := (Memory.read m a).toNat

/-- Two's complement of `bits` bits. -/
def signedOf (bits v : Nat) : Int := if v < 2 ^ (bits - 1) then v else (v : Int) - (2 ^ bits : Nat)

def signedAt (m : List Host.Cell) (a n : Nat) : Int := signedOf (8 * n) (fieldAt m a n)

/-- Bring a value into lo..hi. -/
def clampNat (lo hi v : Nat) : Nat := if v < lo then lo else if hi < v then hi else v

def clampInt (lo hi v : Int) : Int := if v < lo then lo else if hi < v then hi else v

/-- The nearest of some allowed values in rising order, the larger at a tie (R113, R139, R160). -/
def nearest (allowed : List Nat) (v : Nat) : Nat :=
  (allowed.foldl (fun (best : Option Nat) a =>
    match best with
    | none => some a
    | some b => if distance a v ≤ distance b v then some a else some b) none).getD v

/-- An index field below n, none otherwise. -/
def indexBelow (n v : Nat) : Option Nat := if v < n then some v else none

/-! ### Order parameters (TABLE 10-3, TABLE 3-3, TABLE 12-5) -/

/-- What the parameter tests give: the byte offset of the first refused parameter, or the order; `clamped` says whether a
parameter was clamped on the way. -/
inductive Parsed where
  | badKind
  | refused (offset : Nat) (clamped : Bool)
  | taken (o : Order)
  deriving DecidableEq, Repr

/-- One parameter test: refuse with this offset unless `ok`. -/
def need (ok : Bool) (offset : Nat) (clamped : Bool) (k : Parsed) : Parsed := if ok then k else .refused offset clamped

def codeOk (code : Nat) : Bool := code ≤ Config.maxCode

/-- A code of the parameter area, given when its bit of the role set is set. -/
def codeIf (present : Bool) (code : Nat) : Option Nat := if present then some code else none

/-- ENABLE_LINK, RETUNE_LINK and PARK_LINK. Every force byte but 0 is force (DESIGN CHOICE, notes/assumptions/48: TABLE 12-5 gives the
byte no encoding). -/
def parseLink (m : List Host.Cell) (p : Nat) (tag : OrderTag) (kind : LinkOrderKind) : Parsed :=
  let link := byteAt m p
  need (link < Config.links) 0 false <|
  match kind with
  | .park =>
    .taken (.link { tag := tag, kind := .park, link := link, roleOut := false, roleIn := false, codeOut := none
                    codeIn := none, force := false })
  | .enable =>
    let given := byteAt m (p + 1)
    let co := fieldAt m (p + 4) 4
    let ci := fieldAt m (p + 8) 4
    need (!given.testBit 0 || codeOk co) 4 false <|
    need (!given.testBit 1 || codeOk ci) 8 false <|
    .taken (.link { tag := tag, kind := .enable, link := link, roleOut := false, roleIn := false
                    codeOut := codeIf (given.testBit 0) co, codeIn := codeIf (given.testBit 1) ci, force := false })
  | .retune =>
    let roles := byteAt m (p + 1)
    let given := byteAt m (p + 2)
    let co := fieldAt m (p + 4) 4
    let ci := fieldAt m (p + 8) 4
    need (!given.testBit 0 || codeOk co) 4 false <|
    need (!given.testBit 1 || codeOk ci) 8 false <|
    .taken (.link { tag := tag, kind := .retune, link := link, roleOut := roles.testBit 0, roleIn := roles.testBit 1
                    codeOut := codeIf (given.testBit 0) co, codeIn := codeIf (given.testBit 1) ci
                    force := byteAt m (p + 3) ≠ 0 })

/-- The parameters of PLAN_QUERY and FILL_RESERVE (TABLE 3-3); window low is compared with window high as clamped. -/
def parsePlan (m : List Host.Cell) (p : Nat) (tag : OrderTag) (fill : Bool) : Parsed :=
  let cls := byteAt m p
  let zone := byteAt m (p + 1)
  let step := byteAt m (p + 2)
  let off := byteAt m (p + 3)
  let lo := fieldAt m (p + 4) 4
  let hi0 := fieldAt m (p + 8) 4
  let hi := min hi0 Config.maxCode
  let pref := fieldAt m (p + 0x0C) 4
  let count := byteAt m (p + 0x10)
  let top := if fill then 32 else 8
  let c1 := decide (Config.maxCode < hi0)
  let clamped := c1 || decide (top < count)
  need (cls < 8) 0 false <|
  need (zone < 4) 1 false <|
  need (1 ≤ step && step ≤ 64) 2 false <|
  need (off < step) 3 false <|
  need (lo ≤ hi) 4 false <|
  need (fill || pref = 0xFFFFFFFF || codeOk pref) 0x0C c1 <|
  need (count ≠ 0) 0x10 c1 <|
  let params : PlanParams :=
    { cls := cls, zone := zone, lo := lo, hi := hi, step := step, off := off
      preferred := if fill || pref = 0xFFFFFFFF then none else some pref, count := min count top }
  let tag := { tag with clamped := clamped }
  .taken (.plan (if fill then .fill tag params else .query tag params))

def parseKey (m : List Host.Cell) (p : Nat) (tag : OrderTag) : Parsed :=
  let source := byteAt m p
  let dest := byteAt m (p + 1)
  let priority := byteAt m (p + 2)
  let mode := byteAt m (p + 3)
  let action := byteAt m (p + 4)
  let level := signedAt m (p + 6) 2
  let used := clampInt (-160) 24 level
  need (source < 24) 0 false <|
  need (dest < 40) 1 false <|
  need (priority < 8) 2 false <|
  need (mode < 2) 3 false <|
  need (action < 2) 4 false <|
  .taken (.key { tag with clamped := used ≠ level } source dest priority (mode = 1) (action = 0) used)

/-- The tests of step 3 of R155, by the kind byte of the header (TABLE 12-1). -/
def parseOrder (m : List Host.Cell) (cell : Nat) : Parsed :=
  let kind := byteAt m (cellBase cell + 1)
  let p := cellParams cell
  let tag : OrderTag := { cell := cell, kind := kind, clamped := false }
  match kind with
  | 1 => parseLink m p tag .enable
  | 2 => parseLink m p tag .park
  | 3 => parseLink m p tag .retune
  | 4 => parsePlan m p tag false
  | 5 => parsePlan m p tag true
  | 6 =>
    let f := byteAt m p
    need (f < 8 || f = 0xFF) 0 false (.taken (.clearReserve tag (indexBelow 8 f)))
  | 7 => .taken (.plan (.audit tag))
  | 8 => .taken (.setTally tag (BitVec.ofNat 16 (fieldAt m p 2)) (BitVec.ofNat 16 (fieldAt m (p + 2) 2)))
  | 9 => parseKey m p tag
  | 10 =>
    let f := byteAt m p
    need (f < 24 || f = 0xFF) 0 false (.taken (.clearKeys tag (indexBelow 24 f)))
  | 11 =>
    let o := byteAt m p
    need (o.testBit 0 || o.testBit 1) 0 false (.taken (.apply tag (o.testBit 0) (o.testBit 1)))
  | 12 =>
    let sec := fieldAt m p 4
    need (sec ≤ 86399) 0 false (.taken (.setClock tag sec (byteAt m (p + 4))))
  | 13 => .taken (.kill tag)
  | 14 => .taken (.releaseKill tag)
  | 15 =>
    let a := byteAt m p
    need (1 ≤ a && a ≤ 127) 0 false (.taken (.lineTest tag a))
  | _ => .badKind

def Order.tag : Order → OrderTag
  | .link o => o.tag
  | .plan (.query t _) => t
  | .plan (.fill t _) => t
  | .plan (.audit t) => t
  | .plan .internalAudit => { cell := 0, kind := 0, clamped := false }
  | .plan (.planning r) => { cell := r.cell, kind := 0, clamped := false }
  | .clearReserve t _ => t
  | .setTally t _ _ => t
  | .key t _ _ _ _ _ _ => t
  | .clearKeys t _ => t
  | .apply t _ _ => t
  | .setClock t _ _ => t
  | .kill t => t
  | .releaseKill t => t
  | .lineTest t _ => t

/-! ### Station tables (TABLE 12-6) -/

/-- A role of a link definition as the host wrote it; `cls` none for 0FFh. -/
structure RawRole where
  cls : Option Nat
  step : Nat
  off : Nat
  lo : Nat
  hi : Nat
  deriving DecidableEq, Repr

/-- A link definition as the host wrote it, with the clamps of R58. -/
structure RawDef where
  present : Bool
  kind : Nat
  unit : Nat
  chan : Nat
  camera : Nat
  zone : Nat
  auto : Bool
  attn : Bool
  delayS : Nat
  holdS : Nat
  outRole : RawRole
  inRole : RawRole
  deriving DecidableEq, Repr

def readRole (m : List Host.Cell) (a : Nat) : RawRole :=
  let k := byteAt m a
  { cls := if k = 0xFF then none else some k, step := byteAt m (a + 1), off := byteAt m (a + 2)
    lo := min (fieldAt m (a + 4) 4) Config.maxCode, hi := min (fieldAt m (a + 8) 4) Config.maxCode }

def defBase (i : Nat) : Nat := 0x2400 + 64 * i

def readDef (m : List Host.Cell) (i : Nat) : RawDef :=
  let a := defBase i
  let camera := byteAt m (a + 4)
  let flags := byteAt m (a + 6)
  { present := byteAt m a ≠ 0, kind := byteAt m (a + 1), unit := byteAt m (a + 2), chan := byteAt m (a + 3)
    camera := if 32 < camera then 0 else camera, zone := byteAt m (a + 5), auto := flags.testBit 0, attn := flags.testBit 1
    delayS := min (byteAt m (a + 8)) 60, holdS := min (fieldAt m (a + 0x0A) 2) 600
    outRole := readRole m (a + 0x10), inRole := readRole m (a + 0x20) }

def kindOf : Nat → Option LinkKind
  | 0 => some .camera
  | 1 => some .mic
  | 2 => some .iem
  | 3 => some .beltpack
  | 4 => some .data
  | _ => none

/-- TABLE 4-2: the roles a kind requires and allows, OUTBOUND then INBOUND. -/
def LinkKind.required : LinkKind → Bool × Bool
  | .camera => (true, true)
  | .beltpack => (true, true)
  | .iem => (true, false)
  | .mic => (false, true)
  | .data => (true, false)

def LinkKind.allowed : LinkKind → Bool × Bool
  | .camera => (true, true)
  | .beltpack => (true, true)
  | .iem => (true, false)
  | .mic => (false, true)
  | .data => (true, true)

/-- A role is declared when the kind allows it and its class is not none (R59). -/
def RawRole.declared (allowed : Bool) (r : RawRole) : Option RoleDef :=
  if allowed then r.cls.map fun k => { cls := k, lo := r.lo, hi := r.hi, step := r.step, off := r.off } else none

/-- The definition that takes force; none for an absent one (or one whose kind is not a kind, which is rejected before). -/
def RawDef.toDef (d : RawDef) : Option LinkDef :=
  match d.present, kindOf d.kind with
  | true, some k =>
    some { kind := k, unit := d.unit, chan := d.chan, camera := d.camera, zone := d.zone
           outRole := d.outRole.declared k.allowed.1, inRole := d.inRole.declared k.allowed.2
           auto := d.auto, attn := d.attn, delayS := d.delayS, holdS := d.holdS }
  | _, _ => none

/-- R2: each numeric field clamped to its range, a half width of 0 kept. -/
def readClass (m : List Host.Cell) (k : Nat) : ClassDef :=
  let a := 0x3C00 + 32 * k
  let flags := byteAt m (a + 7)
  { hw := min (fieldAt m a 2) 400, eg := min (fieldAt m (a + 2) 2) 400, g3 := min (byteAt m (a + 4)) 100
    g5 := min (byteAt m (a + 5)) 100, gx := min (byteAt m (a + 6)) 100, emits := flags.testBit 0
    sensitive := flags.testBit 1, floor := clampInt (-120) 0 (signedAt m (a + 8) 1), ceiling := min (byteAt m (a + 9)) 100
    guardMs := byteAt m (a + 0x0A), settleMs := clampNat 20 1000 (fieldAt m (a + 0x0C) 2) }

/-- R4. -/
def readExcl (m : List Host.Cell) (r : Nat) : ExclRange :=
  let a := 0x3D00 + 8 * r
  { low := min (fieldAt m a 3) Config.maxCode, high := min (fieldAt m (a + 4) 4) Config.maxCode
    zones := BitVec.ofNat 4 (byteAt m (a + 3)) }

def settingsBase : Nat := 0x3E80

/-- The plan rules of a station copy (R2, R4, R6). -/
def readRules (m : List Host.Cell) : PlanRules :=
  let sw := byteAt m (settingsBase + 5)
  { classes := (List.range 8).map (readClass m), exclusions := (List.range 48).map (readExcl m)
    fifth := sw.testBit 0, three := sw.testBit 1 }

/-- The supervision settings with the clamps of R159. -/
def readSettings (m : List Host.Cell) : Settings :=
  let a := settingsBase
  { periodMs := clampNat 100 5000 (fieldAt m a 2), staleFactor := clampNat 2 8 (byteAt m (a + 2))
    missLimit := clampNat 1 8 (byteAt m (a + 3)), persistence := clampNat 1 8 (byteAt m (a + 4))
    pattern := (List.range 8).map fun i => BitVec.ofNat 32 (fieldAt m (a + 8 + 4 * i) 4) }

/-- R143. -/
def readKillWidth (m : List Host.Cell) : Nat := clampNat 1 64 (byteAt m (settingsBase + 6))

/-! ### Validation of the station tables (TABLE 10-4) -/

def badRoleClass (rules : PlanRules) (required : Bool) (role : Option RoleDef) : Bool :=
  match role with
  | none => required
  | some r => 7 < r.cls || (rules.cls r.cls).hw = 0

def badRoleWindow (role : Option RoleDef) : Bool := role.any fun r => r.hi < r.lo

def badRoleStep (role : Option RoleDef) : Bool := role.any fun r => r.step < 1 || 64 < r.step || r.step ≤ r.off

/-- Fields that the station tables may not change for a link in use (LINK_IN_USE). A link that the copy newly defines has none, so its
ENABLE_LINK is not barred meanwhile (DESIGN CHOICE, notes/assumptions/10: R159 does not say). -/
def protectedChange (old new : Option LinkDef) : Bool :=
  match old, new with
  | none, _ => false
  | some _, none => true
  | some a, some b =>
    a.kind ≠ b.kind || a.unit ≠ b.unit || a.chan ≠ b.chan || a.zone ≠ b.zone
      || a.outRole.map (·.cls) ≠ b.outRole.map (·.cls) || a.inRole.map (·.cls) ≠ b.inRole.map (·.cls)

/-- The tests of one link index, in the order of TABLE 10-4. `lower` holds the definitions of lower indexes, `state` is the
link's state as it stands. -/
def stationTest (rules : PlanRules) (d : RawDef) (lower : List (Option LinkDef)) (working : Option LinkDef)
    (state : LinkState) : Option Reason :=
  if d.present && ((kindOf d.kind).isNone || d.unit < 1 || 126 < d.unit || 3 < d.chan || 3 < d.zone) then
    some .badDefinition
  else
    match d.toDef with
    | none =>
      if protectedChange working none && state ≠ .parked && state ≠ .vacant then some .linkInUse else none
    | some x =>
      if badRoleClass rules x.kind.required.1 x.outRole || badRoleClass rules x.kind.required.2 x.inRole then some .badClass
      else if badRoleWindow x.outRole || badRoleWindow x.inRole then some .badWindow
      else if badRoleStep x.outRole || badRoleStep x.inRole then some .badStep
      else if lower.any (fun o => o.any fun y => y.unit = x.unit ∧ y.chan = x.chan) then some .duplicateUnit
      else if x.kind = .camera && x.camera ≠ 0
          && lower.any (fun o => o.any fun y => y.kind = .camera ∧ y.camera = x.camera) then some .duplicateCamera
      else if protectedChange working (some x) && state ≠ .parked && state ≠ .vacant then some .linkInUse
      else none

/-- The first failure in ascending link order: its reason and the link (R159). -/
def stationFailure (m : List Host.Cell) (working : List (Option LinkDef)) (states : List LinkState) :
    Option (Reason × Nat) :=
  let rules := readRules m
  let defs := (List.range Config.links).map fun i => (readDef m i).toDef
  (List.range Config.links).findSome? fun i =>
    (stationTest rules (readDef m i) (defs.take i) (working.getD i none) (states.getD i .vacant)).map fun r => (r, i)

/-- An accepted station copy, clamped (R159). -/
def readStation (m : List Host.Cell) : StationCopy :=
  { rules := readRules m, defs := (List.range Config.links).map fun i => (readDef m i).toDef, settings := readSettings m
    killWidth := readKillWidth m }

/-! ### Cue tables (TABLE 12-7) -/

def colourOf : Nat → Option Colour
  | 0 => some .programme
  | 1 => some .preview
  | 2 => some .iso
  | _ => none

/-- R103, R160: an entry whose base is above 63 is adopted disabled. -/
def readMapEntry (m : List Host.Cell) (e : Nat) : MapEntry :=
  let a := 0x4000 + 8 * e
  let base := byteAt m a
  let flags := byteAt m (a + 4)
  { base := base, mask := byteAt m (a + 1) % 64, camera := byteAt m (a + 2), colour := colourOf (byteAt m (a + 3))
    spread := flags.testBit 0, enable := flags.testBit 1 && base ≤ 63 }

/-- Trims, levels and depths in half-dB (R115). -/
def clampTrim (v : Int) : Int := clampInt (-40) 40 v

def readSource (m : List Host.Cell) (s : Nat) : Source :=
  let a := 0x4200 + 16 * s
  { kind := match byteAt m a with
      | 1 => .panel
      | 2 => .beltpack
      | _ => .unused
    link := indexBelow Config.links (byteAt m (a + 1)), trim := clampTrim (signedAt m (a + 2) 2) }

def destKindOf : Nat → DestKind
  | 1 => .iem
  | 2 => .beltpack
  | 3 => .camera
  | 4 => .wired
  | _ => .unused

def readDest (m : List Host.Cell) (d : Nat) : Dest :=
  let a := 0x4380 + 16 * d
  { kind := destKindOf (byteAt m a), link := indexBelow Config.links (byteAt m (a + 1)), bus := indexBelow 4 (byteAt m (a + 2))
    level := clampInt (-160) 24 (signedAt m (a + 4) 2), dim := clampInt 0 80 (signedAt m (a + 6) 2)
    trim := clampTrim (signedAt m (a + 8) 2) }

def readGroup (m : List Host.Cell) (g : Nat) : Group :=
  let a := 0x4580 + 8 * g
  { kind := match byteAt m a with
      | 1 => .fixed
      | 2 => .programmeCameras
      | 3 => .previewCameras
      | 4 => .isoCameras
      | _ => .unused
    members := BitVec.ofNat 32 (fieldAt m (a + 4) 4) }

/-- R117, R160: a binding with a field out of range is adopted disabled. -/
def readBinding (m : List Host.Cell) (b : Nat) : Binding :=
  let a := 0x4600 + 8 * b
  let source := byteAt m (a + 1)
  let dest := byteAt m (a + 2)
  let priority := byteAt m (a + 3)
  let mode := byteAt m (a + 4)
  { enable := (byteAt m a).testBit 0 && source < 24 && dest < 40 && priority < 8 && mode < 2
    source := source, dest := dest, priority := priority, latch := mode = 1, level := clampTrim (signedAt m (a + 6) 2) }

def readPlan (m : List Host.Cell) : TalkPlan :=
  { sources := (List.range 24).map (readSource m), dests := (List.range Config.destinations).map (readDest m)
    groups := (List.range 8).map (readGroup m), bindings := (List.range 192).map (readBinding m) }

/-- A destination of a wireless kind needs a working definition of its kind. -/
def DestKind.linkKind : DestKind → Option LinkKind
  | .iem => some .iem
  | .beltpack => some .beltpack
  | .camera => some .camera
  | _ => none

/-- The effective link of a destination (R115). -/
def effectiveLink (defs : List (Option LinkDef)) (d : Dest) : Option Nat :=
  match d.kind.linkKind, d.link with
  | some k, some l => if (defs.getD l none).any (fun x => x.kind = k) then some l else none
  | _, _ => none

/-- R160: the first destination that names no present definition of its kind. -/
def cueFailure (m : List Host.Cell) (defs : List (Option LinkDef)) : Option Nat :=
  (List.range Config.destinations).find? fun d =>
    let x := readDest m d
    x.kind.linkKind.isSome && (effectiveLink defs x).isNone

/-- The cue settings (TABLE 12-7), with the clamps of R160. -/
structure CueSettings where
  widths : List Nat
  takeWidth : Nat
  lampSet : Triggers
  xpSet : Triggers
  rate : Nat
  threshold : Nat
  delay : Nat
  deriving DecidableEq, Repr

def filterWidths : List Nat := [1, 2, 4, 8, 16, 32]

def frameRates : List Nat := [24, 25, 30, 50, 60]

/-- A set adopted empty becomes ORDER alone (R140). -/
def triggersOf (v : Nat) : Triggers :=
  if v % 16 = 0 then { frame := false, change := false, order := true, take := false }
  else { frame := v.testBit 0, change := v.testBit 1, order := v.testBit 2, take := v.testBit 3 }

def readCueSettings (m : List Host.Cell) : CueSettings :=
  let a := 0x4C00
  { widths := [nearest filterWidths (byteAt m a), nearest filterWidths (byteAt m (a + 1)),
      nearest filterWidths (byteAt m (a + 2))]
    takeWidth := nearest filterWidths (byteAt m (a + 3)), lampSet := triggersOf (byteAt m (a + 4))
    xpSet := triggersOf (byteAt m (a + 5)), rate := nearest frameRates (byteAt m (a + 6))
    threshold := clampNat 1 16 (byteAt m (a + 7)), delay := clampNat 1 250 (byteAt m (a + 8)) }

end Sys2Proof.Machine
end

