-- ==== Sys2Proof/Machine/Frames.lean ====
section
/-! DEFINITION. The frames of the unit link (12.7): the check, the bytes the part sends for each request, and the test of a
reply (R80, R176). -/

namespace Sys2Proof.Machine

/-! ### The check (R176): generator x^16 + x^12 + x^5 + 1, preset to FFFFh, most significant bit first -/

def crcBit (c : BitVec 16) (b : Bool) : BitVec 16 :=
  if c.msb ^^ b then (c <<< 1) ^^^ 0x1021#16 else c <<< 1

def crcByte (c : BitVec 16) (b : Byte) : BitVec 16 :=
  [7, 6, 5, 4, 3, 2, 1, 0].foldl (fun c i => crcBit c (b.getLsbD i)) c

def crc16 (bytes : List Byte) : BitVec 16 := bytes.foldl crcByte 0xFFFF#16

/-- n bytes, high byte first. -/
def beBytes (v n : Nat) : List Byte := (leBytes v n).reverse

def beNat (l : List Byte) : Nat := l.foldl (fun a b => 256 * a + b.toNat) 0

def frameOf (address kind : Nat) (payload : List Byte) : List Byte :=
  let body := [BitVec.ofNat 8 address, BitVec.ofNat 8 kind, BitVec.ofNat 8 payload.length] ++ payload
  body ++ beBytes (crc16 body).toNat 2

/-- A byte on the line: a start bit, eight data bits with the least significant bit first, and a stop bit (R176). The data book
gives the start and stop bits no levels; 0 and 1 are those of every start-stop line (PRESUMED, notes/assumptions/36). -/
def byteBits (b : Byte) : List Bool := [false] ++ (List.range 8).map (fun i => b.getLsbD i) ++ [true]

/-- A frame on the line, its bytes in order. -/
def lineBits (frame : List Byte) : List Bool := frame.flatMap byteBits

/-! ### What the part sends (TABLE 5-1, TABLE 12-11) -/

def patternBytes (p : List Word) : List Byte := p.flatMap fun w => beBytes w.toNat 4

def ControlReq.frame (r : ControlReq) : List Byte :=
  let roles := roleSet r.roleOut r.roleIn
  match r.kind with
  | .tune =>
    frameOf r.unit 0x02 ([BitVec.ofNat 8 r.chan, BitVec.ofNat 8 roles]
      ++ beBytes (if r.roleOut then r.codeOut else 0) 3 ++ beBytes (if r.roleIn then r.codeIn else 0) 3)
  | .mute => frameOf r.unit 0x03 [BitVec.ofNat 8 r.chan, BitVec.ofNat 8 roles]
  | .unmute => frameOf r.unit 0x04 [BitVec.ofNat 8 r.chan, BitVec.ofNat 8 roles]
  | .settlePoll => frameOf r.unit 0x01 []

/-- The bytes on the line for a request. -/
def UlReq.frame : UlReq → List Byte
  | .killReq .silence => frameOf 127 0x06 []
  | .killReq (.mute _ _ _ unit chan o i) => frameOf unit 0x03 [BitVec.ofNat 8 chan, BitVec.ofNat 8 (roleSet o i)]
  | .cueReq r => frameOf r.unit 0x05 [BitVec.ofNat 8 r.chan, BitVec.ofNat 8 (r.colours.toNat + bit r.call 3)]
  | .controlReq r => r.frame
  | .attentionPoll unit => frameOf unit 0x01 []
  | .sweepReq (.poll unit) => frameOf unit 0x01 []
  | .sweepReq (.loop unit p) => frameOf unit 0x07 (patternBytes p)

def UlReq.address : UlReq → Nat
  | .killReq .silence => 127
  | .killReq (.mute _ _ _ unit _ _ _) => unit
  | .cueReq r => r.unit
  | .controlReq r => r.unit
  | .attentionPoll unit => unit
  | .sweepReq (.poll unit) => unit
  | .sweepReq (.loop unit _) => unit

/-! ### Replies (R80, R176) -/

inductive ReplyKind where
  | ack
  | report
  | echo
  deriving DecidableEq, Repr

/-- The reply TABLE 5-1 gives for a frame; SILENCE has none. -/
def UlReq.reply : UlReq → Option ReplyKind
  | .killReq .silence => none
  | .killReq (.mute _ _ _ _ _ _ _) => some .ack
  | .cueReq _ => some .ack
  | .controlReq r => if r.kind = .settlePoll then some .report else some .ack
  | .attentionPoll _ => some .report
  | .sweepReq (.poll _) => some .report
  | .sweepReq (.loop _ _) => some .echo

inductive Reply where
  | ack
  | report (r : Report)
  | echo (words : List Word)
  deriving DecidableEq, Repr

/-- A role block of six bytes. -/
def parseRoleBlock (b : List Byte) : RoleReport :=
  let st := (b.getD 2 0).toNat
  { level := signedOf 8 (b.getD 0 0).toNat, quality := (b.getD 1 0).toNat, on := st.testBit 0, settled := st.testBit 1
    code := beNat ((b.drop 3).take 3) }

/-- A channel entry of sixteen bytes. -/
def parseChannel (b : List Byte) : ChanReport :=
  let keys := (b.getD 1 0).toNat
  { echo := Colours.ofNat (b.getD 0 0).toNat, key0 := keys.testBit 0, key1 := keys.testBit 1, cause := (b.getD 2 0).toNat
    outRep := parseRoleBlock ((b.drop 4).take 6), inRep := parseRoleBlock ((b.drop 10).take 6) }

def parseChannels : Nat → List Byte → List ChanReport
  | 0, _ => []
  | n + 1, b => parseChannel (b.take 16) :: parseChannels n (b.drop 16)

/-- Every level, quality and tuned code lies in the range of TABLE 5-3. -/
def RoleReport.inRange (r : RoleReport) : Bool :=
  -120 ≤ r.level && r.level ≤ 0 && r.quality ≤ 100 && r.code ≤ Config.maxCode

def ChanReport.inRange (c : ChanReport) : Bool := c.outRep.inRange && c.inRep.inRange

def parseReport (unit : Nat) (payload : List Byte) : Option Reply :=
  let c := (payload.headD 0).toNat
  if 1 ≤ c && c ≤ 4 && payload.length = 1 + 16 * c then
    let chans := parseChannels c (payload.drop 1)
    if chans.all ChanReport.inRange then some (.report { unit := unit, channels := chans }) else none
  else none

def parseWords : Nat → List Byte → List Word
  | 0, _ => []
  | n + 1, b => BitVec.ofNat 32 (beNat (b.take 4)) :: parseWords n (b.drop 4)

/-- The reply's payload, by the kind expected. -/
def parsePayload (unit : Nat) (k : ReplyKind) (kind : Nat) (payload : List Byte) : Option Reply :=
  match k with
  | .ack => if kind = 0x82 && payload.length = 0 then some .ack else none
  | .report => if kind = 0x81 then parseReport unit payload else none
  | .echo => if kind = 0x87 && payload.length = 32 then some (.echo (parseWords 8 payload)) else none

/-- A good reply to a request, or none for a bad one. -/
def goodReply (req : UlReq) (bytes : List Byte) : Option Reply :=
  match bytes with
  | a :: k :: l :: rest =>
    let payload := rest.take l.toNat
    let body := a :: k :: l :: payload
    if rest.length = l.toNat + 2 && rest.drop l.toNat = beBytes (crc16 body).toNat 2 && a.toNat = req.address then
      match req.reply with
      | none => none
      | some expected => parsePayload req.address expected k.toNat payload
    else none
  | _ => none

end Sys2Proof.Machine
end

