-- ==== Sys2Proof/Machine/Carrier.lean ====
section
/-! DEFINITION. Chapter 2: the carrier table controller. It takes the request at the head of its queue, makes all its changes
in one step and answers the requester (R26). -/

namespace Sys2Proof.Machine

/-! ### Changes of the table and the list, with their CARRIER reports (R40) -/

def slotOf (t : List (Option CarrierEntry)) (slot : Nat) : Option CarrierEntry := t.getD slot none

def carrierReport (slot : Nat) (old new : Option CarrierEntry) (s : State) : JReport :=
  let owner := match new with
    | some e => e.link
    | none => (old.map CarrierEntry.link).getD 0
  { kind := .carrier, stamp := s.now, subject := slot, values := values (carrierValue old) (carrierValue new)
    dropped := false, clamped := false, flagOf := .linkRec owner, notice := .none }

/-- A slot's contents after each of the single changes of R40 that bring it from `old` to new contents: the removal, or the
insertion or the change of state with the marks as they were (clear in a free slot), then CONFLICT, EXCLUDED and IM_SUSPECT (that
CONFLICT comes before EXCLUDED is a DESIGN CHOICE, notes/assumptions/34). -/
def slotChanges (old : Option CarrierEntry) : Option CarrierEntry → List (Option CarrierEntry)
  | none => [none]
  | some e =>
    let had (mark : CarrierEntry → Bool) : Bool := old.any mark
    let moved := { e with conflict := had (·.conflict), excluded := had (·.excluded), imSuspect := had (·.imSuspect) }
    [some moved, some { moved with conflict := e.conflict },
      some { moved with conflict := e.conflict, excluded := e.excluded }, some e]

/-- One CARRIER report for each step of a slot's contents that changes its state or a mark (R40). -/
def slotReports (slot : Nat) (s : State) : Option CarrierEntry → List (Option CarrierEntry) → List JReport
  | _, [] => []
  | old, new :: rest =>
    let more := slotReports slot s new rest
    if carrierValue old = carrierValue new then more else carrierReport slot old new s :: more

/-- Give a slot new contents; the insertion, the removal, the change of state and each set or clear of a mark are reported, one
CARRIER report each. -/
def setSlot (slot : Nat) (e : Option CarrierEntry) (s : State) : State :=
  let old := slotOf s.ctl.table slot
  { s with
    ctl.table := put s.ctl.table slot e
    mail.reports := s.mail.reports ++ (slotReports slot s old (slotChanges old e)).map fun r => (.controller, r) }

def reserveReport (code : Nat) (ch : ReserveChange) (old : Nat) (s : State) : JReport :=
  { kind := .carrier, stamp := s.now, subject := reserveSubject code, values := values old ch.toNat
    dropped := false, clamped := false, flagOf := .nowhere, notice := .none }

/-- Replace the reserve list and report one change of it. -/
def setReserve (l : List ReserveEntry) (code : Nat) (ch : ReserveChange) (old : Nat) (s : State) : State :=
  report .controller (reserveReport code ch old s) { s with ctl.reserve := l }

/-- Remove the reserve entries that meet p, each reported with its cause, in the order of the list (DESIGN CHOICE,
notes/assumptions/45). -/
def dropReserve (p : ReserveEntry → Bool) (ch : ReserveChange) (s : State) : State :=
  let gone := s.ctl.reserve.filter p
  gone.foldl (fun s e => report .controller (reserveReport e.code ch 0 s) s)
    { s with ctl.reserve := s.ctl.reserve.filter (fun e => !p e) }

/-- The generation counters wrap at 65,536 (R25). -/
def bumpGen (g : Nat) : Nat := (g + 1) % 65536

def lowestFree (t : List (Option CarrierEntry)) : Option Nat := t.findIdx? Option.isNone

def freeSlots (t : List (Option CarrierEntry)) : Nat := t.countP Option.isNone

def roleEntries (t : List (Option CarrierEntry)) (link : Nat) (role : Role) : Nat :=
  t.countP fun o => o.any fun e => e.link = link ∧ e.role = role

/-- R28: a new entry removes the reserve entries of its code, and those of its zone that it leaves no spacing. -/
def spacingRemoval (e : CarrierEntry) (s : State) : State :=
  dropReserve (fun x => x.code = e.code || (x.zone = e.zone && spacingTo s.ctl.rules x.code x.cls e.carrier < 0)) .spacing s

/-- Put a new entry into the lowest free slot and count the generation. -/
def insertEntry (e : CarrierEntry) (s : State) : State :=
  match lowestFree s.ctl.table with
  | none => s
  | some slot =>
    let s := setSlot slot (some e) s
    { s with ctl.carrierGen := bumpGen s.ctl.carrierGen }

def newEntry (link : Nat) (p : RolePlan) (code : Nat) (st : CarrierState) (s : State) : CarrierEntry :=
  { link := link, role := p.role, code := code, cls := p.cls, zone := p.zone, state := st, conflict := false
    excluded := false, imSuspect := false, since := s.now }

/-- Roles are taken OUTBOUND first (R27, R30, R36). -/
def outboundFirst {α : Type} (role : α → Role) (l : List α) : List α :=
  l.filter (fun a => role a = .outbound) ++ l.filter (fun a => role a = .inbound)

/-- Insert passed roles as RESERVED entries in one step, then R28 for each; the answers gain their slots. -/
def insertPassed (link : Nat) : List (RolePlan × RoleAnswer) → State → List RoleAnswer × State
  | [], s => ([], s)
  | (p, a) :: rest, s =>
    let slot := lowestFree s.ctl.table
    let s := insertEntry (newEntry link p a.code .reserved s) s
    let (as, s) := insertPassed link rest s
    ({ a with slot := slot } :: as, s)

def removeSpaced (link : Nat) (l : List (RolePlan × RoleAnswer)) (s : State) : State :=
  l.foldl (fun s (p, a) => spacingRemoval (newEntry link p a.code .reserved s) s) s

/-! ### INSERT (R27) -/

/-- Steps 3 and 4: check the roles in order, each later one against the table plus the tentative entries before it. The
first that fails ends the checks. -/
def checkRoles (r : PlanRules) (t : List Carrier) (link : Nat) : List (RolePlan × Nat) → Bool × List (RolePlan × RoleAnswer)
  | [] => (true, [])
  | (p, code) :: rest =>
    let v := verdictOf r t code p.cls p.zone (some (link, p.role)) (some p.window)
    let a : RoleAnswer :=
      { role := p.role, result := if v.passes then .ok else .contended, code := code, slot := none, verdict := some v }
    if v.passes then
      let c : Carrier := { code := code, cls := p.cls, zone := p.zone, owner := some (link, p.role) }
      let (ok, as) := checkRoles r (t ++ [c]) link rest
      (ok, (p, a) :: as)
    else (false, [(p, a)])

/-- An INSERT or TAKE names a role that already has two entries, so that one more would make three (R27 step 1). -/
def roleLimit (t : List (Option CarrierEntry)) (link : Nat) (roles : List Role) : Bool :=
  roles.any fun r => 2 < roleEntries t link r + roles.count r

def insertRequest (link seq : Nat) (roles : List (RolePlan × Nat)) (s : State) : InsertAnswer × State :=
  let roles := outboundFirst (fun p => p.1.role) roles
  if roleLimit s.ctl.table link (roles.map (·.1.role)) then
    ({ link := link, seq := seq, result := .wrongState, roles := [] }, s)
  else if freeSlots s.ctl.table < roles.length then
    ({ link := link, seq := seq, result := .tableFull, roles := [] }, s)
  else
    match checkRoles s.ctl.rules (tableCarriers s.ctl.table) link roles with
    | (false, as) =>
      ({ link := link, seq := seq, result := .contended, roles := (as.map (·.2)).filter (fun a => a.result ≠ .ok) }, s)
    | (true, as) =>
      let (answers, s) := insertPassed link as s
      ({ link := link, seq := seq, result := .ok, roles := answers }, removeSpaced link as s)

/-- The answer goes to the requester that sent the request (R26). -/
def answerInsert (byEngine : Bool) (a : InsertAnswer) (s : State) : State :=
  if byEngine then { s with mail.engineAnswers := s.mail.engineAnswers ++ [.inserted a] }
  else { s with mail.insertAnswers := s.mail.insertAnswers ++ [a] }

/-- INSERT. -/
def insertStep (s : State) : State :=
  match s.ctl.queue with
  | .insert byEngine link seq roles :: rest =>
    let (a, s) := insertRequest link seq roles { s with ctl.queue := rest }
    answerInsert byEngine a s
  | _ => s

/-! ### TAKE (R36) -/

/-- A spare that passed for a role, with the codes of the entries that stood behind it when it was taken. -/
structure HeldSpare where
  entry : ReserveEntry
  behind : List Nat
  deriving DecidableEq, Repr

def spareMatches (p : RolePlan) (e : ReserveEntry) : Bool :=
  e.cls = p.cls && e.zone = p.zone && p.lo ≤ e.code && e.code ≤ p.hi && onGrid e.code p.step p.off

/-- Steps 2 to 5 for one role: from position `pos` on, `fuel` entries at most; discards are made and reported on the way. The check
has the link and role as its subject, as R18 and R36 state (DEDUCED, notes/assumptions/46: R10 and R20 give a reserve check none). -/
def walkReserve (link : Nat) (p : RolePlan) (tentative : List Carrier) :
    Nat → Nat → State → Option (HeldSpare × Verdict) × State
  | 0, _, s => (none, s)
  | fuel + 1, pos, s =>
    match s.ctl.reserve[pos]? with
    | none => (none, s)
    | some e =>
      if spareMatches p e then
        let left := s.ctl.reserve.eraseIdx pos
        let v := verdictOf s.ctl.rules (tableCarriers s.ctl.table ++ tentative ++ reserveCarriers left) e.code p.cls p.zone
          (some (link, p.role)) (some p.window)
        if v.passes then
          (some ({ entry := e, behind := (left.drop pos).map (·.code) }, v), setReserve left e.code .take 0 s)
        else walkReserve link p tentative fuel pos (setReserve left e.code .discard (discardValue v) s)
      else walkReserve link p tentative fuel (pos + 1) s

/-- A held spare goes back immediately before the first remaining entry that stood behind it, or at the tail. -/
def giveBack (h : HeldSpare) (s : State) : State :=
  let l := s.ctl.reserve
  let i := (l.findIdx? fun x => h.behind.contains x.code).getD l.length
  setReserve (l.insertIdx i h.entry) h.entry.code .giveBack 0 s

/-- What the walks of a TAKE found: a spare for every role, or, for a role without one, the spares that they hold for earlier
roles, the last taken first. -/
inductive Spares where
  | passed (roles : List (RolePlan × RoleAnswer))
  | lacking (heldSpares : List HeldSpare)
  deriving DecidableEq, Repr

/-- The walks of the roles in order. -/
def takeSpares (link : Nat) (tentative : List Carrier) (heldSpares : List HeldSpare) :
    List RolePlan → State → Spares × State
  | [], s => (.passed [], s)
  | p :: rest, s =>
    match walkReserve link p tentative (s.ctl.reserve.length + 1) 0 s with
    | (none, s) => (.lacking heldSpares, s)
    | (some (h, v), s) =>
      let c : Carrier := { code := h.entry.code, cls := p.cls, zone := p.zone, owner := some (link, p.role) }
      let a : RoleAnswer := { role := p.role, result := .ok, code := h.entry.code, slot := none, verdict := some v }
      match takeSpares link (tentative ++ [c]) (h :: heldSpares) rest s with
      | (.lacking l, s) => (.lacking l, s)
      | (.passed as, s) => (.passed ((p, a) :: as), s)

/-- Step 1 of a TAKE: the refusal that it answers, if any. -/
def takeRefusal (link : Nat) (roles : List RolePlan) (s : State) : Option ResultCode :=
  if roleLimit s.ctl.table link (roles.map (·.role)) then some .wrongState
  else if freeSlots s.ctl.table < roles.length then some .tableFull
  else none

/-- A TAKE: on a role without a passed spare, those held for earlier roles go back. -/
def takeRequest (link seq : Nat) (roles : List RolePlan) (s : State) : InsertAnswer × State :=
  let roles := outboundFirst RolePlan.role roles
  match takeRefusal link roles s with
  | some code => ({ link := link, seq := seq, result := code, roles := [] }, s)
  | none =>
    match takeSpares link [] [] roles s with
    | (.lacking l, s) =>
      ({ link := link, seq := seq, result := .noReserve, roles := [] }, l.foldl (fun s h => giveBack h s) s)
    | (.passed as, s) =>
      let (answers, s) := insertPassed link as s
      ({ link := link, seq := seq, result := .ok, roles := answers }, removeSpaced link as s)

/-- TAKE. -/
def takeStep (s : State) : State :=
  match s.ctl.queue with
  | .take link seq roles :: rest =>
    let (a, s) := takeRequest link seq roles { s with ctl.queue := rest }
    { s with mail.takeAnswers := s.mail.takeAnswers ++ [a] }
  | _ => s

/-- The state that a TAKE goes through before it gives spares back (R152): the spares held are out of the list. -/
def takePath (s : State) : List State :=
  match s.ctl.queue with
  | .take link _ roles :: _ =>
    let roles := outboundFirst RolePlan.role roles
    match takeRefusal link roles s with
    | some _ => []
    | none =>
      match takeSpares link [] [] roles s with
      | (.lacking (_ :: _), mid) => [mid]
      | _ => []
  | _ => []

/-! ### LEARN (R30) -/

/-- One role of a LEARN. -/
def learnRole (link zone : Nat) (role : Role) (code cls : Nat) (s : State) : RoleAnswer × State :=
  let answer (r : ResultCode) (slot : Option Nat) : RoleAnswer :=
    { role := role, result := r, code := code, slot := slot, verdict := none }
  if 0 < roleEntries s.ctl.table link role then (answer .wrongState none, s)
  else
    match lowestFree s.ctl.table with
    | none => (answer .tableFull none, s)
    | some slot =>
      let e : CarrierEntry :=
        { link := link, role := role, code := code, cls := cls, zone := zone, state := .learned, conflict := false
          excluded := false, imSuspect := false, since := s.now }
      let v := entryCheck s.ctl.rules s.ctl.table slot e
      let e := { e with conflict := v.spacing < 0, excluded := bandExcluded s.ctl.rules code cls zone }
      (answer .ok (some slot), spacingRemoval e (insertEntry e s))

def learnRoles (link zone : Nat) : List (Role × Nat × Nat) → State → List RoleAnswer × State
  | [], s => ([], s)
  | (role, code, cls) :: rest, s =>
    let (a, s) := learnRole link zone role code cls s
    let (as, s) := learnRoles link zone rest s
    (a :: as, s)

/-- LEARN. -/
def learnStep (s : State) : State :=
  match s.ctl.queue with
  | .learn link seq zone roles :: rest =>
    let (as, s) := learnRoles link zone (outboundFirst (·.1) roles) { s with ctl.queue := rest }
    { s with mail.learnAnswers := s.mail.learnAnswers ++ [{ link := link, seq := seq, result := .ok, roles := as }] }
  | _ => s

/-! ### UPDATE and PURGE (R31 to R33) -/

/-- The state changes of TABLE 2-2 that an UPDATE may make. -/
def allowedChange : CarrierState → CarrierState → Bool
  | .reserved, .live => true
  | .reserved, .silent => true
  | .live, .silent => true
  | .learned, .silent => true
  | .silent, .live => true
  | _, _ => false

def findEntry (t : List (Option CarrierEntry)) (link : Nat) (role : Role) (code : Nat) : Option Nat :=
  t.findIdx? fun o => o.any fun e => e.link = link ∧ e.role = role ∧ e.code = code

/-- Free a slot and count the generation. -/
def removeSlot (slot : Nat) (s : State) : State :=
  let s := setSlot slot none s
  { s with ctl.carrierGen := bumpGen s.ctl.carrierGen }

/-- One change of an UPDATE: its outcome, and the entry it removed. -/
def updateChange (link : Nat) (c : CarrierChange) (s : State) : ResultCode × Option CarrierEntry × State :=
  match findEntry s.ctl.table link c.role c.code with
  | none => (.wrongState, none, s)
  | some slot =>
    match slotOf s.ctl.table slot, c.change with
    | none, _ => (.wrongState, none, s)
    | some e, .remove => (.ok, some e, removeSlot slot s)
    | some e, .become target =>
      if allowedChange e.state target then (.ok, none, setSlot slot (some { e with state := target, since := s.now }) s)
      else (.wrongState, none, s)

def updateChanges (link : Nat) : List CarrierChange → State → List ResultCode × List CarrierEntry × State
  | [], s => ([], [], s)
  | c :: rest, s =>
    let (o, gone, s) := updateChange link c s
    let (os, gones, s) := updateChanges link rest s
    (o :: os, gone.toList ++ gones, s)

/-- R32 for one slot: CONFLICT is lifted when the entry conflicted with a removed entry and conflicts with none now. -/
def liftConflict (gone : List CarrierEntry) (s : State) (slot : Nat) : State :=
  match slotOf s.ctl.table slot with
  | none => s
  | some e =>
    if e.conflict && gone.any (fun g => g.zone = e.zone && spacingTo s.ctl.rules e.code e.cls g.carrier < 0)
        && 0 ≤ (entryCheck s.ctl.rules s.ctl.table slot e).spacing then
      setSlot slot (some { e with conflict := false }) s
    else s

/-- R32 for every slot, in ascending order (DESIGN CHOICE, notes/assumptions/45). -/
def reevaluate (gone : List CarrierEntry) (s : State) : State :=
  if gone = [] then s else (List.range s.ctl.table.length).foldl (liftConflict gone) s

/-- UPDATE. -/
def updateStep (s : State) : State :=
  match s.ctl.queue with
  | .update link seq live changes :: rest =>
    let (os, gone, s) := updateChanges link changes { s with ctl.queue := rest }
    let s := reevaluate gone s
    let a : UpdateAnswer := { link := link, seq := seq, outcomes := os }
    if live then { s with mail.liveAnswers := s.mail.liveAnswers ++ [a] }
    else { s with mail.updateAnswers := s.mail.updateAnswers ++ [a] }
  | _ => s

/-- Remove every entry of a link; the entries removed. -/
def purgeLink (link : Nat) : List Nat → State → List CarrierEntry × State
  | [], s => ([], s)
  | slot :: rest, s =>
    match slotOf s.ctl.table slot with
    | some e =>
      if e.link = link then
        let (gone, s) := purgeLink link rest (removeSlot slot s)
        (e :: gone, s)
      else purgeLink link rest s
    | none => purgeLink link rest s

/-- PURGE. The entries go in ascending slot order (DESIGN CHOICE, notes/assumptions/45: R33 gives none). -/
def purgeStep (s : State) : State :=
  match s.ctl.queue with
  | .purge link :: rest =>
    let (gone, s) := purgeLink link (List.range s.ctl.table.length) { s with ctl.queue := rest }
    let s := reevaluate gone s
    { s with mail.purgeAnswers := s.mail.purgeAnswers ++ [(link, gone.length)] }
  | _ => s

/-! ### APPEND and CLEAR_RESERVE (R35, R37) -/

/-- A code is that of a carrier-table entry or of a reserve entry, in any zone. -/
def codeUsed (c : Controller) (code : Nat) : Bool :=
  c.table.any (fun o => o.any fun e => e.code = code) || c.reserve.any (fun e => e.code = code)

/-- The answer's code, and the verdict of the check if one was made. -/
def appendRequest (code cls zone : Nat) (s : State) : ResultCode × Option Verdict × State :=
  if Config.reservePlaces ≤ s.ctl.reserve.length then (.tableFull, none, s)
  else if codeUsed s.ctl code then (.contended, none, s)
  else
    let v := verdictOf s.ctl.rules (tableCarriers s.ctl.table ++ reserveCarriers s.ctl.reserve) code cls zone none none
    if v.passes then
      let e : ReserveEntry := { code := code, cls := cls, zone := zone, fill := s.now }
      (.ok, some v, setReserve (s.ctl.reserve ++ [e]) code .append 0 s)
    else (.contended, some v, s)

/-- APPEND. -/
def appendStep (s : State) : State :=
  match s.ctl.queue with
  | .append code cls zone :: rest =>
    let (r, v, s) := appendRequest code cls zone { s with ctl.queue := rest }
    { s with mail.engineAnswers := s.mail.engineAnswers ++ [.appended r v] }
  | _ => s

/-- CLEAR_RESERVE: taken by the controller from its queue, it completes its cell itself (R37), with no subject
(DESIGN CHOICE, notes/assumptions/26). -/
def clearReserveStep (s : State) : State :=
  match s.ctl.queue with
  | .clearReserve tag filter :: rest =>
    let s := { s with ctl.queue := rest }
    let p (e : ReserveEntry) : Bool := filter.all fun k => e.cls = k
    let n := s.ctl.reserve.countP p
    doneOrder .controller tag [(0, leBytes n 1)] .ok none (dropReserve p .clear s)
  | _ => s

/-! ### ADOPT and MARK (R38, R39) -/

/-- CONFLICT and EXCLUDED of one slot, by the entry check and the ranges now in force. -/
def remarkSlot (s : State) (slot : Nat) : State :=
  match slotOf s.ctl.table slot with
  | none => s
  | some e =>
    let v := entryCheck s.ctl.rules s.ctl.table slot e
    setSlot slot
      (some { e with conflict := v.spacing < 0, excluded := bandExcluded s.ctl.rules e.code e.cls e.zone }) s

/-- Every slot is re-marked, in ascending order (DESIGN CHOICE, notes/assumptions/45: R40 reports changes in the order in which a
request makes them, and R38 gives the slots none). -/
def remark (s : State) : State := (List.range s.ctl.table.length).foldl remarkSlot s

/-- Adoption prunes the spares whose band is excluded or that some entry leaves no spacing (R38 step 4). -/
def pruneReserve (s : State) : State :=
  let r := s.ctl.rules
  let t := tableCarriers s.ctl.table
  dropReserve (fun e => bandExcluded r e.code e.cls e.zone || spacingMargin r e.code e.cls e.zone t < 0) .adoption s

/-- Places of the plan queue that no request holds (R42). -/
def Engine.freePlace (e : Engine) : Bool := e.queue.length < Config.planPlaces

/-- A plan order waits ACCEPTED at the head of the intake queue for a place (R156). -/
def Dispatcher.planWaits (d : Dispatcher) : Bool :=
  match d.waiting with
  | some (.plan _) => true
  | _ => false

/-- Some requester already waits for a place (R43). -/
def State.placeWanted (s : State) : Bool := s.eng.auditPending || s.eng.standby ≠ [] || s.disp.planWaits

/-- R55: an internal audit is merged, queued, or kept in the audit-pending flag. -/
def queueInternalAudit (s : State) : State :=
  if s.eng.queue.contains .internalAudit || s.eng.auditPending then s
  else if s.eng.freePlace && !s.placeWanted then { s with eng.queue := s.eng.queue ++ [.internalAudit] }
  else { s with eng.auditPending := true }

/-- ADOPT. -/
def adoptStep (s : State) : State :=
  match s.ctl.queue with
  | .adopt rules :: rest =>
    let s := { s with ctl.queue := rest, ctl.rules := rules, ctl.ruleGen := bumpGen s.ctl.ruleGen }
    let s := queueInternalAudit (pruneReserve (remark s))
    { s with adopt.station.stage := .answered }
  | _ => s

/-- A finding is applied to the entry still in its slot with the same link, role and code. -/
def applyFinding (s : State) (f : Finding) : State :=
  match slotOf s.ctl.table f.slot with
  | none => s
  | some e =>
    if e.link = f.link ∧ e.role = f.role ∧ e.code = f.code then setSlot f.slot (some { e with imSuspect := f.suspect }) s
    else s

def countMarks (p : CarrierEntry → Bool) (t : List (Option CarrierEntry)) : Nat := t.countP fun o => o.any p

def markRequest (gen : Nat) (findings : List Finding) (codes : List Nat) (s : State) : MarkAnswer × State :=
  let s := remark s
  let apply := gen = s.ctl.ruleGen
  let before := s.ctl.reserve.length
  let s := if apply then dropReserve (fun e => codes.contains e.code) .audit (findings.foldl applyFinding s) else s
  ({ conflict := countMarks (·.conflict) s.ctl.table, excluded := countMarks (·.excluded) s.ctl.table
     imSuspect := countMarks (·.imSuspect) s.ctl.table, removed := before - s.ctl.reserve.length, applied := apply }, s)

/-- MARK. -/
def markStep (s : State) : State :=
  match s.ctl.queue with
  | .mark gen findings codes :: rest =>
    let (a, s) := markRequest gen findings codes { s with ctl.queue := rest }
    { s with mail.engineAnswers := s.mail.engineAnswers ++ [.marked a] }
  | _ => s

/-- CLEAR_RESERVE_PLACE_GRANT: the cell waiting at the head moves to the controller's queue when one of the six order
places frees (R156). -/
def clearReserveOrders (q : List CtlReq) : Nat :=
  q.countP fun r => match r with
    | .clearReserve _ _ => true
    | _ => false

def clearReserveGrantStep (s : State) : State :=
  match s.disp.waiting, s.disp.intake with
  | some (.clearReserve tag filter), cell :: rest =>
    if clearReserveOrders s.ctl.queue < Config.clearReservePlaces then
      { s with disp.intake := rest, disp.waiting := none, disp.service := s.disp.service ++ [cell]
               ctl.queue := s.ctl.queue ++ [.clearReserve tag filter] }
    else s
  | _, _ => s

end Sys2Proof.Machine
end

