-- ==== Sys2Proof/Machine/Gate.lean ====
section
/-! DEFINITION. A link's share of the controller's request queue (R26, R33): at most one request of the link in the queue or
in service, the next held until the answer, and a PURGE in addition. Accessors of the links. -/

namespace Sys2Proof.Machine

/-! ### Accessors -/

def State.link (s : State) (i : Nat) : Link := s.sup.links.getD i Link.reset

def State.linkRec (s : State) (i : Nat) : LinkRec := (s.link i).vis

def State.linkDef (s : State) (i : Nat) : Option LinkDef := s.sup.defs.getD i none

/-- Change what the supervisor holds beside a link's record. -/
def modAux (i : Nat) (f : LinkAux → LinkAux) (s : State) : State :=
  let l := s.link i
  { s with sup.links := put s.sup.links i { l with aux := f l.aux } }

def LinkDef.role (d : LinkDef) : Role → Option RoleDef
  | .outbound => d.outRole
  | .inbound => d.inRole

def LinkRec.role (l : LinkRec) : Role → RoleRec
  | .outbound => l.outRec
  | .inbound => l.inRec

def LinkRec.setRole (l : LinkRec) (r : Role) (x : RoleRec) : LinkRec :=
  match r with
  | .outbound => { l with outRec := x }
  | .inbound => { l with inRec := x }

def bothRoles : List Role := [.outbound, .inbound]

/-- The declared roles of a definition, OUTBOUND first (R59). -/
def LinkDef.declared (d : LinkDef) : List Role := bothRoles.filter fun r => (d.role r).isSome

/-- A role of a request, read from the working definition (R46, R63, R74). -/
def State.rolePlan (s : State) (i : Nat) (r : Role) : Option RolePlan :=
  match s.linkDef i with
  | none => none
  | some d =>
    (d.role r).map fun x =>
      { role := r, cls := x.cls, zone := d.zone, lo := x.lo, hi := x.hi, step := x.step, off := x.off }

/-! ### The gate -/

def pushRequest (r : CtlReq) (s : State) : State := { s with ctl.queue := s.ctl.queue ++ [r] }

/-- The engine's INSERT of this sequence. -/
def CtlReq.engineInsert (seq : Nat) : CtlReq → Bool
  | .insert byEngine _ n _ => byEngine && n = seq
  | _ => false

/-- The UPDATE of a kill waits for answers, and the request is none of the INSERTs whose answers it waits for. -/
def LinkAux.comesAfterKill (a : LinkAux) (r : CtlReq) : Bool := a.killWait ≠ [] && !a.killWait.any r.engineInsert

/-- Send a link's request, or hold it while an earlier one awaits its answer. While the UPDATE of a kill waits for the answer of
a sequence that a kill found (R147), only that sequence's own INSERT goes ahead of it: every later request comes after it. -/
def sendLink (i : Nat) (r : CtlReq) (s : State) : State :=
  if (s.link i).aux.comesAfterKill r then
    modAux i (fun a => { a with afterKill := a.afterKill ++ [r] }) s
  else if (s.link i).aux.outstanding then modAux i (fun a => { a with held := a.held ++ [r] }) s
  else pushRequest r (modAux i (fun a => { a with outstanding := true }) s)

/-- The answer to the link's request has been taken: the next held request is sent. (A request that a PURGE takes out leaves
the queue, and with it the link's place, at that moment; its CANCELLED answer frees nothing more.) -/
def linkAnswered (i : Nat) (s : State) : State :=
  match (s.link i).aux.held with
  | [] => modAux i (fun a => { a with outstanding := false }) s
  | r :: rest => pushRequest r (modAux i (fun a => { a with outstanding := true, held := rest }) s)

/-- A waiting INSERT, TAKE or LEARN of the link. -/
def CtlReq.purgedWith (i : Nat) : CtlReq → Bool
  | .insert _ l _ _ => l = i
  | .take l _ _ => l = i
  | .learn l _ _ _ => l = i
  | _ => false

def cancelledAnswer (link seq : Nat) : InsertAnswer := { link := link, seq := seq, result := .cancelled, roles := [] }

/-- A request taken out by a PURGE is answered CANCELLED (R33). -/
def answerCancelled (r : CtlReq) (s : State) : State :=
  match r with
  | .insert byEngine l seq _ => answerInsert byEngine (cancelledAnswer l seq) s
  | .take l seq _ => { s with mail.takeAnswers := s.mail.takeAnswers ++ [cancelledAnswer l seq] }
  | .learn l seq _ _ => { s with mail.learnAnswers := s.mail.learnAnswers ++ [cancelledAnswer l seq] }
  | _ => s

/-- A request still held for the link when its PURGE is sent never reaches the controller; the engine, which waits for an
answer, is answered CANCELLED. -/
def dropHeld (s : State) (r : CtlReq) : State :=
  match r with
  | .insert true l seq _ => answerInsert true (cancelledAnswer l seq) s
  | _ => s

/-- The gate's part in taking the answer of an INSERT, TAKE or LEARN. -/
def insertAnswered (a : InsertAnswer) (s : State) : State := if a.result = .cancelled then s else linkAnswered a.link s

/-- Send a PURGE of the link (R33, PURGE_CANCEL_QUEUED). -/
def sendPurge (i : Nat) (s : State) : State :=
  let held := (s.link i).aux.held ++ (s.link i).aux.afterKill
  let s := modAux i (fun a => { a with held := [], killWait := [], killChanges := [], afterKill := [] }) (held.foldl dropHeld s)
  let out := s.ctl.queue.filter (CtlReq.purgedWith i)
  let s := if out = [] then s else modAux i (fun a => { a with outstanding := false }) s
  let s := out.foldl (fun s r => answerCancelled r s)
    { s with ctl.queue := s.ctl.queue.filter fun r => !r.purgedWith i }
  if s.ctl.queue.contains (.purge i) then s
  else pushRequest (.purge i) (modAux i (fun a => { a with purges := a.purges + 1 }) s)

/-- Whether the link's PURGE has abandoned the sequence for which the engine offers an INSERT: then the INSERT is answered
CANCELLED at once, so that the link holds no entries after its PURGE (R33; notes/assumptions/12). -/
def insertBarred (i seq : Nat) (s : State) : Bool :=
  let a := (s.link i).aux
  a.seq ≠ seq && !a.killWait.contains seq

/-- The engine sends its INSERT as the link's request (R26, R47). -/
def sendEngineInsert (i seq : Nat) (roles : List (RolePlan × Nat)) (s : State) : State :=
  if insertBarred i seq s then answerInsert true (cancelledAnswer i seq) s else sendLink i (.insert true i seq roles) s

end Sys2Proof.Machine
end

