-- ==== Sys2Proof/Machine/UnitLink.lean ====
section
/-! DEFINITION. Chapter 5: the unit link controller: the transaction machine, the arbiter with its five classes, the tune
permit's consultation, the sweep, the attention round and LINE_TEST. -/

namespace Sys2Proof.Machine

/-! ### The tune permit (R72, R82) -/

/-- The camera (not 0) has programme staged or applied, by the tally unit's record. -/
def State.onProgramme (s : State) (camera : Nat) : Bool :=
  match camera with
  | 0 => false
  | c + 1 =>
    let r := s.tally.cams.getD c CamRec.reset
    r.staged.programme || r.applied.programme

def State.linkOnProgramme (s : State) (i : Nat) : Bool :=
  match s.linkDef i with
  | none => false
  | some d => s.onProgramme d.camera

/-- The part of the permit that withholds the next TUNE or UNMUTE frame of the link, if any: the kill part whenever it is
withdrawn, and otherwise, for a TUNE of a retune without force and not by the expiry of a hold limit, the programme part. It is
the frame's own sequence that decides, also when that sequence has been abandoned since. -/
def State.withheldBy (s : State) (r : ControlReq) : Option PermitPart :=
  if r.kind = .tune ∨ r.kind = .unmute then
    if s.kc.asserted then some .killPart
    else if r.kind = .tune ∧ r.forRetune = true ∧ s.linkOnProgramme r.link = true then some .programmePart
    else none
  else none

/-! ### Requests and their classes (R85) -/

/-- A request replaces the waiting one of the same kind of subject in place, or joins the class. -/
def placeBy {α : Type} (same : α → Bool) (r : α) (l : List α) : List α :=
  if l.any same then l.map (fun x => if same x then r else x) else l ++ [r]

/-- A link's CONTROL request. -/
def placeControl (r : ControlReq) (s : State) : State :=
  { s with ul.controlQ := placeBy (fun x => x.link = r.link) r s.ul.controlQ }

def withdrawControl (link : Nat) (s : State) : State :=
  { s with ul.controlQ := s.ul.controlQ.filter fun x => x.link ≠ link }

/-- A kill withdraws the link's waiting CONTROL request (R147), but not the MUTE of a PARK in service, whose order waits for
its end (R75; notes/assumptions/35). -/
def withdrawForKill (link : Nat) (s : State) : State :=
  { s with ul.controlQ := s.ul.controlQ.filter fun x => x.link ≠ link || x.kind = .mute }

def controlWaiting (s : State) (link : Nat) : Bool := s.ul.controlQ.any fun x => x.link = link

def placeCue (r : CueReq) (s : State) : State :=
  { s with ul.cueQ := placeBy (fun x => x.camera = r.camera) r s.ul.cueQ }

def withdrawCue (camera : Nat) (s : State) : State :=
  { s with ul.cueQ := s.ul.cueQ.filter fun x => x.camera ≠ camera }

def placeKill (r : KillReq) (s : State) : State := { s with ul.killQ := s.ul.killQ ++ [r] }

def placeSweep (r : SweepReq) (s : State) : State := { s with ul.sweepQ := s.ul.sweepQ ++ [r] }

/-! ### The sweep (R86 to R88) -/

/-- The units of the present definitions, ascending and distinct. -/
def unitList (defs : List (Option LinkDef)) : List Nat :=
  (List.range 127).filter fun u => defs.any fun o => o.any fun d => d.unit = u

/-- Poll spacing in elapsed-time units: whole milliseconds, at least 2. -/
def State.pollSpacing (s : State) : Nat :=
  max 2 (s.sup.settings.periodMs / max 1 s.ul.units.length) * Config.unitsPerMs

/-- The lowest address above a position, or the lowest of all. -/
def nextAddress (l : List Nat) (pos : Option Nat) : Option Nat :=
  match l.find? (fun u => pos.all fun p => p < u) with
  | some u => some u
  | none => l.head?

/-- The next sweep poll is placed when the spacing has passed and the previous one has ended. -/
def trySweep (s : State) : State :=
  if s.running && !s.ul.sweepOut && s.reached s.ul.sweepDue then
    match nextAddress s.ul.units s.ul.sweepPos with
    | none => s
    | some u =>
      placeSweep (.poll u)
        { s with ul.sweepPos := some u, ul.sweepOut := true, ul.sweepDue := s.tb.elapsed + s.pollSpacing }
  else s

/-- SWEEP_SPACING_EXPIRY. -/
def sweepSpacingExpiryStep (s : State) : State := trySweep s

/-- A sweep poll has ended: a pass is complete at the highest address, and the sweep advances. -/
def sweepPollEnded (unit : Nat) (s : State) : State :=
  let s := { s with ul.sweepOut := false }
  let s := if s.ul.units.getLast? = some unit then { s with ul.sweepCount := (s.ul.sweepCount + 1) % 2 ^ 32 } else s
  trySweep s

/-! ### The attention round (R96) -/

def attentionCapable (s : State) : List Nat :=
  s.ul.units.filter fun u => s.sup.defs.any fun o => o.any fun d => d.unit = u && d.attn

/-- While UATN is asserted and no attention poll is waiting or in progress, place the next one; an empty set is refilled, and the
next walk begins at its lowest address. -/
def placeAttention (s : State) : State :=
  if s.running && s.ul.uatn && !s.ul.attnOut then
    let s := if s.ul.roundSet = [] then { s with ul.roundSet := attentionCapable s, ul.attnPos := none } else s
    match nextAddress s.ul.roundSet s.ul.attnPos with
    | none => s
    | some u => { s with ul.attnQ := some u, ul.attnOut := true, ul.attnPos := some u }
  else s

/-- A round begins. -/
def beginRound (s : State) : State :=
  placeAttention { s with ul.roundSet := attentionCapable s, ul.attnPos := none }

/-- UATN_ASSERTED: outside RUNNING only the level of the pin changes. -/
def uatnAssertedStep (s : State) : State :=
  let was := s.ul.uatn
  let s := { s with ul.uatn := true }
  if s.running && !was then beginRound s else s

/-- UATN_DEASSERTED. -/
def uatnDeassertedStep (s : State) : State :=
  let waiting := s.ul.attnQ.isSome
  { s with ul.uatn := false, ul.attnQ := none, ul.roundSet := []
           ul.attnOut := if waiting then false else s.ul.attnOut }

/-- An attention poll has ended: a unit with every cause NONE leaves the round set, and the round advances. -/
def attentionPollEnded (unit : Nat) (quiet : Bool) (s : State) : State :=
  let s := { s with ul.attnOut := false }
  let s := if quiet then { s with ul.roundSet := s.ul.roundSet.filter (· ≠ unit) } else s
  placeAttention s

/-- A rebuild of the unit list (R86, R87, R96). Units no longer capable leave the round set; a set that is then empty while UATN is
asserted is filled at once, also while an attention poll waits or is in progress. An attention poll that waits for a unit no longer capable stays waiting and is sent
(DESIGN CHOICE, notes/assumptions/30). -/
def rebuildUnits (s : State) : State :=
  let first := s.ul.units = []
  let s := { s with ul.units := unitList s.sup.defs, ul.sweepDue := if first then s.tb.elapsed else s.ul.sweepDue }
  let capable := attentionCapable s
  let kept := s.ul.roundSet.filter fun u => capable.contains u
  let s :=
    if kept = [] && s.ul.uatn then { s with ul.roundSet := capable, ul.attnPos := none }
    else { s with ul.roundSet := kept }
  trySweep (placeAttention s)

/-! ### Outcomes (R83) -/

/-- A good REPORT goes to the link supervisor, the tally unit and the talkback router (R91). -/
def distribute (r : Report) (s : State) : State :=
  { s with mail.supervisorReports := s.mail.supervisorReports ++ [r], mail.tallyReports := s.mail.tallyReports ++ [r]
           mail.routerReports := s.mail.routerReports ++ [r] }

/-- A failed POLL is a miss for every link on the unit (R89). -/
def missUnit (unit : Nat) (s : State) : State := { s with mail.missedUnits := s.mail.missedUnits ++ [unit] }

def tellSupervisor (r : ControlReq) (res : ControlResult) (s : State) : State :=
  let o : ControlOutcome := { link := r.link, seq := r.seq, kind := r.kind, result := res }
  { s with mail.controlOutcomes := s.mail.controlOutcomes ++ [o] }

def Report.quiet (r : Report) : Bool := r.channels.all fun c => c.cause = 0

def tellKillControl (r : KillReq) (ok : Bool) (s : State) : State :=
  match r with
  | .silence => s
  | .mute link epoch serial _ _ _ _ =>
    { s with mail.killMuteOutcomes := s.mail.killMuteOutcomes ++ [(link, epoch, serial, ok)] }

def tellLineTest (r : LoopResult) (s : State) : State := { s with mail.loopResults := s.mail.loopResults ++ [r] }

/-- The transaction ends ANSWERED: the machine is IDLE and the outcome is handed over. -/
def endAnswered (req : UlReq) (reply : Reply) (s : State) : State :=
  let s := { s with ul.xact := none }
  match req, reply with
  | .sweepReq (.poll u), .report r => sweepPollEnded u (distribute r s)
  | .attentionPoll u, .report r => attentionPollEnded u r.quiet (distribute r s)
  | .controlReq c, .report r => tellSupervisor c .acked (distribute r s)
  | .controlReq c, _ => tellSupervisor c .acked s
  | .killReq k, _ => tellKillControl k true s
  | .cueReq c, _ => { s with mail.cueOutcomes := s.mail.cueOutcomes ++ [(c, true)] }
  | .sweepReq (.loop _ p), .echo words => tellLineTest (if words = p then .right else .wrong) s
  | _, _ => s

/-- The transaction ends FAILED. -/
def endFailed (req : UlReq) (s : State) : State :=
  let s := { s with ul.xact := none }
  match req with
  | .sweepReq (.poll u) => sweepPollEnded u (missUnit u s)
  | .attentionPoll u => attentionPollEnded u false (missUnit u s)
  | .controlReq c => tellSupervisor c .failed (if c.kind = .settlePoll then missUnit c.unit s else s)
  | .killReq k => tellKillControl k false s
  | .cueReq c => { s with mail.cueOutcomes := s.mail.cueOutcomes ++ [(c, false)] }
  | .sweepReq (.loop _ _) => tellLineTest .noEcho s

/-! ### The transaction machine and the arbiter (R81, R82, R84) -/

/-- What a link's sequence must know of its transactions (TABLE 9-1): its TUNE or UNMUTE has begun. -/
def noteBegun (req : UlReq) (s : State) : State :=
  match req with
  | .controlReq r =>
    if (s.link r.link).aux.seq = r.seq then
      match r.kind with
      | .tune => modAux r.link (fun a => { a with tuneBegun := true }) s
      | .unmute => modAux r.link (fun a => { a with unmuteBegun := true }) s
      | _ => s
    else s
  | .killReq (.mute link epoch _ _ _ _ _) =>
    if s.kc.epoch = epoch then
      let m := s.kc.mutes.getD link MuteRec.reset
      if m.state = .waiting then { s with kc.mutes := put s.kc.mutes link { m with state := .inProgress } } else s
    else s
  | _ => s

/-- Send a frame of a transaction, or end it WITHHELD. -/
def sendFrame (req : UlReq) (second : Bool) (s : State) : State :=
  let go := { s with ul.xact := some { req := req, second := second, sending := true, deadline := 0 } }
  match req with
  | .controlReq r =>
    match s.withheldBy r with
    | some part => tellSupervisor r (.withheld part) { s with ul.xact := none }
    | none => go
  | _ => go

/-- The oldest request of the highest class that holds one, and the classes without it. -/
def nextRequest (u : UnitLink) : Option (UlReq × UnitLink) :=
  match u.killQ, u.cueQ, u.controlQ, u.attnQ, u.sweepQ with
  | r :: rest, _, _, _, _ => some (.killReq r, { u with killQ := rest })
  | [], r :: rest, _, _, _ => some (.cueReq r, { u with cueQ := rest })
  | [], [], r :: rest, _, _ => some (.controlReq r, { u with controlQ := rest })
  | [], [], [], some a, _ => some (.attentionPoll a, { u with attnQ := none })
  | [], [], [], none, r :: rest => some (.sweepReq r, { u with sweepQ := rest })
  | [], [], [], none, [] => none

/-- TRANSACTION_START: while the machine is IDLE the arbiter takes requests; a withheld frame leaves it IDLE, and the next
request is taken. -/
def arbitrateN : Nat → State → State
  | 0, s => s
  | n + 1, s =>
    match s.ul.xact with
    | some _ => s
    | none =>
      match nextRequest s.ul with
      | none => s
      | some (req, u) => arbitrateN n (sendFrame req false (noteBegun req { s with ul := u }))

def arbitrate (s : State) : State := if s.running then arbitrateN (s.ul.controlQ.length + 1) s else s

/-- No reply, or a bad one: the retry, or the failure (R81). -/
def noReply (x : Transaction) (s : State) : State :=
  if x.second then endFailed x.req s else sendFrame x.req true s

/-- UNIT_FRAME_RECEIVED (R80): with no transaction awaiting a reply the frame is discarded (R79). Any frame that comes while one awaits
its reply is taken as that reply, good or bad, also the late reply of an earlier frame, which R79 has discarded and R80 makes a bad
reply when its address or kind is another: that it counts as the reply is a DESIGN CHOICE, notes/assumptions/54. -/
def unitFrameReceivedStep (bytes : List Byte) (s : State) : State :=
  match s.ul.xact with
  | some x =>
    if x.sending then s
    else
      match goodReply x.req bytes with
      | some reply => endAnswered x.req reply s
      | none => noReply x s
  | none => s

/-- Reply timeout: 2 ms from the end of the frame sent. -/
def replyTimeoutUnits : Nat := 2 * Config.unitsPerMs

/-- FRAME_TRANSMITTED (R81). -/
def frameTransmittedStep (s : State) : State :=
  match s.ul.xact with
  | some x =>
    if x.sending then
      match x.req with
      | .killReq .silence => { s with ul.xact := none }
      | _ => { s with ul.xact := some { x with sending := false, deadline := s.tb.elapsed + replyTimeoutUnits } }
    else s
  | none => s

/-- REPLY_TIMEOUT (R81). -/
def replyTimeoutStep (s : State) : State :=
  match s.ul.xact with
  | some x => if !x.sending && s.reached x.deadline then noReply x s else s
  | none => s

/-! ### LINE_TEST (R97) -/

/-- The bytes of the first 32 failures: the address, bit 7 set for WRONG_ECHO. -/
def failureBytes (l : List (Nat × Bool)) : List Byte := (l.take 32).map fun f => BitVec.ofNat 8 (f.1 + bit f.2 7)

def lineTestResults (t : LineTest) : Results :=
  [(0, leBytes t.tested 1), (1, leBytes t.failures.length 1), (4, failureBytes t.failures)]

/-- Place the LOOP of the next unit, or complete the order. -/
def lineTestGoOn (t : LineTest) (s : State) : State :=
  match t.units with
  | [] =>
    doneOrder .unitLink t.tag (lineTestResults t) (if t.failures = [] then .ok else .faulted) (some t.address)
      { s with ul.lineTest := none }
  | u :: _ => placeSweep (.loop u t.pattern) { s with ul.lineTest := some t }

/-- LINE_TEST. A refusal BUSY carries the address it was given as its subject, as a completion does (DESIGN CHOICE,
notes/assumptions/25: R97 says so of a completion alone). -/
def lineTestStep (s : State) : State :=
  match s.mail.lineTests with
  | .lineTest tag address :: rest =>
    let s := { s with mail.lineTests := rest }
    match s.ul.lineTest with
    | some _ => refuseOrder .unitLink tag [(0, leBytes 0 1), (1, leBytes 0 1)] .busy (some address) s
    | none =>
      let units := if address = 127 then s.ul.units else [address]
      lineTestGoOn { tag := tag, address := address, pattern := s.sup.settings.pattern, units := units, tested := 0
                     failures := [] } (beginWork tag s)
  | _ => s

/-- LOOP_OUTCOME. -/
def loopOutcomeStep (s : State) : State :=
  match s.mail.loopResults, s.ul.lineTest with
  | r :: rest, some t =>
    let s := { s with mail.loopResults := rest }
    match t.units with
    | [] => s
    | u :: us =>
      let failures := match r with
        | .right => t.failures
        | .wrong => t.failures ++ [(u, true)]
        | .noEcho => t.failures ++ [(u, false)]
      lineTestGoOn { t with units := us, tested := t.tested + 1, failures := failures } s
  | _, _ => s

end Sys2Proof.Machine
end

