-- ==== Sys2Proof/Machine/Tally.lean ====
section
/-! DEFINITION. Chapter 6: the tally unit: contact filters, virtual sources, colour resolution, lamps, and delivery to the
cameras. Camera numbers in State run from 0 (camera 1) to 31 (camera 32). -/

namespace Sys2Proof.Machine

/-! ### Filters (R100, used for TAKE and KILL as well: R139, R143) -/

/-- A raw change: a run begins when the level departs from the accepted one, and ends when it returns. -/
def Filter.input (now : Timestamp) (elapsed : Nat) (active : Bool) (f : Filter) : Filter :=
  if active = f.raw then f
  else if active = f.accepted then { f with raw := active, runStart := none }
  else { f with raw := active, runStart := some (now, elapsed) }

/-- A run has lasted the width (in milliseconds). -/
def Filter.complete (s : State) (width : Nat) (f : Filter) : Bool :=
  f.runStart.any fun r => s.reached (r.2 + width * Config.unitsPerMs)

def Filter.take (f : Filter) : Filter := { f with accepted := f.raw, runStart := none }

/-- At RUN an input whose raw level departs from an accepted level of off begins a run (R100). -/
def Filter.atRun (now : Timestamp) (elapsed : Nat) (f : Filter) : Filter :=
  { f with accepted := false, runStart := if f.raw then some (now, elapsed) else none }

/-! ### The camera records (R105) -/

def camOf (s : State) (c : Nat) : CamRec := s.tally.cams.getD c CamRec.reset

def camReport (c : Nat) (old new : CamRec) (stamp : Timestamp) : JReport :=
  { kind := .tally, stamp := stamp, subject := c + 1, values := values old.value new.value, dropped := false
    clamped := false, flagOf := .camera c, notice := .none }

/-- Give a camera record new contents; a change of colours or delivery is reported with this timestamp. -/
def setCam (c : Nat) (stamp : Timestamp) (r : CamRec) (s : State) : State :=
  let old := camOf s c
  let s := { s with tally.cams := put s.tally.cams c r }
  if old.value = r.value then s else report .tally (camReport c old r stamp) s

def modCam (c : Nat) (f : CamRec → CamRec) (s : State) : State := setCam c s.now (f (camOf s c)) s

/-! ### Sources and resolution (R101 to R104) -/

/-- Source n is on: an accepted contact, or a virtual source. -/
def sourceOn (t : TallyUnit) (n : Nat) : Bool :=
  if n < Config.contacts then (t.inputs.getD n Filter.reset).accepted else t.virtuals.getD (n - Config.contacts) false

/-- A source matches an entry when they agree in every bit the mask leaves clear. -/
def MapEntry.matchesSource (e : MapEntry) (n : Nat) : Bool := (n ^^^ e.base) &&& (63 ^^^ e.mask) = 0

/-- The target of a matching source. A spread entry with camera field 0 drives the cameras that its masked bits name, as the
formula of R103 gives them (DESIGN CHOICE, notes/assumptions/37: the text counts a camera field of 0 among the targets that are
not driven). -/
def MapEntry.target (e : MapEntry) (n : Nat) : Nat := if e.spread then e.camera + (n &&& e.mask) else e.camera

/-- Some enabled entry of this colour drives this camera (1 to 32) from a source that is on. -/
def colourOn (t : TallyUnit) (camera : Nat) (k : Colour) : Bool :=
  t.map.any fun e =>
    e.enable && e.colour = some k &&
      (List.range 64).any fun n => sourceOn t n && e.matchesSource n && e.target n = camera

def resolvedColours (t : TallyUnit) (camera : Nat) : Colours :=
  { programme := colourOn t camera .programme, preview := colourOn t camera .preview, iso := colourOn t camera .iso }

/-- R106. -/
def Colours.lamp (c : Colours) : Lamp :=
  if c.programme then .red else if c.preview then .green else if c.iso then .yellow else .off

/-- A camera whose staged colours differ from before is written, reported, and handed to the link supervisor and the staging
of the lamp image. -/
def resolveCam (stamp : Timestamp) (s : State) (c : Nat) : State :=
  let r := camOf s c
  let k := resolvedColours s.tally (c + 1)
  if k = r.staged then s
  else
    let s := setCam c stamp { r with staged := k, stagedLamp := k.lamp, edge := some stamp } s
    { s with mail.tallyChanges := s.mail.tallyChanges ++ [c + 1], mail.stagedChanges := s.mail.stagedChanges ++ [.lamps] }

/-- COLOUR_RESOLUTION: the cameras in ascending order, so their TALLY entries and hand-overs come in that order (DESIGN CHOICE,
notes/assumptions/37: R104 gives none). -/
def resolveColours (stamp : Timestamp) (s : State) : State := (List.range Config.cameras).foldl (resolveCam stamp) s

/-- The filter group of a contact. -/
def groupWidth (t : TallyUnit) (n : Nat) : Nat := t.widths.getD (n / 16) 4

/-- CONTACT_INPUT_CHANGE: outside RUNNING the filter does not run, and only the level of the pin changes. -/
def contactInputChangeStep (n : Nat) (active : Bool) (s : State) : State :=
  let f := s.tally.inputs.getD n Filter.reset
  let f := if s.running then f.input s.now s.tb.elapsed active else { f with raw := active }
  { s with tally.inputs := put s.tally.inputs n f }

/-- A completed run: the accepted level takes the raw level, and the edge carries the run start. -/
def contactEdge (n : Nat) (s : State) : State :=
  let f := s.tally.inputs.getD n Filter.reset
  let stamp := match f.runStart with
    | some r => r.1
    | none => s.now
  resolveColours stamp { s with tally.inputs := put s.tally.inputs n f.take }

/-- CONTACT_FILTER_RUN_COMPLETE. -/
def contactFilterRunCompleteStep (n : Nat) (s : State) : State :=
  if s.running && (s.tally.inputs.getD n Filter.reset).complete s (groupWidth s.tally n) then contactEdge n s else s

/-- The virtual states as a word, bit i for source 48 + i. -/
def virtualWord (l : List Bool) : Nat := (l.zipIdx.map fun v => bit v.1 v.2).sum

/-- SET_TALLY (R102). -/
def setTallyStep (s : State) : State :=
  match s.mail.tallyOrders with
  | .setTally tag states masks :: rest =>
    let virtuals := s.tally.virtuals.zipIdx.map fun v => if masks.getLsbD v.2 then states.getLsbD v.2 else v.1
    let before := s.tally.cams
    let changed := virtuals ≠ s.tally.virtuals
    let s := { s with mail.tallyOrders := rest, tally.virtuals := virtuals }
    let s := if changed then resolveColours s.now s else s
    let n := (List.range Config.cameras).countP fun c =>
      (s.tally.cams.getD c CamRec.reset).staged ≠ (before.getD c CamRec.reset).staged
    doneOrder .tally tag [(0, leBytes (virtualWord virtuals) 2), (2, leBytes n 1)] .ok none s
  | _ => s

/-! ### Delivery (R107 to R112) -/

/-- The linked link of a camera (1 to 32): the present CAMERA-kind definition that names it. -/
def linkedLink (defs : List (Option LinkDef)) (camera : Nat) : Option Nat :=
  defs.findIdx? fun o => o.any fun d => d.kind = .camera ∧ d.camera = camera

def liveState (s : LinkState) : Bool := s = .active || s = .holding || s = .retuning

/-- Delivery is live: the linked link is ACTIVE, HOLDING or RETUNING and the kill state is CLEAR, in the tally unit's view. -/
def deliveryLive (t : TallyUnit) (r : CamRec) : Bool :=
  !t.killed && r.link.any fun l => liveState (t.linkStates.getD l .vacant)

/-- A CUE of a camera with its present applied colours and call. -/
def cueFor (s : State) (c : Nat) (d : LinkDef) (resend : Bool) : CueReq :=
  let r := camOf s c
  { camera := c, epoch := s.tally.epochs.getD c 0, unit := d.unit, chan := d.chan, colours := r.applied, call := r.call
    resend := resend }

/-- Queue a CUE: cue outstanding is set; a new-content CUE makes the report count 0 (R108). A resend leaves the count as it stands
(DESIGN CHOICE, notes/assumptions/44: R110 names cue outstanding alone). -/
def queueCue (c : Nat) (resend : Bool) (s : State) : State :=
  match (camOf s c).link with
  | none => s
  | some l =>
    match s.tally.defs.getD l none with
    | none => s
    | some d =>
      let s := placeCue (cueFor s c d resend) s
      modCam c (fun r => { r with cueOut := true, reports := if resend then r.reports else 0 }) s

/-- A waiting CUE is withdrawn, cue outstanding is cleared and the report count is 0; the outcome of a CUE in progress is
stale from now on (R107, R109). -/
def withdrawCues (c : Nat) (s : State) : State :=
  let s := withdrawCue c s
  { s with tally.epochs := put s.tally.epochs c (s.tally.epochs.getD c 0 + 1) }

/-- The alarm test of an entry into UNCONFIRMED (R110). -/
def alarmTest (r : CamRec) (s : State) : State := if r.applied.programme && !s.tally.killed then alarm s else s

def setDelivery (c : Nat) (d : Delivery) (s : State) : State := modCam c (fun r => { r with delivery := d }) s

/-- Delivery of a camera decided afresh, as though its linked link had just entered its present state (R107, R111, R112). -/
def decideDelivery (c : Nat) (s : State) : State :=
  let s := withdrawCues c s
  let s := modCam c (fun r => { r with cueOut := false, reports := 0 }) s
  let r := camOf s c
  if s.tally.killed then setDelivery c (if r.link.isSome then .suspended else .noLink) s
  else if deliveryLive s.tally r then queueCue c false s
  else setDelivery c .noLink s

/-- The camera's call, by the last the router said of its linked link (R108). -/
def callOf (t : TallyUnit) (r : CamRec) : Bool := r.link.any fun l => t.calls.getD l false

/-- Resolve one camera's linked link (R107). -/
def resolveLink (s : State) (c : Nat) : State :=
  let r := camOf s c
  let l := linkedLink s.tally.defs (c + 1)
  if l = r.link then s
  else
    let s := modCam c (fun r => { r with link := l, call := callOf s.tally { r with link := l } }) s
    decideDelivery c s

/-- TALLY_STATION_ADOPTION. The cameras are taken in ascending order (DESIGN CHOICE, notes/assumptions/37: R107 gives none). -/
def tallyStationAdoptionStep (s : State) : State :=
  match s.mail.tallyDefs with
  | [] => s
  | defs :: rest =>
    (List.range Config.cameras).foldl resolveLink { s with mail.tallyDefs := rest, tally.defs := defs }

/-- The link of a camera enters or leaves the three live states (R111); while ASSERTED delivery stays (R112). -/
def linkMoved (old new : LinkState) (s : State) (c : Nat) : State :=
  if s.tally.killed then s
  else if !liveState old && liveState new then queueCue c false s
  else if liveState old && !liveState new then decideDelivery c s
  else s

/-- LINK_STATE_TO_TALLY (R111). -/
def linkStateToTallyStep (s : State) : State :=
  match s.mail.linkToTally with
  | [] => s
  | (l, st) :: rest =>
    let old := s.tally.linkStates.getD l .vacant
    let s := { s with mail.linkToTally := rest, tally.linkStates := put s.tally.linkStates l st }
    (List.range Config.cameras).foldl
      (fun s c => if (camOf s c).link = some l then linkMoved old st s c else s) s

/-- LAMP_APPLY for one camera: staged becomes applied, and the new colours are handed on. -/
def applyCam (s : State) (c : Nat) : State :=
  let r := camOf s c
  if r.staged = r.applied then s
  else
    let s := modCam c (fun r => { r with applied := r.staged, appliedLamp := r.stagedLamp }) s
    let s := { s with mail.tallyChanges := s.mail.tallyChanges ++ [c + 1] }
    if deliveryLive s.tally (camOf s c) then queueCue c false s else s

def appliedLamps (s : State) : List Lamp := s.tally.cams.map (·.appliedLamp)

/-- The whole image is shifted out and latched when some applied lamp changed. -/
def driveLamps (before : List Lamp) (s : State) : State :=
  if appliedLamps s = before then s else { s with tally.lampPort := appliedLamps s }

/-- Cameras whose staged and applied colours differ. -/
def differing (s : State) : List Nat :=
  (List.range Config.cameras).filter fun c => (camOf s c).staged ≠ (camOf s c).applied

/-- The new applied colours of some cameras are handed to the talkback router (R106, R129). -/
def handColours (cams : List Nat) (s : State) : State :=
  if cams = [] then s
  else { s with mail.colourChanges := s.mail.colourChanges ++ [cams.map fun c => (c, (camOf s c).applied)] }

/-- LAMP_APPLY (R106, R141). The cameras are taken in ascending order, so their TALLY entries and CUEs are queued in that order
(DESIGN CHOICE, notes/assumptions/37). -/
def lampApplyStep (s : State) : State :=
  if s.mail.lampApplySent then
    let differ := differing s
    let lamps := appliedLamps s
    let s := driveLamps lamps (differ.foldl applyCam { s with mail.lampApplySent := false })
    let s := handColours differ s
    { s with mail.applyAnswers := s.mail.applyAnswers ++ [(.lamps, differ.length)] }
  else s

/-- A change of a camera's call: the record, and a new-content CUE when delivery is live (R108). -/
def callMoved (s : State) (c : Nat) : State :=
  let r := camOf s c
  let on := callOf s.tally r
  if r.call = on then s
  else
    let s := modCam c (fun r => { r with call := on }) s
    if deliveryLive s.tally (camOf s c) then queueCue c false s else s

/-- CALL_CHANGE. -/
def callChangeStep (s : State) : State :=
  match s.mail.callChanges with
  | [] => s
  | (l, on) :: rest =>
    let s := { s with mail.callChanges := rest, tally.calls := put s.tally.calls l on }
    (List.range Config.cameras).foldl (fun s c => if (camOf s c).link = some l then callMoved s c else s) s

/-- An entry into UNCONFIRMED. -/
def goUnconfirmed (c : Nat) (s : State) : State :=
  let s := setDelivery c .unconfirmed s
  alarmTest (camOf s c) s

/-- A newer CUE of the camera waits, is in progress, or has ended behind this outcome. -/
def newerCue (s : State) (c : Nat) : Bool :=
  s.ul.cueQ.any (fun x => x.camera = c)
    || s.ul.xact.any (fun x => match x.req with
      | .cueReq q => q.camera = c
      | _ => false)
    || s.mail.cueOutcomes.any fun x => x.1.camera = c

/-- CUE_OUTCOME (R109). A failed resend while delivery is UNCONFIRMED makes the alarm test as well (DESIGN CHOICE,
notes/assumptions/28). -/
def cueOutcomeStep (s : State) : State :=
  match s.mail.cueOutcomes with
  | [] => s
  | (q, ok) :: rest =>
    let s := { s with mail.cueOutcomes := rest }
    let r := camOf s q.camera
    if newerCue s q.camera || q.epoch ≠ s.tally.epochs.getD q.camera 0 || !r.cueOut then s
    else
      let s := modCam q.camera (fun r => { r with cueOut := false }) s
      if q.resend && r.delivery = .confirmed then s
      else if ok then
        if q.resend then s
        else modCam q.camera (fun r => { r with delivery := .sent, reports := 0 }) s
      else if r.delivery = .unconfirmed then alarmTest r s
      else goUnconfirmed q.camera s

/-- The far tally echo on a channel; every colour off when the REPORT does not carry it. -/
def Report.echoOn (r : Report) (chan : Nat) : Colours :=
  match r.channels[chan]? with
  | some c => c.echo
  | none => Colours.off

/-- One camera takes a REPORT (R110). -/
def takeEcho (r : Report) (s : State) (c : Nat) : State :=
  let cam := camOf s c
  match cam.link with
  | none => s
  | some l =>
    match s.tally.defs.getD l none with
    | none => s
    | some d =>
      if d.unit ≠ r.unit || s.tally.killed then s
      else
        let same := r.echoOn d.chan = cam.applied
        match cam.delivery with
        | .sent =>
          if cam.cueOut then s
          else if same then setDelivery c .confirmed s
          else
            let s := modCam c (fun x => { x with reports := x.reports + 1 }) s
            if 2 ≤ cam.reports + 1 then goUnconfirmed c s else s
        | .unconfirmed =>
          if same then setDelivery c .confirmed s
          else if cam.cueOut then s
          else queueCue c true s
        | .confirmed => s
        | .noLink => s
        | .suspended => s

/-- TALLY_ECHO_REPORT. The cameras are taken in ascending order (DESIGN CHOICE, notes/assumptions/37: R110 gives none). -/
def tallyEchoReportStep (s : State) : State :=
  match s.mail.tallyReports with
  | [] => s
  | r :: rest => (List.range Config.cameras).foldl (takeEcho r) { s with mail.tallyReports := rest }

/-- TALLY_KILL_STATE (R112). The cameras are taken in ascending order, so their TALLY entries and CUEs come in that order (DESIGN
CHOICE, notes/assumptions/37: R112 gives none). -/
def tallyKillStateStep (s : State) : State :=
  match s.mail.killToTally with
  | [] => s
  | on :: rest =>
    (List.range Config.cameras).foldl
      (fun s c => if (camOf s c).link.isSome then decideDelivery c s else s)
      { s with mail.killToTally := rest, tally.killed := on }

/-! ### The cue tables (R113) and RUN -/

/-- A contact's run that has lasted the width of its group completes. -/
def completeRun (s : State) (n : Nat) : State :=
  if (s.tally.inputs.getD n Filter.reset).complete s (groupWidth s.tally n) then contactEdge n s else s

/-- The map and the widths of a cue copy: runs that already last the new width complete with their own run start, and the
colours of every camera are resolved again with the adoption's reading. A completing run is resolved under the new map, one
contact after another in ascending order, so a camera that one of them changes is stamped with that run's start (DESIGN CHOICE,
notes/assumptions/37). -/
def tallyCueAdoption (map : List MapEntry) (widths : List Nat) (s : State) : State :=
  let s := (List.range Config.contacts).foldl completeRun { s with tally.map := map, tally.widths := widths }
  resolveColours s.now s

/-- RUN: every contact's filter starts, linked links and colours are resolved, camera by camera (R100, R104, R107; their order is
notes/assumptions/37). -/
def tallyRun (s : State) : State :=
  let s := { s with tally.inputs := s.tally.inputs.map (Filter.atRun s.now s.tb.elapsed) }
  resolveColours s.now ((List.range Config.cameras).foldl resolveLink s)

end Sys2Proof.Machine
end

