-- ==== Sys2Proof/Machine/Timebase.lean ====
section
/-! DEFINITION. Chapter 8: the station timebase, the TAKE input and the apply requests. -/

namespace Sys2Proof.Machine

/-! ### Apply requests (R140, R141) -/

/-- An apply request sets the output's flag and sends its owner an apply; while the flag is set it merges. -/
def applyRequest (o : Output) (s : State) : State :=
  match o with
  | .lamps => if s.tb.lampFlag then s else { s with tb.lampFlag := true, mail.lampApplySent := true }
  | .crosspoints => if s.tb.xpFlag then s else { s with tb.xpFlag := true, mail.xpApplySent := true }

/-- An event of a trigger makes a request for each output whose set contains it. -/
def triggerRequests (p : Triggers → Bool) (s : State) : State :=
  let lamps := p s.tb.lampSet
  let xp := p s.tb.xpSet
  let s := if lamps then applyRequest .lamps s else s
  if xp then applyRequest .crosspoints s else s

def Timebase.setOf (t : Timebase) : Output → Triggers
  | .lamps => t.lampSet
  | .crosspoints => t.xpSet

/-- STAGED_CHANGE (R140). A hand-over taken after the owner's apply and before the timebase has taken its answer finds the flag set:
it merges, as R141 has every request do while the flag is set, and the change stays staged until a later apply, though R141 also says
that under CHANGE the next apply is the one the hand-over requests. That it merges is a DESIGN CHOICE, notes/assumptions/57. -/
def stagedChangeStep (s : State) : State :=
  match s.mail.stagedChanges with
  | [] => s
  | o :: rest =>
    let s := { s with mail.stagedChanges := rest }
    if (s.tb.setOf o).change then applyRequest o s else s

/-! ### APPLY (R142) -/

def ApplyWait.done : ApplyWait → Bool
  | .waiting => false
  | _ => true

def ApplyWait.count : ApplyWait → Option Nat
  | .answered n => some n
  | _ => none

/-- The counts of the named outputs. -/
def applyResults (lamps crosspoints : Option Nat) : Results :=
  ((lamps.map fun n => (0, leBytes n 2)).toList) ++ ((crosspoints.map fun n => (2, leBytes n 2)).toList)

/-- APPLY. A refusal carries no subject, as the completion does (DESIGN CHOICE, notes/assumptions/26: R142 says so of OK alone). -/
def applyStep (s : State) : State :=
  match s.mail.timebaseOrders with
  | .apply tag lamps xp :: rest =>
    let s := { s with mail.timebaseOrders := rest }
    if (lamps && !s.tb.lampSet.order) || (xp && !s.tb.xpSet.order) then
      let zero (b : Bool) : Option Nat := if b then some 0 else none
      refuseOrder .timebase tag (applyResults (zero lamps) (zero xp)) .wrongState none s
    else
      let w (b : Bool) : ApplyWait := if b then .waiting else .notNamed
      let s := beginWork tag
        { s with tb.applies := s.tb.applies ++ [{ tag := tag, lampWait := w lamps, xpWait := w xp }] }
      let s := if lamps then applyRequest .lamps s else s
      if xp then applyRequest .crosspoints s else s
  | _ => s

/-- An answer reaches an APPLY that waits for it. -/
def ApplyOrder.answer (o : Output) (n : Nat) (a : ApplyOrder) : ApplyOrder :=
  match o with
  | .lamps => if a.lampWait = .waiting then { a with lampWait := .answered n } else a
  | .crosspoints => if a.xpWait = .waiting then { a with xpWait := .answered n } else a

def ApplyOrder.complete (a : ApplyOrder) : Bool := a.lampWait.done && a.xpWait.done

/-- APPLY_ANSWER (R141, R142). Orders that one answer completes end oldest first (DESIGN CHOICE, notes/assumptions/45). -/
def applyAnswerStep (s : State) : State :=
  match s.mail.applyAnswers with
  | [] => s
  | (o, n) :: rest =>
    let s := { s with mail.applyAnswers := rest }
    let s := match o with
      | .lamps => { s with tb.lampFlag := false }
      | .crosspoints => { s with tb.xpFlag := false }
    let orders := s.tb.applies.map (ApplyOrder.answer o n)
    let done := orders.filter ApplyOrder.complete
    done.foldl (fun s a => doneOrder .timebase a.tag (applyResults a.lampWait.count a.xpWait.count) .ok none s)
      { s with tb.applies := orders.filter fun a => !a.complete }

/-! ### SET_CLOCK (R137) -/

/-- SET_CLOCK. The readings of a refused order are free values. A SET_CLOCK names no subject, completed or refused (DESIGN CHOICE,
notes/assumptions/26). -/
def setClockStep (s : State) : State :=
  match s.mail.timebaseOrders with
  | .setClock tag sec frame :: rest =>
    let s := { s with mail.timebaseOrders := rest }
    if s.tb.clockWait.isSome then
      refuseOrder .timebase tag [(0, openBytes s.openCount 8)] .busy none { s with openCount := s.openCount + 8 }
    else beginWork tag { s with tb.clockWait := some (tag, sec, min frame (s.tb.rate - 1)) }
  | _ => s

/-! ### Frame boundaries (R134 to R136) -/

def timebaseReport (subject old new : Nat) (s : State) : JReport :=
  { kind := .timebase, stamp := s.now, subject := subject, values := values old new, dropped := false, clamped := false
    flagOf := .referenceFlag, notice := .none }

/-- Step 1: the counted reading. -/
def countFrame (t : Timebase) : Timebase :=
  if t.rate ≤ t.frame + 1 then { t with tick := 0, frame := 0, sec := (t.sec + 1) % 86400 }
  else { t with tick := 0, frame := t.frame + 1 }

/-- Step 2, a waiting SET_CLOCK: its reading replaces the counted one and the order completes. The TIMEBASE entry, the completion and
the ORDER entry carry the set reading (DESIGN CHOICE, notes/assumptions/47: R137 and R138 do not say which reading they carry). -/
def setWaitingClock (s : State) : State :=
  match s.tb.clockWait with
  | none => s
  | some (tag, sec, frame) =>
    let counted := s.now
    let s := { s with tb.sec := sec, tb.frame := frame, tb.tick := 0, tb.clockWait := none }
    let s := report .timebase (timebaseReport 2 (clockValue counted.sec counted.frame) (clockValue sec frame) s) s
    doneOrder .timebase tag [(0, leBytes counted.word 4), (4, leBytes s.now.word 4)] .ok none s

/-- Step 2, a buffered rate: it comes into force at a second boundary. Its entry carries the new reading (DESIGN CHOICE,
notes/assumptions/47). -/
def takeRate (s : State) : State :=
  match s.tb.buffered with
  | none => s
  | some r =>
    if s.tb.frame = 0 then
      let old := s.tb.rate
      let s := { s with tb.rate := r, tb.buffered := none }
      report .timebase (timebaseReport 1 old r s) s
    else s

/-- Step 5: the journal writer counts the frame while its delay count runs (R168). -/
def countDelay (j : Journal) : Journal :=
  { j with delayCount := j.delayCount.map fun n => if n < j.delayFrames then n + 1 else n }

/-- A frame boundary. The entries of a SET_CLOCK come before that of a rate that comes into force at it (DESIGN CHOICE,
notes/assumptions/47: R134 gives no order). -/
def boundary (s : State) : State :=
  let s := { s with tb := { countFrame s.tb with frames := s.tb.frames + 1 } }
  let s := triggerRequests Triggers.frame (takeRate (setWaitingClock s))
  { s with jw := countDelay s.jw }

/-- A change of the reference and its TIMEBASE entry. One made at a boundary carries the new reading, tick 0 (DESIGN CHOICE,
notes/assumptions/47: R138 and R163 do not say). -/
def setReference (locked : Bool) (s : State) : State :=
  if s.tb.locked = locked then s
  else
    let old := s.tb.locked
    let s := { s with tb.locked := locked }
    report .timebase (timebaseReport 0 (bit old 0) (bit locked 0) s) s

/-- An internal boundary: a miss while LOCKED, and FREE with the ALARM notice at the second. -/
def internalBoundary (s : State) : State :=
  let s := boundary s
  if s.tb.locked then
    let s := { s with tb.misses := s.tb.misses + 1 }
    if 2 ≤ s.tb.misses then alarm (setReference false s) else s
  else s

/-- One tick of the timebase: elapsed time passes, and the tick counts or makes an internal boundary. -/
def tickTimebase (s : State) : State :=
  let s := { s with tb.elapsed := s.tb.elapsed + Config.tickUnits s.tb.rate }
  if 255 ≤ s.tb.tick then internalBoundary s else { s with tb.tick := s.tb.tick + 1 }

/-- FRAME_BOUNDARY: the ticks left in the frame pass. -/
def frameBoundaryStep (s : State) : State :=
  if s.running then
    internalBoundary { s with tb.elapsed := s.tb.elapsed + (256 - s.tb.tick) * Config.tickUnits s.tb.rate, tb.tick := 255 }
  else s

/-- FRAME_PULSE (R135). -/
def framePulseStep (s : State) : State :=
  if s.running && 192 ≤ s.tb.tick then
    let s := boundary s
    setReference true { s with tb.misses := 0 }
  else s

/-! ### TAKE (R139) -/

/-- TAKE_INPUT_CHANGE: outside RUNNING only the level of the pin changes. -/
def takeInputChangeStep (active : Bool) (s : State) : State :=
  let f := s.tb.takeFilter
  { s with tb.takeFilter := if s.running then f.input s.now s.tb.elapsed active else { f with raw := active } }

/-- A completed run; a change to on is a TAKE edge. -/
def takeEdge (s : State) : State :=
  let s := { s with tb.takeFilter := s.tb.takeFilter.take }
  if s.tb.takeFilter.accepted then triggerRequests Triggers.take s else s

/-- TAKE_FILTER_RUN_COMPLETE. -/
def takeFilterRunCompleteStep (s : State) : State :=
  if s.running && s.tb.takeFilter.complete s s.tb.takeWidth then takeEdge s else s

/-! ### Cue settings and RUN -/

/-- A rate adopted equal to the one in force discards a buffered rate (R136). -/
def adoptRate (r : Nat) (t : Timebase) : Timebase := { t with buffered := if r = t.rate then none else some r }

/-- The timebase's part of a cue adoption: rate, trigger sets, TAKE width, and a run that already lasts the new width, whose edge
makes its requests by the new trigger sets (DESIGN CHOICE, notes/assumptions/49: R140 speaks of events after the adoption). -/
def timebaseCueAdoption (c : CueSettings) (s : State) : State :=
  let s := { s with tb := { adoptRate c.rate s.tb with lampSet := c.lampSet, xpSet := c.xpSet, takeWidth := c.takeWidth } }
  if s.tb.takeFilter.complete s s.tb.takeWidth then takeEdge s else s

/-- RUN: the count begins with the tick at 0, and the accepted TAKE level takes the raw level without an edge. -/
def timebaseRun (t : Timebase) : Timebase := { t with tick := 0, takeFilter := t.takeFilter.take }

end Sys2Proof.Machine
end

