-- ==== Sys2Proof/Machine/Kill.lean ====
section
/-! DEFINITION. Chapter 9: kill control: the filtered line, the kill state, SILENCE and the kill MUTEs. -/

namespace Sys2Proof.Machine

/-! ### The kill state (R143 to R145, R149) -/

def killReport (subject old new : Nat) (n : NoticeOf) (s : State) : JReport :=
  { kind := .kill, stamp := s.now, subject := subject, values := values old new, dropped := false, clamped := false
    flagOf := .killFlag, notice := n }

/-- The state goes to the link supervisor, the tally unit and the router, each separately. -/
def handKill (on : Bool) (s : State) : State :=
  { s with mail.killToLinks := s.mail.killToLinks ++ [on], mail.killToTally := s.mail.killToTally ++ [on]
           mail.killToRouter := s.mail.killToRouter ++ [on] }

def noMutes : List MuteRec := List.replicate Config.links MuteRec.reset

/-- KILL_ASSERTION. -/
def assertKill (cause : KillCause) (s : State) : State :=
  let old := killValue s.kc.asserted s.kc.cause
  let s := { s with kc.asserted := true, kc.cause := cause, kc.mutes := noMutes, kc.epoch := s.kc.epoch + 1 }
  let s := if s.ul.killQ.contains .silence then s else placeKill .silence s
  let s := report .killControl (killReport noSubject old (killValue true cause) .kill s) s
  handKill true s

/-- KILL_RELEASE: waiting kill requests are withdrawn and every MUTE state forgotten. -/
def releaseKill (s : State) : State :=
  let old := killValue s.kc.asserted s.kc.cause
  let s := { s with kc.asserted := false, kc.cause := .none, kc.mutes := noMutes, ul.killQ := [] }
  let s := report .killControl (killReport noSubject old (killValue false .none) .kill s) s
  handKill false s

def killResults (before after : Bool) (cause : KillCause) : Results :=
  [(0, leBytes (bit before 0) 1), (1, leBytes (bit after 0) 1), (2, leBytes cause.toNat 1)]

/-- KILL. -/
def killStep (s : State) : State :=
  match s.mail.killOrders with
  | .kill tag :: rest =>
    let before := s.kc.asserted
    let s := { s with mail.killOrders := rest }
    let s := if before then s else assertKill .order s
    doneOrder .killControl tag (killResults before true s.kc.cause) .ok none s
  | _ => s

/-- RELEASE_KILL. -/
def releaseKillStep (s : State) : State :=
  match s.mail.killOrders with
  | .releaseKill tag :: rest =>
    let before := s.kc.asserted
    let s := { s with mail.killOrders := rest }
    if s.kc.filter.accepted then
      refuseOrder .killControl tag (killResults before before s.kc.cause) .lineActive none s
    else
      let s := if before then releaseKill s else s
      doneOrder .killControl tag (killResults before false s.kc.cause) .ok none s
  | _ => s

/-! ### The KILL input (R143) -/

/-- KILL_INPUT_CHANGE: outside RUNNING only the level of the pin changes. -/
def killInputChangeStep (active : Bool) (s : State) : State :=
  let f := s.kc.filter
  { s with kc.filter := if s.running then f.input s.now s.tb.elapsed active else { f with raw := active } }

/-- The filtered line takes the raw level; asserted, it makes a CLEAR kill state ASSERTED with cause LINE. -/
def takeLine (s : State) : State :=
  let s := { s with kc.filter := s.kc.filter.take }
  if s.kc.filter.accepted && !s.kc.asserted then assertKill .line s else s

/-- KILL_FILTER_RUN_COMPLETE. -/
def killFilterRunCompleteStep (s : State) : State :=
  if s.running && s.kc.filter.complete s s.kc.width then takeLine s else s

/-- A new width applies to a run in progress (R143, R101). -/
def adoptKillWidth (w : Nat) (s : State) : State :=
  let s := { s with kc.width := w }
  if s.kc.filter.complete s w then takeLine s else s

/-! ### Kill MUTEs (R146) -/

def setMute (l : Nat) (m : MuteRec) (s : State) : State := { s with kc.mutes := put s.kc.mutes l m }

/-- Place a link's kill MUTE, naming what the link supervisor handed over. Of a link that is tracked already, a waiting MUTE stays as
it is, and any other state gives way to the new MUTE (DESIGN CHOICE, notes/assumptions/50: R146 does not speak of it). So at most
one MUTE of a link waits (R85). -/
def placeMute (t : MuteTarget) (s : State) : State :=
  let m := s.kc.mutes.getD t.link MuteRec.reset
  if m.state = .waiting then s
  else
    setMute t.link { m with state := .waiting, target := some t, serial := m.serial + 1 }
      (placeKill (.mute t.link s.kc.epoch (m.serial + 1) t.unit t.chan t.roleOut t.roleIn) s)

/-- KILL_MUTE_LIST. -/
def killMuteListStep (s : State) : State :=
  match s.mail.muteLists with
  | [] => s
  | targets :: rest =>
    let s := { s with mail.muteLists := rest }
    if s.kc.asserted then targets.foldl (fun s t => placeMute t s) s else s

/-- KILL_MUTE_OUTCOME: that of an older assertion, or after the release, is discarded. One of the present assertion makes its KILL
entry; the MUTE state follows the newest MUTE of the link alone (DESIGN CHOICE, notes/assumptions/50), whose transaction has begun. -/
def killMuteOutcomeStep (s : State) : State :=
  match s.mail.killMuteOutcomes with
  | [] => s
  | (l, epoch, serial, ok) :: rest =>
    let s := { s with mail.killMuteOutcomes := rest }
    let m := s.kc.mutes.getD l MuteRec.reset
    if s.kc.asserted && epoch = s.kc.epoch then
      let ended (st : MuteState) : MuteState := if m.state = .inProgress ∧ serial = m.serial then st else m.state
      if ok then
        let s := setMute l { m with state := ended .answered } s
        if m.failedBefore then report .killControl (killReport l 0 1 .none s) s else s
      else
        let retry := MuteState.retry (s.tb.elapsed + s.sup.settings.periodMs * Config.unitsPerMs)
        let s := setMute l { m with state := ended retry, failedBefore := true } s
        if m.failedBefore then s else alarm (report .killControl (killReport l 0 0 .none s) s)
    else s

/-- KILL_MUTE_RETRY_EXPIRY: the same MUTE is placed again. -/
def killMuteRetryExpiryStep (l : Nat) (s : State) : State :=
  let m := s.kc.mutes.getD l MuteRec.reset
  match m.state, m.target with
  | .retry deadline, some t => if s.running && s.kc.asserted && s.reached deadline then placeMute t s else s
  | _, _ => s

/-- RUN: the filtered line takes the raw level at once, without a run. -/
def killRun (s : State) : State := takeLine s

end Sys2Proof.Machine
end

