-- ==== Sys2Proof/Machine/Engine.lean ====
section
/-! DEFINITION. Chapter 3: the plan engine. A search is done a unit of work at a time (one candidate, or one entry of an
audit), so that changes of the tables fall before or after each evaluation (R9, R45); Machine/Step.lean spends units as time
passes, and the step that ends a search does the units that remain first. -/

namespace Sys2Proof.Machine

/-! ### One search (R8, R16, R17, R45) -/

def cap16 (n : Nat) : Nat := min n 65535

def SearchRun.idle : SearchRun :=
  { next := 1, hi := 0, step := 1, cls := 0, zone := 0, subject := none, tentative := [], useReserve := false
    preferred := none, keep := 0, best := [], found := 0, evaluated := 0, carrierStart := 0, ruleStart := 0 }

def AuditRun.idle : AuditRun :=
  { gen := 0, slot := 0, pos := 0, findings := [], failing := [], reserveMeasured := 0 }

def FillRun.idle : FillRun := { added := 0, first := none, last := none, least := Config.marginCap, restarts := 0 }

def SearchRun.finished (r : SearchRun) : Bool := r.hi < r.next

/-- Units of work left: codes of the grid up to the end of the window. -/
def SearchRun.left (r : SearchRun) : Nat := (r.hi + 1 - r.next) / max r.step 1 + 1

/-- The carriers a search considers (R10, R21). -/
def SearchRun.considered (c : Controller) (r : SearchRun) : List Carrier :=
  tableCarriers c.table ++ r.tentative ++ (if r.useReserve then reserveCarriers c.reserve else [])

/-- The margin of the candidate at the next code, against the tables as they stand. -/
def SearchRun.marginNow (c : Controller) (r : SearchRun) : Int :=
  (verdictOf c.rules (r.considered c) r.next r.cls r.zone r.subject none).margin

/-- Evaluate the next code. -/
def SearchRun.visit (c : Controller) (r : SearchRun) : SearchRun :=
  if r.finished then r
  else
    let r' := { r with next := r.next + max r.step 1 }
    if bandExcluded c.rules r.next r.cls r.zone then r'
    else
      let m := r.marginNow c
      let r' := { r' with evaluated := cap16 (r.evaluated + 1) }
      if m < 0 || (r.useReserve && codeUsed c r.next) then r'
      else
        { r' with found := cap16 (r.found + 1)
                  best := (insertBy (ranksBefore r.preferred) (r.next, m) r.best).take r.keep }

/-- The rest of a search. -/
def SearchRun.run (c : Controller) : Nat → SearchRun → SearchRun
  | 0, r => r
  | n + 1, r => if r.finished then r else SearchRun.run c n (r.visit c)

def SearchRun.toEnd (c : Controller) (r : SearchRun) : SearchRun := r.run c r.left

/-- A search of a plan order's window (R49, R50). -/
def orderSearch (c : Controller) (p : PlanParams) (fill : Bool) : SearchRun :=
  { SearchRun.idle with
    next := firstOnGrid p.lo p.step p.off, hi := p.hi, step := p.step, cls := p.cls, zone := p.zone
    useReserve := fill, preferred := if fill then none else p.preferred, keep := if fill then 1 else p.count
    carrierStart := c.carrierGen, ruleStart := c.ruleGen }

/-- A carrier for a code given or chosen for a role of a link (R46). -/
def tentativeFor (s : State) (link : Nat) (r : Role) (code : Nat) : List Carrier :=
  ((s.rolePlan link r).map fun p => ({ code := code, cls := p.cls, zone := p.zone, owner := some (link, r) } : Carrier)).toList

/-- A planning search for one role, its definition read at its start (R46); a role the definition no longer declares has an
empty window (DESIGN CHOICE, notes/assumptions/5). -/
def roleSearch (s : State) (req : PlanningReq) (chosen : List (Role × Nat × Int)) (r : Role) (startGen : Nat) : SearchRun :=
  match s.rolePlan req.link r with
  | none => { SearchRun.idle with carrierStart := startGen, ruleStart := s.ctl.ruleGen }
  | some p =>
    let others := req.given ++ chosen.map fun c => (c.1, c.2.1)
    { SearchRun.idle with
      next := firstOnGrid p.lo p.step p.off, hi := p.hi, step := p.step, cls := p.cls, zone := p.zone
      subject := some (req.link, r)
      tentative := (others.filter fun o => o.1 ≠ r).flatMap fun o => tentativeFor s req.link o.1 o.2
      keep := 1, carrierStart := startGen, ruleStart := s.ctl.ruleGen }

/-! ### Service (R44) -/

def Service.idle (req : PlanReq) : Service :=
  { req := req, awaiting := false, cancelMark := false, restarts := 0, attempts := 0, genChanged := false, role := none
    todo := [], chosen := [], search := SearchRun.idle, audit := AuditRun.idle, fill := FillRun.idle }

def setService (v : Option Service) (s : State) : State := { s with eng.service := v }

/-- An attempt begins: the first role's search starts (R46, R47). -/
def beginAttempt (req : PlanningReq) (sv : Service) (s : State) : Service :=
  match outboundFirst id req.search with
  | [] => { sv with awaiting := false, attempts := sv.attempts + 1, role := none, todo := [], chosen := [] }
  | r :: rest =>
    { sv with awaiting := false, attempts := sv.attempts + 1, role := some r, todo := rest, chosen := []
              search := roleSearch s req [] r s.ctl.carrierGen }

/-- The search of the present role has ended with a candidate: keep it and start the next role's. -/
def nextRole (req : PlanningReq) (sv : Service) (s : State) : Service :=
  match sv.role, sv.search.best with
  | some r, (code, margin) :: _ =>
    let chosen := sv.chosen ++ [(r, code, margin)]
    match sv.todo with
    | [] => { sv with role := none, chosen := chosen }
    | r2 :: rest =>
      { sv with role := some r2, todo := rest, chosen := chosen
                search := roleSearch s req chosen r2 sv.search.carrierStart }
  | _, _ => sv

/-- A measurement of an audit (R53). -/
def AuditRun.measure (c : Controller) (a : AuditRun) : AuditRun :=
  if a.slot < Config.slots then
    match slotOf c.table a.slot with
    | none => { a with slot := a.slot + 1 }
    | some e =>
      let v := entryCheck c.rules c.table a.slot e
      { a with slot := a.slot + 1
               findings := a.findings ++
                 [{ slot := a.slot, link := e.link, role := e.role, code := e.code, suspect := v.product < 0 }] }
  else
    match c.reserve[a.pos]? with
    | none => a
    | some e =>
      let v := reserveCheck c.rules c.table c.reserve a.pos e
      { a with pos := a.pos + 1, reserveMeasured := a.reserveMeasured + 1
               failing := if v.passes then a.failing else a.failing ++ [e.code] }

def AuditRun.run (c : Controller) : Nat → AuditRun → AuditRun
  | 0, a => a
  | n + 1, a => AuditRun.run c n (a.measure c)

/-- All that an audit still has to measure. -/
def AuditRun.toEnd (c : Controller) (a : AuditRun) : AuditRun :=
  a.run c (Config.slots - a.slot + (c.reserve.length - a.pos))

/-- One unit of the engine's work while SEARCHING. -/
def Service.work (s : State) (sv : Service) : Service :=
  if sv.awaiting then sv
  else
    match sv.req with
    | .query _ _ => { sv with search := sv.search.visit s.ctl }
    | .fill _ _ => { sv with search := sv.search.visit s.ctl }
    | .audit _ => { sv with audit := sv.audit.measure s.ctl }
    | .internalAudit => { sv with audit := sv.audit.measure s.ctl }
    | .planning req =>
      if sv.search.finished then nextRole req sv s else { sv with search := sv.search.visit s.ctl }

/-- n units of work. -/
def engineWork : Nat → State → State
  | 0, s => s
  | n + 1, s =>
    match s.eng.service with
    | none => s
    | some sv => engineWork n (setService (some (sv.work s)) s)

/-! ### Places of the plan queue (R42, R43) -/

/-- A planning request joins the queue, or the standby list. -/
def queuePlanning (r : PlanningReq) (s : State) : State :=
  if s.eng.freePlace && !s.placeWanted then { s with eng.queue := s.eng.queue ++ [.planning r] }
  else { s with eng.standby := s.eng.standby ++ [r] }

/-- PLAN_PLACE_GRANT. -/
def planPlaceGrantStep (s : State) : State :=
  if s.eng.freePlace then
    if s.eng.auditPending then
      { s with eng.queue := s.eng.queue ++ [.internalAudit], eng.auditPending := false }
    else
      match s.eng.standby with
      | r :: rest => { s with eng.queue := s.eng.queue ++ [.planning r], eng.standby := rest }
      | [] =>
        match s.disp.waiting with
        | some (.plan r) =>
          { s with eng.queue := s.eng.queue ++ [r], disp.waiting := none, disp.intake := s.disp.intake.tail }
        | _ => s
  else s

/-! ### Results (R49, R51, R54, R56) -/

def queryResults (c : Controller) (r : SearchRun) : Results :=
  [(0, leBytes r.best.length 1), (2, leBytes r.found 2), (4, leBytes r.evaluated 2), (6, leBytes r.carrierStart 2),
   (8, leBytes c.carrierGen 2), (0x0A, leBytes r.ruleStart 2), (0x0C, leBytes c.ruleGen 2)]
  ++ r.best.zipIdx.map fun (b, k) => (0x10 + 6 * k, leBytes b.1 4 ++ leBytesInt b.2 2)

/-- The results of a FILL_RESERVE; the fields of spares are free values when none was added. -/
def fillResults (openCount : Nat) (f : FillRun) : Results :=
  [(0, leBytes f.added 1), (2, leBytes f.restarts 2)] ++
  match f.first, f.last with
  | some a, some b =>
    [(4, leBytes a.1 4 ++ leBytesInt a.2 2), (0x0C, leBytes b.1 4 ++ leBytesInt b.2 2), (0x12, leBytesInt f.least 2)]
  | _, _ => [(4, openBytes openCount 6), (0x0C, openBytes (openCount + 6) 8)]

/-- The order ends; the engine is IDLE again. -/
def endPlanOrder (tag : OrderTag) (res : Results) (code : ResultCode) (s : State) : State :=
  setService none (doneOrder .engine tag res code none s)

def endFill (tag : OrderTag) (f : FillRun) (code : ResultCode) (s : State) : State :=
  let s' := endPlanOrder tag (fillResults s.openCount f) code s
  if f.first.isSome then s' else { s' with openCount := s.openCount + 14 }

/-- The next search of a FILL_RESERVE, or its end when the list holds 32 entries (R50). -/
def fillNext (tag : OrderTag) (p : PlanParams) (sv : Service) (s : State) : State :=
  if Config.reservePlaces ≤ s.ctl.reserve.length then endFill tag sv.fill .tableFull s
  else setService (some { sv with awaiting := false, search := orderSearch s.ctl p true }) s

/-! ### The steps -/

/-- PLAN_SERVICE_START (R44). -/
def planServiceStartStep (s : State) : State :=
  match s.eng.service, s.eng.queue with
  | none, req :: rest =>
    let s := { s with eng.queue := rest }
    let take (tag : OrderTag) (s : State) : State :=
      beginWork tag { s with disp.service := s.disp.service ++ [tag.cell] }
    let auditRun : AuditRun := { AuditRun.idle with gen := s.ctl.ruleGen }
    match req with
    | .query tag p => setService (some { Service.idle req with search := orderSearch s.ctl p false }) (take tag s)
    | .fill tag p => fillNext tag p (Service.idle req) (take tag s)
    | .audit tag => setService (some { Service.idle req with audit := auditRun }) (take tag s)
    | .internalAudit => setService (some { Service.idle req with audit := auditRun }) s
    | .planning r => setService (some (beginAttempt r (Service.idle req) s)) s
  | _, _ => s

/-- The engine's answer ends the planning request (R48). -/
def answerPlanning (r : PlanningReq) (sv : Service) (result : ResultCode) (afterCancel : Bool) (roles : List RoleAnswer)
    (nothingFor : Option Role) (s : State) : State :=
  let a : PlanAnswer :=
    { link := r.link, seq := r.seq, result := result, afterCancel := afterCancel, roles := roles, attempts := sv.attempts
      nothingFor := nothingFor, genChanged := sv.genChanged }
  setService none { s with mail.planAnswers := s.mail.planAnswers ++ [a] }

/-- The rest of an attempt's searches: the present role's, then those of the roles still to be searched. -/
def finishAttempt (req : PlanningReq) (s : State) : Nat → Service → Service
  | 0, sv => sv
  | n + 1, sv =>
    match sv.role with
    | none => sv
    | some _ =>
      let sv := { sv with search := sv.search.toEnd s.ctl }
      if sv.search.best = [] then sv else finishAttempt req s n (nextRole req sv s)

/-- PLANNING_ATTEMPT_END (R47): an attempt whose `role` is still set found nothing for that role. -/
def planningAttemptEndStep (s : State) : State :=
  match s.eng.service with
  | some sv =>
    match sv.req, sv.awaiting with
    | .planning r, false =>
      let sv := finishAttempt r s 2 sv
      let sv := { sv with genChanged := sv.genChanged || sv.search.carrierStart ≠ s.ctl.carrierGen }
      if sv.cancelMark then answerPlanning r sv .cancelled false [] none s
      else
        match sv.role with
        | some role => answerPlanning r sv .noCandidate false [] (some role) s
        | none =>
          let codes := r.given ++ sv.chosen.map fun c => (c.1, c.2.1)
          let roles := codes.filterMap fun c => (s.rolePlan r.link c.1).map fun p => (p, c.2)
          sendEngineInsert r.link r.seq roles (setService (some { sv with awaiting := true }) s)
    | _, _ => s
  | none => s

/-- PLANNING_INSERT_ANSWER (TABLE 3-2). -/
def planningInsertAnswerStep (s : State) : State :=
  match s.mail.engineAnswers, s.eng.service with
  | .inserted a :: rest, some sv =>
    match sv.req, sv.awaiting with
    | .planning r, true =>
      let s := insertAnswered a { s with mail.engineAnswers := rest }
      match a.result with
      | .ok => if sv.cancelMark then answerPlanning r sv .cancelled true a.roles none s
               else answerPlanning r sv .ok false a.roles none s
      | .contended =>
        if sv.cancelMark then answerPlanning r sv .cancelled false [] none s
        else if sv.restarts < 3 then setService (some (beginAttempt r { sv with restarts := sv.restarts + 1 } s)) s
        else answerPlanning r sv .contended false a.roles none s
      | .cancelled => answerPlanning r sv .cancelled false [] none s
      | e => if sv.cancelMark then answerPlanning r sv .cancelled false [] none s else answerPlanning r sv e false [] none s
    | _, _ => s
  | _, _ => s

/-- QUERY_SEARCH_END (R49). -/
def querySearchEndStep (s : State) : State :=
  match s.eng.service with
  | some sv =>
    match sv.req with
    | .query tag _ =>
      let r := sv.search.toEnd s.ctl
      endPlanOrder tag (queryResults s.ctl r) (if r.best = [] then .noCandidate else .ok) s
    | _ => s
  | none => s

/-- FILL_SEARCH_END (R50, R51). -/
def fillSearchEndStep (s : State) : State :=
  match s.eng.service with
  | some sv =>
    match sv.req, sv.awaiting with
    | .fill tag p, false =>
      let r := sv.search.toEnd s.ctl
      match r.best with
      | [] => endFill tag sv.fill (if sv.fill.added = 0 then .noCandidate else .ok) s
      | (code, _) :: _ =>
        pushRequest (.append code p.cls p.zone) (setService (some { sv with awaiting := true, search := r }) s)
    | _, _ => s
  | none => s

/-- A spare added, with the margin its search gave it. R51 reports the margin of the first and the last spare and the least margin, and
not whether the search or the APPEND's own check, on tables that may have changed between the two, gives it: that it is the search is
a DESIGN CHOICE, notes/assumptions/52. -/
def FillRun.add (f : FillRun) (spare : Nat × Int) : FillRun :=
  { f with added := f.added + 1, first := f.first.or (some spare), last := some spare, least := min f.least spare.2 }

/-- APPEND_ANSWER (R51). -/
def appendAnswerStep (s : State) : State :=
  match s.mail.engineAnswers, s.eng.service with
  | .appended result _ :: rest, some sv =>
    match sv.req, sv.awaiting with
    | .fill tag p, true =>
      let s := { s with mail.engineAnswers := rest }
      match result, sv.search.best with
      | .ok, spare :: _ =>
        let f := sv.fill.add spare
        let sv := { sv with fill := f, restarts := 0 }
        if f.added = p.count then endFill tag f .ok s else fillNext tag p sv s
      | .tableFull, _ => endFill tag sv.fill .tableFull s
      | _, _ =>
        if sv.restarts < 3 then
          fillNext tag p
            { sv with restarts := sv.restarts + 1, fill := { sv.fill with restarts := sv.fill.restarts + 1 } } s
        else endFill tag sv.fill .contended s
    | _, _ => s
  | _, _ => s

/-- AUDIT_MEASURING_END (R53). -/
def auditMeasuringEndStep (s : State) : State :=
  match s.eng.service with
  | some sv =>
    let send (s : State) : State :=
      let a := sv.audit.toEnd s.ctl
      pushRequest (.mark a.gen a.findings a.failing) (setService (some { sv with awaiting := true, audit := a }) s)
    match sv.req, sv.awaiting with
    | .audit _, false => send s
    | .internalAudit, false => send s
    | _, _ => s
  | none => s

def auditResults (a : AuditRun) (m : MarkAnswer) : Results :=
  [(0, leBytes a.findings.length 2), (2, leBytes m.conflict 2), (4, leBytes m.excluded 2), (6, leBytes m.imSuspect 2),
   (8, leBytes a.reserveMeasured 1), (9, leBytes m.removed 1), (0x0A, leBytes (if m.applied then 1 else 0) 1),
   (0x0C, leBytes a.gen 2)]

/-- MARK_ANSWER (R54). -/
def markAnswerStep (s : State) : State :=
  match s.mail.engineAnswers, s.eng.service with
  | .marked m :: rest, some sv =>
    let s := { s with mail.engineAnswers := rest }
    match sv.req with
    | .audit tag => endPlanOrder tag (auditResults sv.audit m) .ok s
    | _ => setService none s
  | _, _ => s

/-- A cancelled request that was not in service is answered CANCELLED. R48 gives the count of attempts as 1 to 4, and no attempt was
made here: that the answer carries 0 is a DESIGN CHOICE, notes/assumptions/53. -/
def answerUnstarted (r : PlanningReq) (s : State) : State :=
  let a : PlanAnswer :=
    { link := r.link, seq := r.seq, result := .cancelled, afterCancel := false, roles := [], attempts := 0
      nothingFor := none, genChanged := false }
  { s with mail.planAnswers := s.mail.planAnswers ++ [a] }

def PlanReq.isPlanning (link seq : Nat) : PlanReq → Bool
  | .planning r => r.link = link && r.seq = seq
  | _ => false

/-- CANCEL (R52). -/
def cancelStep (s : State) : State :=
  match s.mail.cancels with
  | [] => s
  | (link, seq) :: rest =>
    let s := { s with mail.cancels := rest }
    match takeFirst (fun r : PlanningReq => r.link = link && r.seq = seq) s.eng.standby with
    | some (r, others) => answerUnstarted r { s with eng.standby := others }
    | none =>
      match takeFirst (PlanReq.isPlanning link seq) s.eng.queue with
      | some (.planning r, others) => answerUnstarted r { s with eng.queue := others }
      | _ =>
        match s.eng.service with
        | some sv =>
          if sv.req.isPlanning link seq then setService (some { sv with cancelMark := true }) s else s
        | none => s

end Sys2Proof.Machine
end

