-- ==== Sys2Proof/Machine/Links.lean ====
section
/-! DEFINITION. Chapter 4: the link supervisor's shared operations: the one way a link's record changes, health, holds,
failover, the tune sequence and the completion of link orders. -/

namespace Sys2Proof.Machine

/-! ### The one way a link changes (R60) -/

def linkReport (i : Nat) (old new : LinkRec) (s : State) : JReport :=
  { kind := .link, stamp := s.now, subject := i, values := values old.value new.value, dropped := false, clamped := false
    flagOf := .linkRec i, notice := .none }

def LinkRec.withHealths (l : LinkRec) (o n : Option Health) : LinkRec := { l with outRec.health := o, inRec.health := n }

/-- The changes that one change of a record makes, each with the record before and after it: the state with the hold, the flags and
the failover block (one LINK entry in TABLE 4-9 step 2, TABLE 4-10 variation D and TABLE 9-3 step 3), then each role's health with
the link health that results (entries of their own in TABLE 4-9 step 11). This grouping is DEDUCED, and that OUTBOUND comes before
INBOUND a DESIGN CHOICE (notes/assumptions/20). -/
def linkMoves (old new : LinkRec) : List (LinkRec × LinkRec) :=
  let a := new.withHealths old.outRec.health old.inRec.health
  let b := new.withHealths new.outRec.health old.inRec.health
  [(old, a), (a, b), (b, new)]

/-- Each change of the value a LINK entry carries is reported (R60, R93). -/
def tellJournal (i : Nat) (old new : LinkRec) (s : State) : State :=
  (linkMoves old new).foldl
    (fun s m => if m.1.value = m.2.value then s else report .supervisor (linkReport i m.1 m.2 s) s) s

/-- A link health that becomes STALE or LOST (R90), or a failover block that leaves NONE (R74), raises ALARM; the records compared are
those before and after the whole change (DESIGN CHOICE, notes/assumptions/20). -/
def alarmOn (old new : LinkRec) (s : State) : State :=
  let s := if old.health ≠ new.health && (new.health = some .stale || new.health = some .lost) then alarm s else s
  if old.block = .clear && new.block ≠ .clear then alarm s else s

/-- A change of state of a CAMERA-kind link reaches the tally unit (R107); a change of state or link health the router
(R124). -/
def tellViews (i : Nat) (old new : LinkRec) (s : State) : State :=
  let s :=
    if old.state ≠ new.state && (s.linkDef i).any (fun d => d.kind = .camera) then
      { s with mail.linkToTally := s.mail.linkToTally ++ [(i, new.state)] }
    else s
  if old.state ≠ new.state || old.health ≠ new.health then
    { s with mail.linkToRouter := s.mail.linkToRouter ++ [(i, new.state, new.health)] }
  else s

/-- Give a link new contents. -/
def setLink (i : Nat) (l : Link) (s : State) : State :=
  let old := s.linkRec i
  let s := { s with sup.links := put s.sup.links i l }
  tellViews i old l.vis (alarmOn old l.vis (tellJournal i old l.vis s))

def modLink (i : Nat) (f : Link → Link) (s : State) : State := setLink i (f (s.link i)) s

/-! ### Entries of a link in the carrier table -/

/-- The entries a link holds, in slot order. -/
def entriesOf (s : State) (i : Nat) : List CarrierEntry :=
  s.ctl.table.filterMap fun o => o.bind fun e => if e.link = i then some e else none

def removal (e : CarrierEntry) : CarrierChange := { role := e.role, code := e.code, change := .remove }

def becoming (t : CarrierState) (e : CarrierEntry) : CarrierChange := { role := e.role, code := e.code, change := .become t }

/-- The sequence's roles with their new codes. -/
def LinkRec.newCodes (l : LinkRec) : List (Role × Nat) :=
  ((if l.seqOut then l.outRec.fresh.map fun c => (Role.outbound, c) else none).toList)
  ++ ((if l.seqIn then l.inRec.fresh.map fun c => (Role.inbound, c) else none).toList)

def LinkRec.inSequence (l : LinkRec) : Role → Bool
  | .outbound => l.seqOut
  | .inbound => l.seqIn

/-- Send an UPDATE; nothing is sent for an empty list of changes. -/
def sendUpdate (i : Nat) (changes : List CarrierChange) (s : State) : State :=
  if changes = [] then s else sendLink i (.update i (s.link i).aux.seq false changes) s

/-- One UPDATE removing the sequence's new entries (R65, R72). -/
def removeNew (i : Nat) (s : State) : State :=
  sendUpdate i ((s.linkRec i).newCodes.map fun c => { role := c.1, code := c.2, change := .remove }) s

/-! ### Health (R73, R92, R93) -/

/-- A role takes a health; degraded-since is set when it becomes DEGRADED and cleared when it becomes anything else. -/
def Link.setHealth (s : State) (r : Role) (h : Option Health) (l : Link) : Link :=
  let x := l.vis.role r
  if x.health = h then l
  else
    let degraded := h = some Health.degraded
    let x := { x with health := h, degradedSince := if degraded then some s.now else none }
    let start := if degraded then some s.tb.elapsed else none
    { vis := l.vis.setRole r x
      aux := match r with
        | .outbound => { l.aux with outDegradedAt := start }
        | .inbound => { l.aux with inDegradedAt := start } }

def Link.setCounts (r : Role) (bad good : Nat) (l : Link) : Link :=
  { l with vis := l.vis.setRole r { l.vis.role r with badRun := bad, goodRun := good } }

/-- Health and both counts at 0. -/
def Link.settle (s : State) (r : Role) (h : Option Health) (l : Link) : Link := (l.setHealth s r h).setCounts r 0 0

def Link.degradedAt (l : Link) : Role → Option Nat
  | .outbound => l.aux.outDegradedAt
  | .inbound => l.aux.inDegradedAt

/-- Grades of a rated report (R92). -/
inductive Grade where
  | lost
  | bad
  | good
  deriving DecidableEq, Repr

def gradeOf (k : ClassDef) (present : Option Nat) (r : RoleReport) : Grade :=
  if !r.on || r.level = -120 then .lost
  else if r.level < k.floor || k.ceiling < r.quality || present.any (fun c => c ≠ r.code) then .bad
  else .good

/-- TABLE 5-5, with persistence P. An absent health is rated as LOST. -/
def rateRole (s : State) (p : Nat) (r : Role) (g : Grade) (l : Link) : Link :=
  let x := l.vis.role r
  match x.health, g with
  | some .good, .lost => l.settle s r (some .lost)
  | some .good, .bad =>
    if p ≤ x.badRun + 1 then l.settle s r (some .degraded) else l.setCounts r (x.badRun + 1) 0
  | some .good, .good => l.setCounts r 0 x.goodRun
  | some .degraded, .lost => l.settle s r (some .lost)
  | some .degraded, .bad => l.setCounts r x.badRun 0
  | some .degraded, .good =>
    if p ≤ x.goodRun + 1 then l.settle s r (some .good) else l.setCounts r x.badRun (x.goodRun + 1)
  | some .stale, .lost => l.settle s r (some .lost)
  | some .stale, .bad => l.settle s r (some .degraded)
  | some .stale, .good => l.settle s r (some .good)
  | _, .good => l.settle s r (some .good)
  | _, _ => l.settle s r (some .lost)

/-- Each declared role whose health is GOOD or DEGRADED becomes STALE (R90). -/
def Link.goStale (s : State) (d : LinkDef) (l : Link) : Link :=
  d.declared.foldl (fun l r =>
    let h := (l.vis.role r).health
    if h = some .good ∨ h = some .degraded then l.setHealth s r (some .stale) else l) l

/-- Each declared role that is not LOST becomes LOST, counts 0 (R94). -/
def Link.goLost (s : State) (d : LinkDef) (l : Link) : Link :=
  d.declared.foldl (fun l r => if (l.vis.role r).health = some .lost then l else l.settle s r (some .lost)) l

def LinkRec.rated (l : LinkRec) : Bool := l.state = .active || l.state = .holding

/-- What an entry into ACTIVE or HOLDING finds (R90, R94): a stale timer that has expired, then a miss count at its limit, each a
move of its own (DESIGN CHOICE, notes/assumptions/45: neither rule is put first). -/
def entryHealth (i : Nat) (s : State) : State :=
  match s.linkDef i with
  | none => s
  | some d =>
    let s := if (s.linkRec i).rated && (s.link i).aux.staleExpired then modLink i (Link.goStale s d) s else s
    if (s.linkRec i).rated && s.sup.settings.missLimit ≤ (s.linkRec i).misses then modLink i (Link.goLost s d) s else s

/-- Healths of both roles, to see whether they changed. -/
def roleHealths (s : State) (i : Nat) : Option Health × Option Health :=
  ((s.linkRec i).outRec.health, (s.linkRec i).inRec.health)

/-! ### Sequences -/

/-- A sequence begins: its kind, phase and roles; the link's earlier requests and outcomes belong to older sequences. -/
def Link.startSequence (kind : SeqKind) (phase : Phase) (roleOut roleIn : Bool) (l : Link) : Link :=
  { vis := { l.vis with
      seqKind := kind, phase := phase, seqOut := roleOut, seqIn := roleIn, repeats := 0
      outRec := { l.vis.outRec with fresh := none }, inRec := { l.vis.inRec with fresh := none } }
    aux := { l.aux with
      seq := l.aux.seq + 1, tuneBegun := false, unmuteBegun := false, planOut := false, answerOut := none
      answerIn := none, guardAt := none, settleAt := none, pollAt := none } }

/-- A sequence ends or is abandoned: kind and phase NONE, its new codes forgotten, its timers stopped. -/
def Link.endSequence (l : Link) : Link := l.startSequence .noSequence .noPhase false false

/-- The new codes of the sequence's roles become the present codes. -/
def Link.keepNew (l : Link) : Link :=
  let f (inSeq : Bool) (x : RoleRec) : RoleRec :=
    if inSeq && x.fresh.isSome then { x with present := x.fresh } else x
  { l with vis := { l.vis with outRec := f l.vis.seqOut l.vis.outRec, inRec := f l.vis.seqIn l.vis.inRec } }

/-- The hold of a link ends; the frames it lasted are counted (R62). -/
def Link.endHold (s : State) (l : Link) : Link :=
  if l.vis.hold = none then l
  else
    { vis := { l.vis with hold := none, holdStart := none }
      aux := { l.aux with framesHeld := l.aux.framesHeld + (s.tb.frames - l.aux.holdFrame), holdAt := none, holdTimer := false } }

/-- The largest of a class field among the sequence's roles (R66, R67). -/
def largestOf (s : State) (i : Nat) (field : ClassDef → Nat) : Nat :=
  let l := s.linkRec i
  match s.linkDef i with
  | none => 0
  | some d =>
    (bothRoles.filter l.inSequence).foldl (fun m r =>
      match d.role r with
      | none => m
      | some x => max m (field (s.ctl.rules.cls x.cls))) 0

/-! ### CONTROL requests of a link -/

/-- A link's CONTROL request for some roles, with the codes of its record's new codes. -/
def controlReq (s : State) (i : Nat) (d : LinkDef) (kind : ControlKind) (o n : Bool) : ControlReq :=
  let l := s.link i
  { link := i, seq := l.aux.seq
    forRetune := (l.vis.seqKind = .retune || l.vis.seqKind = .failover) && !l.aux.permitKept
    unit := d.unit, chan := d.chan, kind := kind, roleOut := o, roleIn := n
    codeOut := l.vis.outRec.fresh.getD 0, codeIn := l.vis.inRec.fresh.getD 0 }

def queueControl (i : Nat) (kind : ControlKind) (o n : Bool) (s : State) : State :=
  match s.linkDef i with
  | none => s
  | some d => placeControl (controlReq s i d kind o n) s

/-- A TUNE or a settle poll of the sequence. -/
def queueForSequence (i : Nat) (kind : ControlKind) (s : State) : State :=
  queueControl i kind (s.linkRec i).seqOut (s.linkRec i).seqIn s

/-- A MUTE or UNMUTE naming every declared role. -/
def queueDeclared (i : Nat) (kind : ControlKind) (s : State) : State :=
  match s.linkDef i with
  | none => s
  | some d => queueControl i kind d.outRole.isSome d.inRole.isSome s

/-! ### Completion of link orders (R62) -/

/-- The block of a role: its insertion, or its failing quick check; free bytes when it had neither. -/
def roleBlock (openCount : Nat) (a : Option RoleAnswer) : List Byte :=
  match a with
  | none => openBytes openCount 12
  | some a =>
    match a.verdict with
    | none => openBytes openCount 12
    | some v =>
      leBytes a.code 4 ++ leBytes (a.slot.getD 0xFF) 1 ++ leBytes v.eligibility.toNat 1 ++ leBytesInt v.margin 2
        ++ leBytesInt v.spacing 2 ++ leBytesInt v.product 2

/-- Results of ENABLE_LINK and RETUNE_LINK. An order that ends at the CANCEL of its planning request, before the engine's answer,
reports the attempts of its last answered request, 0 if it had none (DESIGN CHOICE, notes/assumptions/38: R62 and R48 give no count
there). -/
def sequenceResults (openCount : Nat) (l : Link) (frames : Nat) : Results :=
  [(0, leBytes l.vis.phase.toNat 1), (1, leBytes l.aux.attempts 1), (4, leBytes frames 4)]
  ++ (if l.vis.seqOut then [(8, roleBlock openCount l.aux.answerOut)] else [])
  ++ (if l.vis.seqIn then [(0x14, roleBlock (openCount + 12) l.aux.answerIn)] else [])

def ParkMute.toNat : ParkMute → Nat
  | .notNeeded => 0
  | .waiting => 0
  | .answered => 1
  | .failed => 2

/-- Results of PARK_LINK; the outcome of a MUTE that has not ended is a free value. One that ends before its PURGE is answered reports
0 entries removed (DESIGN CHOICE, notes/assumptions/25: R62 gives no value). -/
def parkResults (openCount : Nat) (l : Link) : Results :=
  [(0, leBytes l.aux.parkLeft.toNat 1), (1, leBytes l.aux.parkRemoved 1),
   (2, if l.aux.parkMute = .waiting then openBytes openCount 1 else leBytes l.aux.parkMute.toNat 1)]

/-- The link's order in service completes with this code; its results are those of the link as it stood in `l`. -/
def completeLinkOrder (i : Nat) (l : Link) (code : ResultCode) (s : State) : State :=
  match l.aux.order with
  | none => s
  | some o =>
    let res :=
      if o.kind = .park then parkResults s.openCount l
      else sequenceResults s.openCount l (l.endHold s).aux.framesHeld
    let s := doneOrder .supervisor o.tag res code (some i) s
    modLink i (fun l => { vis := { l.vis with orderCell := none }, aux := { l.aux with order := none } })
      { s with openCount := s.openCount + 24 }

/-- A refused link order: nothing was reached (R61, R62). -/
def refuseLinkOrder (o : LinkOrder) (code : ResultCode) (s : State) : State :=
  let res : Results :=
    if o.kind = .park then [(0, leBytes (s.linkRec o.link).state.toNat 1), (1, leBytes 0 1), (2, leBytes 0 1)]
    else [(0, leBytes 0 1), (1, leBytes 0 1), (4, leBytes 0 4)]
  refuseOrder .supervisor o.tag res code (some o.link) s

/-- A refusal BAD_PARAMETER writes the offset of the refused parameter (R170). -/
def refuseLinkParameter (o : LinkOrder) (offset : Nat) (s : State) : State :=
  refuseOrder .supervisor o.tag [(0, leBytes offset 1)] .badParameter (some o.link) s

/-- A taken order is the link's order in service, and its cell is written WORKING. Frames held are counted from here on, so that a
failover hold that it ends adds nothing to them. -/
def takeLinkOrder (o : LinkOrder) (s : State) : State :=
  beginWork o.tag (modLink o.link (fun l =>
    { vis := { l.vis with orderCell := some o.tag.cell }
      aux := { l.aux with
        order := some o, attempts := 0, framesHeld := 0, holdFrame := s.tb.frames, answerOut := none, answerIn := none } }) s)

/-! ### Holds and failover (R70 to R74) -/

/-- The link goes HOLDING with a new hold start and, for a limit that is not 0, a hold-limit timer. The sequence of a retune that
goes back to holding (R72) ends here, so that an order which ends in this hold reports the phase NONE and no role block (DESIGN
CHOICE, notes/assumptions/40: R62 asks for the phase the sequence reached). -/
def beginHold (i : Nat) (reason : HoldReason) (s : State) : State :=
  let limit := match s.linkDef i with
    | some d => d.holdS
    | none => 0
  entryHealth i (modLink i (fun l =>
    let l := (l.endHold s).endSequence
    { vis := { l.vis with state := .holding, hold := some reason, holdStart := some s.now }
      aux := { l.aux with holdAt := some s.tb.elapsed, holdTimer := limit ≠ 0, holdFrame := s.tb.frames } }) s)

/-- Failover applies to a link with an OUTBOUND role and the auto-failover flag (R73). -/
def LinkDef.failsOver (d : LinkDef) : Bool := d.auto && d.outRole.isSome

/-- A role is failing when it is LOST, or has been DEGRADED for at least the failover delay. -/
def failingRole (s : State) (d : LinkDef) (l : Link) (r : Role) : Bool :=
  match (l.vis.role r).health with
  | some .lost => true
  | some .degraded => (l.degradedAt r).any fun t => t + d.delayS * Config.unitsPerSecond ≤ s.tb.elapsed
  | _ => false

def failingRoles (s : State) (i : Nat) : List Role :=
  match s.linkDef i with
  | none => []
  | some d => if d.failsOver then d.declared.filter (failingRole s d (s.link i)) else []

def failoverWanted (s : State) (i : Nat) : Bool := failingRoles s i ≠ []

/-- A failover that proceeds (R74). -/
def proceedFailover (i : Nat) (permitKept : Bool) (s : State) : State :=
  let roles := failingRoles s i
  let s := modLink i (fun l =>
    let l := (l.endHold s).startSequence .failover .inserting (roles.contains .outbound) (roles.contains .inbound)
    { vis := { l.vis with state := .retuning }, aux := { l.aux with began := .active, permitKept := permitKept } }) s
  sendLink i (.take i (s.link i).aux.seq (roles.filterMap fun r => s.rolePlan i r)) s

/-- An evaluation of failover (R73); while the retry timer runs it starts no take (R74), and no hold either. An evaluation that
finds no failover wanted leaves the failover block: R74 clears it at a retry expiry (DESIGN CHOICE, notes/assumptions/39). -/
def evaluateFailover (i : Nat) (s : State) : State :=
  let l := s.link i
  if l.vis.state = .active && l.aux.order.isNone && !s.kc.asserted && failoverWanted s i && l.aux.retryAt.isNone then
    if s.linkOnProgramme i then beginHold i .failover s else proceedFailover i false s
  else s

/-- A FAILOVER hold ends when the failover is no longer wanted (R71). A kill that the link supervisor has not yet taken does not
stop this test: R148 has failover not evaluated while the kill state is ASSERTED, R71 re-evaluates a hold without that exception, and
that the hold is re-evaluated is a DESIGN CHOICE, notes/assumptions/58. -/
def recheckHold (i : Nat) (s : State) : State :=
  let l := s.link i
  if l.vis.state = .holding && l.vis.hold = some .failover && !failoverWanted s i then
    evaluateFailover i (entryHealth i (modLink i (fun l =>
      let l := l.endHold s
      { l with vis := { l.vis with state := .active } }) s))
  else s

/-- After a change of the health of one role or of both: failover is evaluated, or the hold re-evaluated. That a step which changes
both brings one evaluation, after both changes, is a DESIGN CHOICE, notes/assumptions/56 (R71 and R73 name each change of a role's
health). -/
def healthChanged (i : Nat) (s : State) : State :=
  if (s.linkRec i).state = .holding then recheckHold i s else evaluateFailover i s

def healthChangedFrom (before : Option Health × Option Health) (i : Nat) (s : State) : State :=
  if roleHealths s i = before then s else healthChanged i s

/-- The link's entry into ACTIVE, its settings already made: stale and missed units, then the failover evaluation. -/
def enterActive (i : Nat) (s : State) : State := evaluateFailover i (entryHealth i s)

/-- A retune goes back to holding (R72): its new entries are removed and the link is HOLDING with the same reason. -/
def holdAgain (i : Nat) (s : State) : State :=
  let reason := if (s.linkRec i).seqKind = .failover then HoldReason.failover else HoldReason.order
  let before := roleHealths s i
  let s := beginHold i reason (removeNew i s)
  if reason = .failover && roleHealths s i ≠ before then recheckHold i s else s

/-! ### The tune sequence (R65 to R68) -/

/-- TUNE_SENT: the TUNE is queued in the CONTROL class. -/
def goTuneSent (i : Nat) (s : State) : State :=
  queueForSequence i .tune (modLink i (fun l => { l with vis := { l.vis with phase := .tuneSent } }) s)

/-- Keep the controller's word about the roles of a sequence. -/
def keepAnswers (roles : List RoleAnswer) (l : Link) : Link :=
  roles.foldl (fun l a =>
    match a.role with
    | .outbound => { l with aux := { l.aux with answerOut := some a } }
    | .inbound => { l with aux := { l.aux with answerIn := some a } }) l

/-- The new codes of an insertion. -/
def keepCodes (roles : List RoleAnswer) (l : Link) : Link :=
  roles.foldl (fun l a => { l with vis := l.vis.setRole a.role { l.vis.role a.role with fresh := some a.code } }) l

/-- Every new entry of the sequence is in the table (R65, insertion answered OK). -/
def inserted (i : Nat) (roles : List RoleAnswer) (s : State) : State :=
  let s := modLink i (fun l =>
    let l := keepAnswers roles (keepCodes roles l)
    { l with vis := { l.vis with state := if l.vis.state = .planning then .tuning else l.vis.state } }) s
  let l := s.link i
  if (l.vis.seqKind = .retune || l.vis.seqKind = .failover) && !l.aux.permitKept && s.linkOnProgramme i then holdAgain i s
  else goTuneSent i s

/-- The sequence ends, and the link is in the state it began from (TABLE 4-7). -/
def Link.backToStart (l : Link) : Link := { l.endSequence with vis := { l.endSequence.vis with state := l.aux.began } }

/-- The link returns, changed by f, to the state its sequence began from (TABLE 4-7), and the order, if any, completes. -/
def returnWith (f : Link → Link) (i : Nat) (code : ResultCode) (s : State) : State :=
  let was := s.link i
  let s := completeLinkOrder i was code (modLink i (fun l => (f l).backToStart) s)
  if was.aux.began = .active then enterActive i s else s

def returnToStart (i : Nat) (code : ResultCode) (s : State) : State := returnWith id i code s

/-- A failover ends without a new carrier: the block is set and the retry timer runs for one supervision period (R74). -/
def Link.blockFailover (s : State) (b : FailoverBlock) (l : Link) : Link :=
  { vis := { l.vis with block := b }
    aux := { l.aux with retryAt := some (s.tb.elapsed + s.sup.settings.periodMs * Config.unitsPerMs) } }

/-- A failover that ends so (R74): the block and the return to the state it began from are one change of the link (TABLE 4-10,
variation D). -/
def returnBlocked (b : FailoverBlock) (i : Nat) (code : ResultCode) (s : State) : State :=
  returnWith (Link.blockFailover s b) i code s

/-- The link goes FAULTED; its new entries stay, and the order completes FAULTED (R67, R68, R149). -/
def faultLink (i : Nat) (s : State) : State :=
  let was := s.link i
  completeLinkOrder i was .faulted (modLink i (fun l =>
    let l := l.keepNew.endSequence
    { l with vis := { l.vis with state := .faulted } }) s)

/-- The controller's INSERT for roles with given codes, their class, zone, range and grid read from the working definition. -/
def sendInsert (i : Nat) (codes : List (Role × Nat)) (s : State) : State :=
  sendLink i (.insert false i (s.link i).aux.seq (codes.filterMap fun c => (s.rolePlan i c.1).map fun p => (p, c.2))) s

def LinkOrder.code (o : LinkOrder) : Role → Option Nat
  | .outbound => o.codeOut
  | .inbound => o.codeIn

def LinkOrder.names (o : LinkOrder) : Role → Bool
  | .outbound => o.roleOut
  | .inbound => o.roleIn

/-- Roles of an order's sequence without a given code, and the given codes of the others. -/
def LinkOrder.toSearch (o : LinkOrder) (roles : List Role) : List Role := roles.filter fun r => (o.code r).isNone

def LinkOrder.given (o : LinkOrder) (roles : List Role) : List (Role × Nat) :=
  roles.filterMap fun r => (o.code r).map fun c => (r, c)

/-- A sequence of an order asks for its entries: from the plan engine if some role is to be searched, else by its own
INSERT (R63, R69). -/
def seekEntries (i : Nat) (o : LinkOrder) (roles : List Role) (s : State) : State :=
  if o.toSearch roles = [] then sendInsert i (o.given roles) s
  else
    let req (s : State) : PlanningReq :=
      { retune := o.kind = .retune, link := i, cell := o.tag.cell, seq := (s.link i).aux.seq, search := o.toSearch roles
        given := o.given roles }
    let s := modAux i (fun a => { a with planOut := true }) s
    queuePlanning (req s) s

/-- A retune that proceeds (R69). -/
def proceedRetune (i : Nat) (permitKept : Bool) (s : State) : State :=
  let l := s.link i
  match l.aux.order with
  | none => s
  | some o =>
    let began := if l.vis.state = .faulted then LinkState.faulted else .active
    let s := modLink i (fun l =>
      let l := (l.endHold s).startSequence .retune .inserting o.roleOut o.roleIn
      { vis := { l.vis with state := .retuning, retuneNeeded := if began = .faulted then false else l.vis.retuneNeeded }
        aux := { l.aux with began := began, permitKept := permitKept } }) s
    seekEntries i o (bothRoles.filter o.names) s

/-- A hold ends and the retune or failover it deferred proceeds (R71), also between a kill's assertion and the step in which the
link supervisor takes it (DESIGN CHOICE, notes/assumptions/58). -/
def proceedFromHold (i : Nat) (permitKept : Bool) (s : State) : State :=
  match (s.linkRec i).hold with
  | some .order => proceedRetune i permitKept s
  | some .failover => if failoverWanted s i then proceedFailover i permitKept s else recheckHold i s
  | none => s

/-- The hold of a link whose camera shows no programme ends (R71). -/
def recheckTally (i : Nat) (s : State) : State :=
  if (s.linkRec i).state = .holding && !s.linkOnProgramme i then proceedFromHold i false s else s

/-- SETTLING begins at the end of the guard interval (R66, R67). -/
def guardEnds (i : Nat) (s : State) : State :=
  let l := s.linkRec i
  let old := (entriesOf s i).filter fun e =>
    l.inSequence e.role && (l.role e.role).fresh ≠ some e.code
  let len := largestOf s i ClassDef.settleMs * Config.unitsPerMs
  let s := modLink i (fun l =>
    { vis := { l.vis with phase := .settling, repeats := 0 }
      aux := { l.aux with guardAt := none, settleLen := len, settleAt := some (s.tb.elapsed + len) } }) s
  queueForSequence i .settlePoll (sendUpdate i (old.map removal) s)

/-- The TUNE is acknowledged: GUARD, whose interval of 0 expires at once (R66). -/
def goGuard (i : Nat) (s : State) : State :=
  let g := largestOf s i ClassDef.guardMs * Config.unitsPerMs
  let s := modLink i (fun l =>
    { vis := { l.vis with phase := .guarding }, aux := { l.aux with guardAt := some (s.tb.elapsed + g) } }) s
  if g = 0 then guardEnds i s else s

/-- UNMUTING: the UNMUTE is queued (R68); it names the sequence's roles. -/
def goUnmuting (i : Nat) (s : State) : State :=
  let s := modLink i (fun l =>
    { vis := { l.vis with phase := .unmuting }, aux := { l.aux with settleAt := none, pollAt := none } }) s
  queueForSequence i .unmute s

/-- 10 ms from the end of a settle poll's transaction to the next settle poll (R67). -/
def settlePollGap : Nat := 10 * Config.unitsPerMs

/-- The settle-poll timer starts. -/
def startPollTimer (i : Nat) (s : State) : State :=
  modAux i (fun a => { a with pollAt := some (s.tb.elapsed + settlePollGap) }) s

/-- A settle poll of the link's sequence waits, is in progress, or has ended with its outcome not yet taken. -/
def pollOutstanding (s : State) (i : Nat) : Bool :=
  let seq := (s.link i).aux.seq
  let mine (r : ControlReq) : Bool := r.link = i && r.seq = seq && r.kind = .settlePoll
  s.ul.controlQ.any mine
    || s.ul.xact.any (fun x => match x.req with
        | .controlReq r => mine r
        | _ => false)
    || s.mail.controlOutcomes.any fun o => o.link = i && o.seq = seq && o.kind = .settlePoll

/-- After a repeated TUNE, settle polls follow as before (R67): the timer starts unless it runs or a settle poll, whose own end
starts it, is still to end. -/
def resumePolls (i : Nat) (s : State) : State :=
  if (s.link i).aux.pollAt.isSome || pollOutstanding s i then s else startPollTimer i s

/-- Every declared role of the link holds an entry of the carrier table. -/
def everyRoleHeld (s : State) (i : Nat) : Bool :=
  match s.linkDef i with
  | none => false
  | some d => d.declared.all fun r => (entriesOf s i).any fun e => e.role = r

/-- The LIVE UPDATE is answered: the link becomes ACTIVE (R68, R149). -/
def goActive (i : Nat) (s : State) : State :=
  let was := s.link i
  let held := everyRoleHeld s i
  let roles := bothRoles.filter was.vis.inSequence
  let s := modLink i (fun l =>
    let l := roles.foldl (fun l r => l.settle s r (some .good)) l.keepNew
    let l := l.endSequence
    { l with vis := { l.vis with
        state := .active, block := .clear, retuneNeeded := false, untracked := l.vis.untracked && !held } }) s
  enterActive i (completeLinkOrder i was .ok s)

/-- The changes of a link's own UPDATE. -/
def CtlReq.changesOf (i : Nat) : CtlReq → List CarrierChange
  | .update l _ _ changes => if l = i then changes else []
  | _ => []

/-- The changes of a link's UPDATEs that the controller has still to make, in the order in which it will make them. -/
def pendingChanges (s : State) (i : Nat) : List CarrierChange :=
  let a := (s.link i).aux
  s.ctl.queue.flatMap (CtlReq.changesOf i) ++ a.held.flatMap (CtlReq.changesOf i)
    ++ a.killChanges ++ a.afterKill.flatMap (CtlReq.changesOf i)

/-- An entry after a change of an UPDATE that may name it (R31). -/
def CarrierEntry.after (e : CarrierEntry) (c : CarrierChange) : Option CarrierEntry :=
  if e.role = c.role && e.code = c.code then
    match c.change with
    | .remove => none
    | .become t => some (if allowedChange e.state t then { e with state := t } else e)
  else some e

/-- The entries of a link as the UPDATEs it has sent leave them: those of a kill may still be on their way when the link
supervisor takes the release (R147, R149; notes/assumptions/19). -/
def settledEntries (s : State) (i : Nat) : List CarrierEntry :=
  (entriesOf s i).filterMap fun e => (pendingChanges s i).foldl (fun o c => o.bind fun e => e.after c) (some e)

/-- The code of a role's SILENT entry. -/
def silentCode (s : State) (i : Nat) (r : Role) : Option Nat :=
  ((settledEntries s i).find? fun e => e.role = r && e.state = .silent).map (·.code)

/-- The PARK order completes once its PURGE is answered and its MUTE has ended (R75). -/
def tryCompletePark (i : Nat) (s : State) : State :=
  let l := s.link i
  match l.aux.order with
  | some o =>
    if o.kind = .park && l.aux.purges = 0 && l.aux.parkMute ≠ .waiting then
      evaluateFailover i (completeLinkOrder i l (if l.aux.parkMute = .failed then .timeout else .ok) s)
    else s
  | none => s

/-- A request of the link's restoration takes the place of a PARK's MUTE that still waits (R85): the MUTE is not sent, and counts
as failed (DESIGN CHOICE, notes/assumptions/35). -/
def displaceMute (i : Nat) (s : State) : State :=
  if s.ul.controlQ.any fun x => x.link = i && x.kind = .mute then
    modAux i (fun a => { a with parkMute := .failed }) s
  else s

/-- A restoration begins on a KILLED link (R149): its roles are the declared roles that hold a SILENT entry, and its new codes
those of these entries. -/
def beginRestore (i : Nat) (s : State) : State :=
  match s.linkDef i with
  | none => s
  | some d =>
    let silent (r : Role) : Option Nat := if (d.role r).isSome then silentCode s i r else none
    let needed := (s.linkRec i).retuneNeeded
    let s := modLink i (fun l =>
      let l := l.startSequence .restore (if needed then .tuneSent else .unmuting) (silent .outbound).isSome
        (silent .inbound).isSome
      { vis := { l.vis with
          outRec := { l.vis.outRec with fresh := silent .outbound }, inRec := { l.vis.inRec with fresh := silent .inbound } }
        aux := { l.aux with began := .killed, permitKept := false } }) s
    if needed then queueForSequence i .tune s else queueDeclared i .unmute s

end Sys2Proof.Machine
end

