-- ==== Sys2Proof/Machine/LinkSteps.lean ====
section
/-! DEFINITION. The steps of the link supervisor: link orders, answers of the plan engine and the controller, outcomes of
CONTROL transactions, timers, unit reports, tally changes, and the kill (chapters 4, 5 and 9). -/

namespace Sys2Proof.Machine

/-! ### Link orders (R61, TABLE 4-5) -/

/-- A code is given for a role the definition does not declare. -/
def givesUndeclared (o : LinkOrder) (d : LinkDef) : Bool := bothRoles.any fun r => (o.code r).isSome && (d.role r).isNone

/-- A RETUNE_LINK whose role set is empty or names an undeclared role. -/
def badRoleSet (o : LinkOrder) (d : LinkDef) : Bool :=
  (!o.roleOut && !o.roleIn) || bothRoles.any fun r => o.names r && (d.role r).isNone

/-- Tests 2 to 5 of R61 for ENABLE_LINK: the refusal, or none; BAD_PARAMETER writes the offset of the fixed-code role set (DESIGN
CHOICE, notes/assumptions/38). -/
def enableRefusal (o : LinkOrder) (s : State) : Option (ResultCode × Option Nat) :=
  if s.kc.asserted then some (.killed, none)
  else if (s.linkDef o.link).any (givesUndeclared o) then some (.badParameter, some 1)
  else if (s.link o.link).aux.order.isSome || s.adopt.barred.contains o.link then some (.busy, none)
  else
    match (s.linkRec o.link).state with
    | .parked => none
    | .faulted => none
    | .planning => some (.busy, none)
    | .tuning => some (.busy, none)
    | .retuning => some (.busy, none)
    | .holding => some (.busy, none)
    | .killed => some (.busy, none)
    | .vacant => some (.wrongState, none)
    | .learning => some (.wrongState, none)
    | .active => some (.wrongState, none)

def refuseAs (o : LinkOrder) (r : ResultCode × Option Nat) (s : State) : State :=
  match r.2 with
  | some offset => refuseLinkParameter o offset s
  | none => refuseLinkOrder o r.1 s

/-- An ENABLE_LINK that is taken (R63). -/
def beginEnable (o : LinkOrder) (s : State) : State :=
  let s := takeLinkOrder o s
  match s.linkDef o.link with
  | none => s
  | some d =>
    let began := (s.linkRec o.link).state
    let search := o.toSearch d.declared ≠ []
    let s := modLink o.link (fun l =>
      let l := l.startSequence .enable .inserting d.outRole.isSome d.inRole.isSome
      { vis := { l.vis with
          state := if search then .planning else .tuning
          retuneNeeded := if began = .faulted then false else l.vis.retuneNeeded }
        aux := { l.aux with began := began, permitKept := false } }) s
    seekEntries o.link o d.declared s

/-- ENABLE_LINK. -/
def enableLinkStep (s : State) : State :=
  match s.mail.linkOrders with
  | o :: rest =>
    if o.kind = .enable then
      let s := { s with mail.linkOrders := rest }
      match enableRefusal o s with
      | some r => refuseAs o r s
      | none => beginEnable o s
    else s
  | [] => s

/-- A forced retune from FAULTED names every declared role that holds a RESERVED or SILENT entry (TABLE 4-5). -/
def namesFailedRoles (o : LinkOrder) (s : State) : Bool :=
  match s.linkDef o.link with
  | none => false
  | some d =>
    d.declared.all fun r =>
      o.names r || (entriesOf s o.link).all fun e => e.role ≠ r || (e.state ≠ .reserved && e.state ≠ .silent)

/-- Tests 2 to 6 of R61 for RETUNE_LINK; BAD_PARAMETER for a target code writes the offset of the target-code role set (DESIGN
CHOICE, notes/assumptions/38). -/
def retuneRefusal (o : LinkOrder) (s : State) : Option (ResultCode × Option Nat) :=
  if s.kc.asserted then some (.killed, none)
  else if (s.linkDef o.link).any (fun d => d.outRole.isNone) then some (.notTunable, none)
  else if (s.linkDef o.link).any (badRoleSet o) then some (.badParameter, some 1)
  else if (s.linkDef o.link).any (givesUndeclared o) then some (.badParameter, some 2)
  else if (s.link o.link).aux.order.isSome then some (.busy, none)
  else
    match (s.linkRec o.link).state with
    | .active => none
    | .holding => if o.force && (s.linkRec o.link).hold = some .failover then none else some (.busy, none)
    | .faulted => if o.force && namesFailedRoles o s then none else some (.wrongState, none)
    | .planning => some (.busy, none)
    | .tuning => some (.busy, none)
    | .retuning => some (.busy, none)
    | .killed => some (.busy, none)
    | .vacant => some (.wrongState, none)
    | .parked => some (.wrongState, none)
    | .learning => some (.wrongState, none)

/-- RETUNE_LINK (R69). -/
def retuneLinkStep (s : State) : State :=
  match s.mail.linkOrders with
  | o :: rest =>
    if o.kind = .retune then
      let s := { s with mail.linkOrders := rest }
      match retuneRefusal o s with
      | some r => refuseAs o r s
      | none =>
        let active := (s.linkRec o.link).state = .active
        let s := takeLinkOrder o s
        if active && !o.force && s.linkOnProgramme o.link then beginHold o.link .order s
        else proceedRetune o.link o.force s
    else s
  | [] => s

/-- A CANCEL of the link's planning request, if it has one (R52). -/
def cancelPlanning (i : Nat) (s : State) : State :=
  let a := (s.link i).aux
  if a.planOut then { s with mail.cancels := s.mail.cancels ++ [(i, a.seq)] } else s

/-- Sequence, hold, settle poll, failover block and every timer of the link are abandoned (R75 step 3). -/
def Link.abandon (l : Link) : Link :=
  let l := l.endSequence
  { vis := { l.vis with hold := none, holdStart := none, block := .clear }
    aux := { l.aux with holdAt := none, holdTimer := false, retryAt := none } }

/-- PARKED, as R75 step 6 leaves the record. -/
def Link.park (s : State) (l : Link) : Link :=
  let l := (l.settle s .outbound none).settle s .inbound none
  { l with vis := { l.vis with
      state := .parked, untracked := false, unsilenceable := false, retuneNeeded := false, learning := 0
      outRec := { l.vis.outRec with present := none }, inRec := { l.vis.inRec with present := none } } }

/-- A PARK_LINK taken with something to undo (R75, steps 1 to 6). -/
def beginPark (o : LinkOrder) (s : State) : State :=
  let i := o.link
  let left := (s.linkRec i).state
  let s := cancelPlanning i (completeLinkOrder i (s.link i) .cancelled s)
  let s := withdrawControl i s
  let hasOut := (s.linkDef i).any fun d => d.outRole.isSome
  let s := modLink i (fun l =>
    let l := (l.abandon).park s
    { vis := { l.vis with orderCell := some o.tag.cell }
      aux := { l.aux with
        order := some o, attempts := 0, framesHeld := 0, parkLeft := left, parkRemoved := 0, parkSeq := l.aux.seq
        parkMute := if hasOut then .waiting else .notNeeded } }) s
  let s := beginWork o.tag s
  let s := if hasOut then queueDeclared i .mute s else s
  sendPurge i s

/-- PARK_LINK. -/
def parkLinkStep (s : State) : State :=
  match s.mail.linkOrders with
  | o :: rest =>
    if o.kind = .park then
      let s := { s with mail.linkOrders := rest }
      let l := s.link o.link
      match l.vis.state, l.aux.order with
      | .vacant, _ => refuseLinkOrder o .wrongState s
      | .parked, none =>
        doneOrder .supervisor o.tag [(0, leBytes LinkState.parked.toNat 1), (1, leBytes 0 1), (2, leBytes 0 1)] .ok
          (some o.link) s
      | _, _ => beginPark o s
    else s
  | [] => s

/-! ### Answers of the plan engine and of the controller -/

/-- The removal of the entries that an answer has inserted. -/
def removals (roles : List RoleAnswer) (wasInserted : Bool) : List CarrierChange :=
  if wasInserted then roles.map fun a => { role := a.role, code := a.code, change := .remove } else []

/-- The held UPDATE of a kill goes, and the requests that come after it follow. -/
def sendKillUpdate (i : Nat) (s : State) : State :=
  let a := (s.link i).aux
  a.afterKill.foldl (fun s r => sendLink i r s)
    (sendUpdate i a.killChanges (modAux i (fun a => { a with killChanges := [], afterKill := [] }) s))

/-- The answer to a request that was outstanding at a kill: entries it inserted are removed by the held UPDATE, which is sent when
no other such request is outstanding (R147; that a second kill's changes join an UPDATE still held is notes/assumptions/19). -/
def killAnswered (i seq : Nat) (roles : List RoleAnswer) (wasInserted : Bool) (s : State) : State :=
  if (s.link i).aux.killWait.contains seq then
    let s := modAux i (fun a =>
      { a with killWait := a.killWait.erase seq, killChanges := a.killChanges ++ removals roles wasInserted }) s
    if (s.link i).aux.killWait = [] then sendKillUpdate i s else s
  else s

/-- The answer belongs to the link's present sequence. -/
def current (s : State) (i seq : Nat) : Bool := (s.link i).aux.seq = seq

/-- PLANNING_ANSWER (R64). The attempts that the order reports are those of its last planning request (DESIGN CHOICE,
notes/assumptions/38). -/
def planningAnswerStep (s : State) : State :=
  match s.mail.planAnswers with
  | [] => s
  | a :: rest =>
    let s := { s with mail.planAnswers := rest }
    if current s a.link a.seq && (s.link a.link).aux.planOut then
      let s := modAux a.link (fun x => { x with planOut := false, attempts := a.attempts }) s
      match a.result with
      | .ok => inserted a.link a.roles s
      | .cancelled => s
      | code => returnToStart a.link code (modLink a.link (keepAnswers a.roles) s)
    else killAnswered a.link a.seq a.roles (a.result = .ok || a.afterCancel) s

/-- INSERTION_ANSWER (R65). -/
def insertionAnswerStep (s : State) : State :=
  match s.mail.insertAnswers with
  | [] => s
  | a :: rest =>
    let s := insertAnswered a { s with mail.insertAnswers := rest }
    if current s a.link a.seq && (s.linkRec a.link).phase = .inserting then
      match a.result with
      | .ok => inserted a.link a.roles s
      | .cancelled => s
      | code => returnToStart a.link code (modLink a.link (keepAnswers a.roles) s)
    else killAnswered a.link a.seq a.roles (a.result = .ok) s

/-- FAILOVER_TAKE_ANSWER (R74). WRONG_STATE sets no block, and one that an earlier take set stays (DESIGN CHOICE,
notes/assumptions/38). -/
def failoverTakeAnswerStep (s : State) : State :=
  match s.mail.takeAnswers with
  | [] => s
  | a :: rest =>
    let s := insertAnswered a { s with mail.takeAnswers := rest }
    if current s a.link a.seq && (s.linkRec a.link).phase = .inserting then
      match a.result with
      | .ok => inserted a.link a.roles s
      | .cancelled => s
      | .noReserve => returnBlocked .noReserve a.link .noReserve s
      | .tableFull => returnBlocked .tableFull a.link .tableFull s
      | code => returnToStart a.link code s
    else killAnswered a.link a.seq a.roles (a.result = .ok) s

/-- The state that a FAILOVER_TAKE_ANSWER goes through (R152): after an answer that sets no block the link is back in ACTIVE before
failover is evaluated, and may leave it again. -/
def failoverTakePath (s : State) : List State :=
  match s.mail.takeAnswers with
  | [] => []
  | a :: rest =>
    if current s a.link a.seq && (s.linkRec a.link).phase = .inserting then
      if a.result = .ok || a.result = .cancelled || a.result = .noReserve || a.result = .tableFull then []
      else [modLink a.link Link.backToStart { s with mail.takeAnswers := rest }]
    else []

/-- What the kill MUTE of a link names: the link's channel and every declared role (R146). -/
def muteTarget (i : Nat) (d : LinkDef) : MuteTarget :=
  { link := i, unit := d.unit, chan := d.chan, roleOut := d.outRole.isSome, roleIn := d.inRole.isSome }

/-- What a LEARN leaves on the link: present codes, healths and the UNTRACKED mark (R76). The learning count of a link that leaves
LEARNING is 0 (R95 says so of a PARK; otherwise DESIGN CHOICE, notes/assumptions/38). -/
def learnedLink (s : State) (d : LinkDef) (roles : List RoleAnswer) (l : Link) : Link :=
  let l := d.declared.foldl (fun l r =>
    match roles.find? (fun a => a.role = r) with
    | none => l.settle s r (some .lost)
    | some a =>
      let l := l.settle s r (some .good)
      if a.result = .ok then { l with vis := l.vis.setRole r { l.vis.role r with present := some a.code } } else l) l
  { l with vis := { l.vis with
      learning := 0, untracked := l.vis.untracked || roles.any (fun a => a.result = .tableFull) } }

/-- LEARN_ANSWER (R76): the link goes ACTIVE, or during a kill KILLED with its entries made SILENT. -/
def learnAnswerStep (s : State) : State :=
  match s.mail.learnAnswers with
  | [] => s
  | a :: rest =>
    let s := insertAnswered a { s with mail.learnAnswers := rest }
    match s.linkDef a.link with
    | none => s
    | some d =>
      if current s a.link a.seq && (s.linkRec a.link).state = .learning && a.result = .ok then
        let goTo (st : LinkState) (bare : Bool) (s : State) : State :=
          modLink a.link (fun l =>
            let l := learnedLink s d a.roles l
            { l with vis := { l.vis with state := st, unsilenceable := l.vis.unsilenceable || bare } }) s
        if s.kc.asserted then
          if d.outRole.isSome then
            let s := goTo .killed false s
            let s := sendUpdate a.link
              ((a.roles.filter fun r => r.result = .ok).map fun r =>
                { role := r.role, code := r.code, change := .become .silent }) s
            { s with mail.muteLists := s.mail.muteLists ++ [[muteTarget a.link d]] }
          else enterActive a.link (goTo .active true s)
        else enterActive a.link (goTo .active false s)
      else s

/-- LIVE_UPDATE_ANSWER (R68, R149). -/
def liveUpdateAnswerStep (s : State) : State :=
  match s.mail.liveAnswers with
  | [] => s
  | a :: rest =>
    let s := linkAnswered a.link { s with mail.liveAnswers := rest }
    if current s a.link a.seq && (s.linkRec a.link).phase = .unmuting then goActive a.link s else s

/-- UPDATE_ANSWER: the answer to any other UPDATE; the link's next held request may be sent (R26, R31). -/
def updateAnswerStep (s : State) : State :=
  match s.mail.updateAnswers with
  | [] => s
  | a :: rest => linkAnswered a.link { s with mail.updateAnswers := rest }

/-- PURGE_ANSWER (R75). -/
def purgeAnswerStep (s : State) : State :=
  match s.mail.purgeAnswers with
  | [] => s
  | (i, n) :: rest =>
    tryCompletePark i
      (modAux i (fun a => { a with purges := a.purges - 1, parkRemoved := n }) { s with mail.purgeAnswers := rest })

/-! ### Outcomes of CONTROL transactions -/

/-- Take the oldest outcome when it is of this kind and p holds of its result; f acts on it when it belongs to the link's
present sequence, and otherwise it is discarded (R83). -/
def takeOutcome (kind : ControlKind) (p : ControlResult → Bool) (f : ControlOutcome → State → State) (s : State) : State :=
  match s.mail.controlOutcomes with
  | o :: rest =>
    if o.kind = kind && p o.result then
      let s := { s with mail.controlOutcomes := rest }
      if current s o.link o.seq then f o s else s
    else s
  | [] => s

def ControlResult.isAck : ControlResult → Bool
  | .acked => true
  | _ => false

def ControlResult.isFail : ControlResult → Bool
  | .failed => true
  | _ => false

def ControlResult.isWithheld : ControlResult → Bool
  | .withheld _ => true
  | _ => false

/-- TUNE_ACK (R66). -/
def tuneAckStep (s : State) : State :=
  takeOutcome .tune ControlResult.isAck (fun o s =>
    match (s.linkRec o.link).phase with
    | .tuneSent => goGuard o.link s
    | .settling => resumePolls o.link s
    | _ => s) s

/-- A failed TUNE in TUNE_SENT (R65, R74, R149). -/
def tuneFails (i : Nat) (s : State) : State :=
  match (s.linkRec i).seqKind with
  | .restore => faultLink i s
  | .failover => returnBlocked .timeout i .timeout (removeNew i s)
  | _ => returnToStart i .timeout (removeNew i s)

/-- TUNE_FAILED. -/
def tuneFailedStep (s : State) : State :=
  takeOutcome .tune ControlResult.isFail (fun o s =>
    match (s.linkRec o.link).phase with
    | .tuneSent => tuneFails o.link s
    | .settling => resumePolls o.link s
    | _ => s) s

/-- TUNE_WITHHELD (R65, R72, R67). -/
def tuneWithheldStep (s : State) : State :=
  takeOutcome .tune ControlResult.isWithheld (fun o s =>
    match (s.linkRec o.link).phase with
    | .tuneSent => if o.result = .withheld .programmePart then holdAgain o.link s else s
    | .settling => resumePolls o.link s
    | _ => s) s

/-- UNMUTE_ACK (R68): one UPDATE makes each new entry of the sequence LIVE. -/
def unmuteAckStep (s : State) : State :=
  takeOutcome .unmute ControlResult.isAck (fun o s =>
    let l := s.linkRec o.link
    if l.phase = .unmuting then
      sendLink o.link (.update o.link o.seq true
        (l.newCodes.map fun c => { role := c.1, code := c.2, change := .become .live })) s
    else s) s

/-- UNMUTE_FAILED (R68). -/
def unmuteFailedStep (s : State) : State :=
  takeOutcome .unmute ControlResult.isFail (fun o s =>
    if (s.linkRec o.link).phase = .unmuting then faultLink o.link s else s) s

/-- UNMUTE_WITHHELD (R68): nothing changes. -/
def unmuteWithheldStep (s : State) : State := takeOutcome .unmute ControlResult.isWithheld (fun _ s => s) s

/-- PARK_MUTE_OUTCOME (R75): the outcome of an earlier PARK's MUTE is discarded. The link may have become LEARNING since
(R77), and the MUTE still belongs to the PARK in service. -/
def parkMuteOutcomeStep (s : State) : State :=
  match s.mail.controlOutcomes with
  | o :: rest =>
    if o.kind = .mute then
      let s := { s with mail.controlOutcomes := rest }
      let a := (s.link o.link).aux
      if a.parkMute = .waiting && a.parkSeq = o.seq then
        tryCompletePark o.link
          (modAux o.link (fun a => { a with parkMute := if o.result = .acked then .answered else .failed }) s)
      else s
    else s
  | [] => s

/-- SETTLE_POLL_OUTCOME (R67). -/
def settlePollOutcomeStep (s : State) : State :=
  takeOutcome .settlePoll (fun _ => true) (fun o s =>
    if (s.linkRec o.link).phase = .settling then startPollTimer o.link s else s) s

/-! ### Timers of a link -/

/-- A timer that has been set and has reached its end. -/
def State.due (s : State) (t : Option Nat) : Bool := s.running && t.any s.reached

/-- SETTLE_POLL_TIMER_EXPIRY (R67). -/
def settlePollTimerExpiryStep (i : Nat) (s : State) : State :=
  if s.due (s.link i).aux.pollAt then
    let s := modAux i (fun a => { a with pollAt := none }) s
    if (s.linkRec i).phase = .settling && !controlWaiting s i then queueForSequence i .settlePoll s else s
  else s

/-- GUARD_EXPIRY (R66). -/
def guardExpiryStep (i : Nat) (s : State) : State :=
  if s.due (s.link i).aux.guardAt && (s.linkRec i).phase = .guarding then guardEnds i s else s

/-- A settle poll that still waits in the link's CONTROL place is withdrawn. -/
def withdrawPoll (i : Nat) (s : State) : State :=
  { s with ul.controlQ := s.ul.controlQ.filter fun x => !(x.link = i && x.kind = .settlePoll) }

/-- SETTLE_LIMIT_EXPIRY (R67). -/
def settleLimitExpiryStep (i : Nat) (s : State) : State :=
  if s.due (s.link i).aux.settleAt && (s.linkRec i).phase = .settling then
    if (s.linkRec i).repeats = 0 then
      let s := modLink i (fun l =>
        { vis := { l.vis with repeats := 1 }
          aux := { l.aux with settleAt := l.aux.settleAt.map (· + l.aux.settleLen) } }) s
      queueForSequence i .tune s
    else faultLink i (withdrawPoll i s)
  else s

def holdExpiredReport (i : Nat) (s : State) : JReport :=
  { kind := .holdExpired, stamp := s.now, subject := i, values := values 0 (holdNat (s.linkRec i).hold), dropped := false
    clamped := false, flagOf := .linkRec i, notice := .none }

/-- The hold limit of a link has passed. -/
def holdLimitPassed (s : State) (i : Nat) : Bool :=
  match s.linkDef i with
  | none => false
  | some d =>
    (s.link i).aux.holdTimer && (s.link i).aux.holdAt.any fun t => s.reached (t + d.holdS * Config.unitsPerSecond)

/-- The hold ends by its limit: HOLD_EXPIRED, and the retune proceeds with its permit kept (R71). That HOLD_EXPIRED precedes the LINK
entry is a DESIGN CHOICE, notes/assumptions/45. -/
def holdExpires (i : Nat) (s : State) : State :=
  proceedFromHold i true (report .supervisor (holdExpiredReport i s) s)

/-- HOLD_LIMIT_EXPIRY. -/
def holdLimitExpiryStep (i : Nat) (s : State) : State :=
  if s.running && (s.linkRec i).state = .holding && holdLimitPassed s i then holdExpires i s else s

/-- FAILOVER_DELAY_EXPIRY (R73). -/
def failoverDelayExpiryStep (i : Nat) (r : Role) (s : State) : State :=
  match s.linkDef i with
  | none => s
  | some d =>
    if s.due (((s.link i).degradedAt r).map (· + d.delayS * Config.unitsPerSecond)) then healthChanged i s else s

/-- FAILOVER_RETRY_EXPIRY (R74): while the kill state is ASSERTED the timer stands stopped. A timer that expires while the link is
not ACTIVE, or has an order in service, ends, and the block stays as it stands (DESIGN CHOICE, notes/assumptions/39: R73
evaluates failover in ACTIVE alone). -/
def failoverRetryExpiryStep (i : Nat) (s : State) : State :=
  if s.due (s.link i).aux.retryAt && !s.kc.asserted then
    let s := modAux i (fun a => { a with retryAt := none }) s
    let l := s.link i
    if l.vis.state = .active && l.aux.order.isNone then
      if failoverWanted s i then evaluateFailover i s
      else modLink i (fun l => { l with vis := { l.vis with block := .clear } }) s
    else s
  else s

def staleTime (s : State) : Nat := s.sup.settings.staleFactor * s.sup.settings.periodMs * Config.unitsPerMs

/-- STALE_TIMER_EXPIRY (R90). -/
def staleTimerExpiryStep (i : Nat) (s : State) : State :=
  if s.due ((s.link i).aux.staleFrom.map (· + staleTime s)) && !(s.link i).aux.staleExpired then
    let before := roleHealths s i
    healthChangedFrom before i (entryHealth i (modAux i (fun a => { a with staleExpired := true }) s))
  else s

/-- TALLY_CHANGE_TO_SUPERVISOR (R71): the holds of every link with that camera are re-evaluated, in ascending index (DESIGN CHOICE,
notes/assumptions/45). -/
def tallyChangeToSupervisorStep (s : State) : State :=
  match s.mail.tallyChanges with
  | [] => s
  | camera :: rest =>
    (List.range Config.links).foldl
      (fun s i => if (s.linkDef i).any (fun d => d.camera = camera) then recheckTally i s else s)
      { s with mail.tallyChanges := rest }

/-! ### Reports and misses (R89 to R95) -/

/-- What a REPORT that does not carry the link's channel shows (R91). -/
def absentRole : RoleReport := { level := -120, quality := 0, on := false, settled := false, code := 0 }

def absentChannel : ChanReport :=
  { echo := Colours.off, key0 := false, key1 := false, cause := 0, outRep := absentRole, inRep := absentRole }

def Report.channel (r : Report) (chan : Nat) : ChanReport := r.channels.getD chan absentChannel

def ChanReport.role (c : ChanReport) : Role → RoleReport
  | .outbound => c.outRep
  | .inbound => c.inRep

/-- A visit (R89). -/
def Link.visit (s : State) (l : Link) : Link :=
  { vis := { l.vis with lastVisit := some s.now, misses := 0 }
    aux := { l.aux with staleFrom := some s.tb.elapsed, staleExpired := false } }

/-- Rate every declared role of a link (R92, R93). -/
def rateLink (s : State) (d : LinkDef) (c : ChanReport) (l : Link) : Link :=
  d.declared.foldl (fun l r =>
    match d.role r with
    | none => l
    | some x =>
      rateRole s s.sup.settings.persistence r (gradeOf (s.ctl.rules.cls x.cls) (l.vis.role r).present (c.role r)) l) l

/-- Every role of the sequence is settled on its new code (R67). -/
def settled (l : LinkRec) (c : ChanReport) : Bool :=
  (bothRoles.filter l.inSequence).all fun r => (c.role r).settled && (l.role r).fresh = some (c.role r).code

/-- The second REPORT of a LEARNING link (R76); the learning count of a link that goes PARKED here is 0 (DESIGN CHOICE,
notes/assumptions/38). -/
def learn (i : Nat) (d : LinkDef) (c : ChanReport) (s : State) : State :=
  let on := d.declared.filter fun r => (c.role r).on
  if on = [] then
    modLink i (fun l =>
      { l with vis := { l.vis with state := .parked, learning := 0 } }) s
  else
    let s := modAux i (fun a => { a with seq := a.seq + 1 }) s
    let roles := on.filterMap fun r => (d.role r).map fun x => (r, (c.role r).code, x.cls)
    sendLink i (.learn i (s.link i).aux.seq d.zone roles) s

/-- A REPORT taken for one link on its unit. It rates both roles before failover is evaluated or the hold re-evaluated, so that one
TAKE names both of two roles it makes failing (DESIGN CHOICE, notes/assumptions/56). -/
def takeReport (r : Report) (i : Nat) (d : LinkDef) (s : State) : State :=
  let c := r.channel d.chan
  let l := s.linkRec i
  let before := roleHealths s i
  if l.rated then
    healthChangedFrom before i (modLink i (fun l => rateLink s d c (l.visit s)) s)
  else
    let s := modLink i (Link.visit s) s
    if l.state = .learning then
      if l.learning = 0 then modLink i (fun l => { l with vis := { l.vis with learning := 1 } }) s
      else if l.learning = 1 then learn i d c (modLink i (fun l => { l with vis := { l.vis with learning := 2 } }) s)
      else s
    else if l.phase = .settling && settled l c then goUnmuting i s
    else s

/-- REPORT_TO_LINK_SUPERVISOR (R91). The links of the unit are taken in ascending index (DESIGN CHOICE, notes/assumptions/45: no rule
gives an order). -/
def reportToLinkSupervisorStep (s : State) : State :=
  match s.mail.supervisorReports with
  | [] => s
  | r :: rest =>
    (List.range Config.links).foldl (fun s i =>
      match s.linkDef i with
      | some d => if d.unit = r.unit then takeReport r i d s else s
      | none => s) { s with mail.supervisorReports := rest }

/-- One miss of a link (R89, R94). -/
def missLink (i : Nat) (s : State) : State :=
  let before := roleHealths s i
  healthChangedFrom before i
    (entryHealth i (modLink i (fun l => { l with vis := { l.vis with misses := min 255 (l.vis.misses + 1) } }) s))

/-- POLL_MISS. The links of the unit are taken in ascending index (DESIGN CHOICE, notes/assumptions/45). -/
def pollMissStep (s : State) : State :=
  match s.mail.missedUnits with
  | [] => s
  | u :: rest =>
    (List.range Config.links).foldl
      (fun s i => if (s.linkDef i).any (fun d => d.unit = u) then missLink i s else s) { s with mail.missedUnits := rest }

/-! ### The kill (R147, R149) -/

/-- An INSERT or a TAKE of the link supervisor's own. -/
def CtlReq.ownInsertion : CtlReq → Bool
  | .insert byEngine _ _ _ => !byEngine
  | .take _ _ _ => true
  | _ => false

/-- An INSERT or a TAKE that the link supervisor holds for the link and has not sent is given up. -/
def dropOwnHeld (i : Nat) (s : State) : State :=
  modAux i (fun a =>
    { a with held := a.held.filter fun r => !r.ownInsertion, afterKill := a.afterKill.filter fun r => !r.ownInsertion }) s

/-- Whether an INSERT, a TAKE or a planning request of the link's sequence is outstanding. -/
def awaitsEntries (s : State) (i : Nat) : Bool :=
  let l := s.link i
  l.vis.phase = .inserting && (l.aux.planOut || !(l.aux.held ++ l.aux.afterKill).any CtlReq.ownInsertion)

/-- A kill's UPDATE waits for the answer to this sequence (R147): its changes join those of an UPDATE still held, and the
sequence's INSERT, if it stands behind such an UPDATE, goes ahead of it. -/
def holdUpdate (i seq : Nat) (changes : List CarrierChange) (s : State) : State :=
  let ahead := (s.link i).aux.afterKill.filter (CtlReq.engineInsert seq)
  let s := modAux i (fun a =>
    { a with killWait := a.killWait ++ [seq], killChanges := a.killChanges ++ changes
             afterKill := a.afterKill.filter fun r => !r.engineInsert seq }) s
  ahead.foldl (fun s r => sendLink i r s) s

/-- The link goes KILLED: sequence, hold and timers stop, waiting requests are withdrawn, the order completes KILLED (but for a
PARK_LINK, TABLE 4-6), and one UPDATE makes the changes, held while an insertion is outstanding (R147). -/
def killLink (i : Nat) (needed keepCodes : Bool) (changes : List CarrierChange) (s : State) : State :=
  let was := s.link i
  let waits := awaitsEntries s i
  let s := withdrawForKill i (dropOwnHeld i (cancelPlanning i s))
  let s := modLink i (fun l =>
    let l := (l.endHold s)
    let l := (if keepCodes then l.keepNew else l).endSequence
    { vis := { l.vis with state := .killed, retuneNeeded := l.vis.retuneNeeded || needed }
      aux := { l.aux with retryAt := none } }) s
  let s := if was.aux.order.any fun o => o.kind = .park then s else completeLinkOrder i was .killed s
  if waits then holdUpdate i was.aux.seq changes s else sendUpdate i changes s

/-- PLANNING, and an enable begun from PARKED before SETTLING: PURGE and PARKED (TABLE 9-1). -/
def killToParked (i : Nat) (s : State) : State :=
  let was := s.link i
  let s := withdrawControl i (cancelPlanning i s)
  let s := modLink i (fun l =>
    let l := l.endSequence
    { vis := { l.vis with
        state := .parked, outRec := { l.vis.outRec with present := none }, inRec := { l.vis.inRec with present := none } }
      aux := { l.aux with retryAt := none } }) s
  sendPurge i (completeLinkOrder i was .killed s)

/-- A restoration in progress is abandoned (TABLE 9-1). Entries that its LIVE UPDATE has made LIVE, or will make so, are SILENT
again (notes/assumptions/19). -/
def abandonRestore (i : Nat) (s : State) : State :=
  let a := (s.link i).aux
  let live := (settledEntries s i).filter fun e => e.state = .live
  let s := modLink i (fun l =>
    let l := l.endSequence
    { l with vis := { l.vis with retuneNeeded := l.vis.retuneNeeded || a.tuneBegun || a.unmuteBegun } })
    (withdrawForKill i s)
  sendUpdate i (live.map (becoming .silent)) s

/-- The entries that an answer to the link's present sequence has inserted. -/
def InsertAnswer.newFor (i seq : Nat) (a : InsertAnswer) : List (Role × Nat) :=
  if a.link = i && a.seq = seq && a.result = .ok then a.roles.map fun r => (r.role, r.code) else []

def EngineAnswer.newFor (i seq : Nat) : EngineAnswer → List (Role × Nat)
  | .inserted a => a.newFor i seq
  | _ => []

def PlanAnswer.newFor (i seq : Nat) (a : PlanAnswer) : List (Role × Nat) :=
  if a.link = i && a.seq = seq && (a.result = .ok || a.afterCancel) then a.roles.map fun r => (r.role, r.code) else []

/-- New entries of the link's sequence that are in the table while their answer is still on its way (R147). -/
def newInFlight (s : State) (i : Nat) : List (Role × Nat) :=
  let seq := (s.link i).aux.seq
  s.mail.engineAnswers.flatMap (·.newFor i seq) ++ s.mail.planAnswers.flatMap (·.newFor i seq)
    ++ s.mail.insertAnswers.flatMap (·.newFor i seq) ++ s.mail.takeAnswers.flatMap (·.newFor i seq)

/-- The entries of the link other than the sequence's new ones. -/
def presentEntries (s : State) (i : Nat) : List CarrierEntry :=
  let new := (s.linkRec i).newCodes ++ newInFlight s i
  (entriesOf s i).filter fun e => !new.contains (e.role, e.code)

/-- TUNING (not an enable begun from PARKED) and RETUNING, before SETTLING: new entries removed, present entries SILENT. -/
def killInTune (i : Nat) (begun : Bool) (s : State) : State :=
  let present := presentEntries s i
  let changes := (s.linkRec i).newCodes.map (fun c => ({ role := c.1, code := c.2, change := .remove } : CarrierChange))
    ++ present.map (becoming .silent)
  killLink i (begun || present.any fun e => e.state = .reserved) false changes s

/-- One link at the assertion, by the state it is found in (TABLE 9-1). -/
def treatFound (s : State) (i : Nat) : State :=
  match s.linkDef i with
  | none => s
  | some d =>
    let l := s.link i
    match l.vis.state with
    | .planning => killToParked i s
    | .tuning =>
      match l.vis.phase with
      | .settling => killLink i true true ((entriesOf s i).map (becoming .silent)) s
      | .unmuting => killLink i true true ((entriesOf s i).map (becoming .silent)) s
      | .guarding => if l.aux.began = .parked then killToParked i s else killInTune i true s
      | .tuneSent => if l.aux.began = .parked then killToParked i s else killInTune i l.aux.tuneBegun s
      | _ => if l.aux.began = .parked then killToParked i s else killInTune i false s
    | .retuning =>
      match l.vis.phase with
      | .settling => killLink i true true ((entriesOf s i).map (becoming .silent)) s
      | .unmuting => killLink i true true ((entriesOf s i).map (becoming .silent)) s
      | .guarding => killInTune i true s
      | .tuneSent => killInTune i l.aux.tuneBegun s
      | _ => killInTune i false s
    | .active =>
      if d.outRole.isSome then
        killLink i false false
          (((entriesOf s i).filter fun e => e.state = .live || e.state = .learned).map (becoming .silent)) s
      else modLink i (fun l => { l with vis := { l.vis with unsilenceable := true } }) s
    | .holding =>
      killLink i false false
        (((entriesOf s i).filter fun e => e.state = .live || e.state = .learned).map (becoming .silent)) s
    | .killed => if l.vis.seqKind = .restore then abandonRestore i s else s
    | .vacant => s
    | .parked => s
    | .learning => s
    | .faulted => s

/-- One link at the assertion: the retry timer of any link, a FAULTED one too, is stopped (R74, R148), and the link is treated. -/
def treatLink (s : State) (i : Nat) : State := treatFound (modAux i (fun a => { a with retryAt := none }) s) i

/-- The links to mute (R146). -/
def toMute (s : State) (i : Nat) : Bool :=
  let l := s.linkRec i
  (s.linkDef i).any (fun d => d.outRole.isSome) &&
    (match l.state with
      | .tuning => true
      | .active => true
      | .holding => true
      | .retuning => true
      | .killed => l.seqKind = .restore
      | _ => false)

/-- The list of links to mute, with what each MUTE names. -/
def muteList (s : State) : List MuteTarget :=
  ((List.range Config.links).filter (toMute s)).filterMap fun i => (s.linkDef i).map (muteTarget i)

/-- LINK_KILL_ASSERTION. The links are listed and treated in ascending index (DESIGN CHOICE, notes/assumptions/45: R146 and R147 give no
order). -/
def linkKillAssertionStep (s : State) : State :=
  match s.mail.killToLinks with
  | true :: rest =>
    let mutes := muteList s
    let s := (List.range Config.links).foldl treatLink { s with mail.killToLinks := rest }
    { s with mail.muteLists := s.mail.muteLists ++ [mutes] }
  | _ => s

/-- One link at the release. -/
def releaseLink (s : State) (i : Nat) : State :=
  let s :=
    if (s.linkRec i).unsilenceable then modLink i (fun l => { l with vis := { l.vis with unsilenceable := false } }) s else s
  if (s.linkRec i).state = .killed then tryCompletePark i (beginRestore i (displaceMute i s)) else s

/-- LINK_KILL_RELEASE. -/
def linkKillReleaseStep (s : State) : State :=
  match s.mail.killToLinks with
  | false :: rest => (List.range Config.links).foldl releaseLink { s with mail.killToLinks := rest }
  | _ => s

/-! ### New definitions (R77, R90, R98) -/

/-- What an accepted station adoption does to one link, whose old definition was `old`. The stale timer of a link without a visit
starts here, at RUN's own adoption too (DESIGN CHOICE, notes/assumptions/27: R99 says from RUN, R90 from the adoption if later). -/
def adoptLink (old new : Option LinkDef) (i : Nat) (s : State) : State :=
  let st := (s.linkRec i).state
  let toLearning (s : State) : State :=
    modLink i (fun l =>
      { vis := { l.vis with state := .learning, learning := 0 }
        aux := { l.aux with staleFrom := some (l.aux.staleFrom.getD s.tb.elapsed) } }) s
  match old, new with
  | some _, none =>
    modLink i (fun l =>
      { vis := { LinkRec.reset with pending := l.vis.pending, orderCell := l.vis.orderCell }
        aux := { l.aux with staleFrom := none, staleExpired := false } }) s
  | none, some _ => if st = .vacant then toLearning s else s
  | some a, some b =>
    if st = .parked && (a.unit ≠ b.unit || a.chan ≠ b.chan) then toLearning s
    else if a = b then s
    else if st = .holding then
      let limit := b.holdS ≠ 0
      let s := recheckHold i (modAux i (fun x => { x with holdTimer := limit }) s)
      let s := recheckTally i s
      if (s.linkRec i).state = .holding && holdLimitPassed s i then holdExpires i s else s
    else if a.auto ≠ b.auto || a.delayS ≠ b.delayS then evaluateFailover i s
    else s
  | none, none => s

/-- A new stale time or miss limit acts at the adoption (R98). -/
def adoptSupervision (staleChanged : Bool) (s : State) (i : Nat) : State :=
  let before := roleHealths s i
  let s :=
    if staleChanged then
      modAux i (fun a => { a with staleExpired := a.staleFrom.any fun t => s.reached (t + staleTime s) }) s
    else s
  healthChangedFrom before i (entryHealth i s)

/-- The link supervisor takes the definitions and settings: every link its definition, then every link the supervision settings, in
ascending index (DESIGN CHOICE, notes/assumptions/45). -/
def takeDefinitions (c : StationCopy) (s : State) : State :=
  let old := s.sup.defs
  let staleChanged :=
    s.sup.settings.periodMs ≠ c.settings.periodMs || s.sup.settings.staleFactor ≠ c.settings.staleFactor
  let s := { s with sup.defs := c.defs, sup.settings := c.settings }
  let s := (List.range Config.links).foldl (fun s i => adoptLink (old.getD i none) (c.defs.getD i none) i s) s
  (List.range Config.links).foldl (adoptSupervision staleChanged) s

end Sys2Proof.Machine
end

