-- ==== Sys2Proof/Machine/Talkback.lean ====
section
/-! DEFINITION. Chapter 7: the talkback router. Routes, heard states, calls and crosspoint rows are functions of the plan,
the keys and the router's view of the other blocks; `rebuild` recomputes them and reports what changed. -/

namespace Sys2Proof.Machine

/-! ### The plan (R115 to R117) -/

def unusedSource : Source := { kind := .unused, link := none, trim := 0 }

def unusedDest : Dest := { kind := .unused, link := none, bus := none, level := 0, dim := 0, trim := 0 }

def TalkPlan.source (p : TalkPlan) (n : Nat) : Source := p.sources.getD n unusedSource

def TalkPlan.dest (p : TalkPlan) (d : Nat) : Dest := p.dests.getD d unusedDest

def TalkPlan.group (p : TalkPlan) (g : Nat) : Group := p.groups.getD g { kind := .unused, members := 0 }

/-- A source of kind NONE, or a destination or group of kind NONE, is not usable (R117, R119). -/
def TalkPlan.usable (p : TalkPlan) (source dest : Nat) : Bool :=
  (p.source source).kind ≠ .unused &&
    (if dest < Config.destinations then (p.dest dest).kind ≠ .unused
     else (p.group (dest - Config.destinations)).kind ≠ .unused)

/-- The camera colour of a tally-following group. -/
def Colours.has (c : Colours) : GroupKind → Bool
  | .programmeCameras => c.programme
  | .previewCameras => c.preview
  | .isoCameras => c.iso
  | _ => false

/-- A CAMERA destination follows tally by its effective link's camera (R116). -/
def followsTally (r : Router) (k : GroupKind) (d : Nat) : Bool :=
  let x := r.plan.dest d
  x.kind = .camera &&
    match effectiveLink r.defs x with
    | none => false
    | some l =>
      match r.defs.getD l none with
      | none => false
      | some def' =>
        match def'.camera with
        | 0 => false
        | c + 1 => (r.colours.getD c Colours.off).has k

/-- Membership of destination d in group g (R116). -/
def inGroup (r : Router) (g d : Nat) : Bool :=
  let x := r.plan.group g
  match x.kind with
  | .unused => false
  | .fixed => x.members.getLsbD d && (r.plan.dest d).kind ≠ .unused
  | k => followsTally r k d

/-- A key gives a route to destination d (R122). -/
def keyReaches (r : Router) (k : KeyRec) (d : Nat) : Bool :=
  if k.dest < Config.destinations then k.dest = d else inGroup r (k.dest - Config.destinations) d

/-! ### Routes (R122, R123) -/

/-- The older of two readings, by their values alone: a reading taken before midnight or before a SET_CLOCK can so count as the
younger (DESIGN CHOICE, notes/assumptions/43: R123 does not say how readings across such a jump compare). -/
def Timestamp.older (a b : Timestamp) : Bool :=
  a.sec < b.sec || (a.sec = b.sec && (a.frame < b.frame || (a.frame = b.frame && a.tick < b.tick)))

/-- The order of a destination's routes. -/
def precedes (a b : Nat × KeyRec) : Bool :=
  if a.2.priority ≠ b.2.priority then a.2.priority > b.2.priority
  else if a.2.keyed ≠ b.2.keyed then a.2.keyed.older b.2.keyed
  else a.1 < b.1

def keyIndexes (r : Router) : List (Nat × KeyRec) := r.keys.zipIdx.filterMap fun k => k.1.map fun x => (k.2, x)

/-- The routes of a destination in their order, each with its key. -/
def routesTo (r : Router) (d : Nat) : List (Nat × KeyRec) :=
  sortBy precedes ((keyIndexes r).filter fun k => keyReaches r k.2 d)

/-- Source and destination are one beltpack. -/
def excludedSelf (r : Router) (source d : Nat) : Bool :=
  let x := r.plan.source source
  let y := r.plan.dest d
  x.kind = .beltpack && y.kind = .beltpack && x.link.isSome && x.link = y.link

/-- The first route of each source. -/
def firstOfSource : List Nat → List (Nat × KeyRec) → List (Nat × KeyRec)
  | _, [] => []
  | seen, k :: rest =>
    if seen.contains k.2.source then firstOfSource seen rest else k :: firstOfSource (k.2.source :: seen) rest

/-- The route list of a destination: no excluded route, one route per source, in order. -/
def routeList (r : Router) (d : Nat) : List (Nat × KeyRec) :=
  firstOfSource [] ((routesTo r d).filter fun k => !excludedSelf r k.2.source d)

def slots : Nat := 4

def slottedRoutes (r : Router) (d : Nat) : List (Nat × KeyRec) := (routeList r d).take slots

/-- Every route of a destination with its state, those of the list first; MERGED and EXCLUDED_SELF routes, which stand outside the
list, come after it, also in the ROUTE entries of a change (DESIGN CHOICE, notes/assumptions/42). -/
def routeStates (r : Router) (d : Nat) : List (Nat × RouteState) :=
  let l := routeList r d
  let rest := (routesTo r d).filter fun k => !(l.any fun x => x.1 = k.1)
  ((l.take slots).map fun k => (k.1, RouteState.slotted)) ++ ((l.drop slots).map fun k => (k.1, RouteState.waiting))
    ++ rest.map fun k => (k.1, if excludedSelf r k.2.source d then .excludedSelf else .merged)

/-! ### Heard states and calls (R124, R125) -/

def heardState (r : Router) (d : Nat) : Bool :=
  let x := r.plan.dest d
  match x.kind with
  | .unused => false
  | .wired => true
  | _ =>
    !r.killed &&
      match effectiveLink r.defs x with
      | none => false
      | some l =>
        let (st, h) := r.links.getD l (.vacant, none)
        (st = .active || st = .holding) && (h = some .good || h = some .degraded)

/-- The call of a link of kind CAMERA. -/
def callState (r : Router) (l : Nat) : Bool :=
  (r.defs.getD l none).any (fun d => d.kind = .camera) &&
    (List.range Config.destinations).any fun d =>
      effectiveLink r.defs (r.plan.dest d) = some l && slottedRoutes r d ≠ []

/-! ### Gains (R126) -/

/-- The sum-law attenuation in half-dB (TABLE 7-4). -/
def attenuation : Nat → Int
  | 0 => 0
  | 1 => 0
  | 2 => 6
  | 3 => 10
  | _ => 12

/-- The crosspoint code of a gain in half-dB. -/
def gainCode (g : Int) : Nat := if 24 < g then 185 else if g < -160 then 0 else (g + 161).toNat

def talkGain (r : Router) (d n : Nat) (k : KeyRec) : Int :=
  (r.plan.source k.source).trim + k.level + (r.plan.dest d).trim - attenuation n

def programmeGain (x : Dest) (n : Nat) : Int := x.level + x.trim - (if 1 ≤ n then x.dim else 0)

/-- Row d of the staged crosspoint image. -/
def stagedRow (r : Router) (d : Nat) : List Nat :=
  let x := r.plan.dest d
  let l := slottedRoutes r d
  let n := l.length
  if x.kind = .unused then List.replicate Config.inputs 0
  else
    ((List.range 24).map fun i =>
      match l.find? (fun k => k.2.source = i) with
      | some k => gainCode (talkGain r d n k.2)
      | none => 0)
    ++ (List.range 4).map fun b => if x.bus = some b then gainCode (programmeGain x n) else 0

/-! ### Rebuilding and reporting (R127, R132) -/

def destRec (r : Router) (pending : Bool) (d : Nat) : DestRec :=
  let x := r.plan.dest d
  { kind := x.kind, link := effectiveLink r.defs x, heard := heardState r d, routes := routeStates r d, pending := pending }

def DestRec.stateOf (x : DestRec) (key : Nat) : Option RouteState := (x.routes.find? fun k => k.1 = key).map (·.2)

def routeReport (d : Nat) (old new : Nat) (s : State) : JReport :=
  { kind := .route, stamp := s.now, subject := d, values := values old new, dropped := false, clamped := false
    flagOf := .dest d, notice := .none }

/-- Report what changed of one destination (R132): the routes deleted, then those that moved, in the order of the list, as step 5 of
TABLE 7-7 has them, then its heard state (notes/assumptions/34). Several deleted routes come in the order of the old record (DESIGN
CHOICE, there: R132 orders by the list after the step, which holds none of them). -/
def reportDest (d : Nat) (old new : DestRec) (s : State) : State :=
  let moved := new.routes.filter fun k => old.stateOf k.1 ≠ some k.2
  let gone := old.routes.filter fun k => (new.stateOf k.1).isNone
  let s := gone.foldl (fun s k =>
    report .router (routeReport d (routeValue k.1 (some k.2)) (routeValue k.1 none) s) s) s
  let s := moved.foldl (fun s k =>
    report .router (routeReport d (routeValue k.1 (old.stateOf k.1)) (routeValue k.1 (some k.2)) s) s) s
  if old.heard = new.heard then s else report .router (routeReport d (heardValue old.heard) (heardValue new.heard) s) s

def DestRec.at (l : List DestRec) (d : Nat) : DestRec := l.getD d DestRec.reset

/-- A changed staged image is handed to the timebase. -/
def handStaged (before : List (List Nat)) (s : State) : State :=
  if s.router.staged = before then s else { s with mail.stagedChanges := s.mail.stagedChanges ++ [.crosspoints] }

/-- Calls that changed are handed to the tally unit, in ascending link index (DESIGN CHOICE, notes/assumptions/45: R125 gives no
order). -/
def handCalls (before : List Bool) (s : State) : State :=
  let changed := s.router.calls.zipIdx.filterMap fun c =>
    if before.getD c.2 false = c.1 then none else some (c.2, c.1)
  { s with mail.callChanges := s.mail.callChanges ++ changed }

/-- The router with every computed record recomputed. -/
def Router.recompute (r : Router) : Router :=
  { r with
    dests := (List.range Config.destinations).map fun d => destRec r (DestRec.at r.dests d).pending d
    staged := (List.range Config.destinations).map (stagedRow r)
    calls := (List.range Config.links).map (callState r) }

/-- Everything a change of keys, plan or views entails, in one step. -/
def rebuild (s : State) : State :=
  let old := s.router
  let s := { s with router := old.recompute }
  let s := (List.range Config.destinations).foldl
    (fun s d => reportDest d (DestRec.at old.dests d) (DestRec.at s.router.dests d) s) s
  handStaged old.staged (handCalls old.calls s)

/-! ### Keys (R118 to R121) -/

def findKey (r : Router) (source dest : Nat) : Option Nat :=
  r.keys.findIdx? fun o => o.any fun k => k.source = source ∧ k.dest = dest

def freeKey (r : Router) : Option Nat := r.keys.findIdx? Option.isNone

/-- Routes of a key. -/
def routeCount (r : Router) (k : KeyRec) : Nat := (List.range Config.destinations).countP (keyReaches r k)

inductive KeyOutcome where
  | created
  | removed
  | unchanged
  | full
  deriving DecidableEq, Repr

def KeyOutcome.toNat : KeyOutcome → Nat
  | .created => 0
  | .removed => 1
  | .unchanged => 2
  | .full => 2

def setKey (i : Nat) (k : Option KeyRec) (s : State) : State :=
  rebuild { s with router.keys := put s.router.keys i k }

/-- TABLE 7-3: what a press or release does with the key of a pair. The outcome, the record and the number of routes. -/
def keyAction (k : KeyRec) (press : Bool) (s : State) : KeyOutcome × Option Nat × Nat × State :=
  match findKey s.router k.source k.dest with
  | some i =>
    let standing := (s.router.keys.getD i none).getD k
    let remove := if press then k.latch else !k.latch && !standing.latch
    if remove then (.removed, some i, routeCount s.router standing, setKey i none s)
    else (.unchanged, some i, 0, s)
  | none =>
    if press then
      match freeKey s.router with
      | some i => (.created, some i, routeCount s.router k, setKey i (some k) s)
      | none => (.full, none, 0, s)
    else (.unchanged, none, 0, s)

def keyResults (o : KeyOutcome) (i : Option Nat) (routes : Nat) : Results :=
  [(0, leBytes (i.getD 0xFF) 1), (1, leBytes o.toNat 1), (2, leBytes routes 1)]

/-- KEY. -/
def keyStep (s : State) : State :=
  match s.mail.routerOrders with
  | .key tag source dest priority latch press level :: rest =>
    let s := { s with mail.routerOrders := rest }
    if s.router.plan.usable source dest then
      let k : KeyRec :=
        { source := source, dest := dest, priority := priority, latch := latch, level := max level (-40)
          byBeltpack := false, keyed := s.now }
      let (o, i, n, s) := keyAction k press s
      if o = .full then refuseOrder .router tag (keyResults o i n) .tableFull (some dest) s
      else doneOrder .router tag (keyResults o i n) .ok (some dest) s
    else refuseOrder .router tag (keyResults .unchanged none 0) .wrongState (some dest) s
  | _ => s

/-- Remove every key that meets p. -/
def dropKeys (p : KeyRec → Bool) (r : Router) : Router :=
  { r with keys := r.keys.map fun o => o.bind fun k => if p k then none else some k }

/-- CLEAR_KEYS (R121); it completes with no subject (DESIGN CHOICE, notes/assumptions/26). -/
def clearKeysStep (s : State) : State :=
  match s.mail.routerOrders with
  | .clearKeys tag source :: rest =>
    let p (k : KeyRec) : Bool := source.all fun x => k.source = x
    let n := s.router.keys.countP fun o => o.any p
    let s := rebuild { s with mail.routerOrders := rest, router := dropKeys p s.router }
    doneOrder .router tag [(0, leBytes n 1)] .ok none s
  | _ => s

/-- A PRESS that would create a key with every record taken is dropped and reported (R120). There is no key record to name, and the
old and new values are 0 (DESIGN CHOICE, notes/assumptions/42). -/
def droppedReport (dest : Nat) (s : State) : JReport :=
  { kind := .route, stamp := s.now, subject := dest, values := 0, dropped := true, clamped := false
    flagOf := if dest < Config.destinations then .dest dest else .nowhere, notice := .none }

/-- An edge of a key of a link: a press or a release of key 0 or 1 (R120). -/
structure Edge where
  link : Nat
  key : Nat
  press : Bool
  deriving DecidableEq, Repr

/-- What an edge does (R120). -/
def keyEdge (s : State) (e : Edge) : State :=
  match s.router.plan.bindings[2 * e.link + e.key]? with
  | none => s
  | some b =>
    if b.enable && s.router.plan.usable b.source b.dest then
      let key : KeyRec :=
        { source := b.source, dest := b.dest, priority := b.priority, latch := b.latch, level := b.level
          byBeltpack := true, keyed := s.now }
      let (o, _, _, s) := keyAction key e.press s
      if o = .full then report .router (droppedReport b.dest s) s else s
    else s

/-- The key bits that a REPORT carries for a link: for a BELTPACK link on its unit whose channel it carries. -/
def keyBits (r : Report) (defs : List (Option LinkDef)) (link : Nat) : Option (Bool × Bool) :=
  (defs.getD link none).bind fun d =>
    if d.kind = .beltpack && d.unit = r.unit then (r.channels[d.chan]?).map fun c => (c.key0, c.key1) else none

/-- The edges of a link between its known image and the bits of a REPORT: none while the image is unknown. -/
def imageEdges (old now : Option (Bool × Bool)) (link : Nat) : List Edge :=
  match old, now with
  | some o, some n =>
    (if o.1 = n.1 then [] else [{ link := link, key := 0, press := n.1 }])
      ++ if o.2 = n.2 then [] else [{ link := link, key := 1, press := n.2 }]
  | _, _ => []

/-- The edges of a REPORT: those of its links in ascending order, key 0 before key 1 (DESIGN CHOICE, notes/assumptions/42: R120
gives no order of the links on one unit). -/
def edgesOf (r : Report) (t : Router) : List Edge :=
  (List.range Config.links).flatMap fun l => imageEdges (t.images.getD l none) (keyBits r t.defs l) l

/-- The images that a REPORT makes known. -/
def takeImages (r : Report) (t : Router) : Router :=
  { t with images := t.images.zipIdx.map fun x => (keyBits r t.defs x.2).or x.1 }

/-- BELTPACK_KEY_REPORT: each edge acts by itself, so its ROUTE entries precede those of the next edge (DESIGN CHOICE,
notes/assumptions/42: R132 orders the entries of one step by their destination). -/
def beltpackKeyReportStep (s : State) : State :=
  match s.mail.routerReports with
  | [] => s
  | r :: rest =>
    (edgesOf r s.router).foldl keyEdge { s with mail.routerReports := rest, router := takeImages r s.router }

/-- The states that a BELTPACK_KEY_REPORT goes through, one after each edge (R152). -/
def beltpackKeyPath (s : State) : List State :=
  match s.mail.routerReports with
  | [] => []
  | r :: rest => pathOf keyEdge { s with mail.routerReports := rest, router := takeImages r s.router } (edgesOf r s.router)

/-! ### What other blocks hand over -/

/-- ROUTER_TALLY_COLOURS (R129). -/
def routerTallyColoursStep (s : State) : State :=
  match s.mail.colourChanges with
  | [] => s
  | cams :: rest =>
    rebuild { s with mail.colourChanges := rest
                     router.colours := cams.foldl (fun l c => put l c.1 c.2) s.router.colours }

/-- LINK_STATE_TO_ROUTER (R124). -/
def linkStateToRouterStep (s : State) : State :=
  match s.mail.linkToRouter with
  | [] => s
  | (l, st, h) :: rest =>
    rebuild { s with mail.linkToRouter := rest, router.links := put s.router.links l (st, h) }

/-- ROUTER_KILL_STATE (R124). -/
def routerKillStateStep (s : State) : State :=
  match s.mail.killToRouter with
  | [] => s
  | on :: rest => rebuild { s with mail.killToRouter := rest, router.killed := on }

/-- A beltpack's key image becomes unknown when its definition is new or its kind, unit or channel changed (R131). -/
def keepsImage (old new : Option LinkDef) : Bool :=
  match old, new with
  | some a, some b => a.kind = b.kind && a.unit = b.unit && a.chan = b.chan
  | _, none => true
  | none, some _ => false

/-- ROUTER_STATION_ADOPTION (R131). -/
def routerStationAdoptionStep (s : State) : State :=
  match s.mail.routerDefs with
  | [] => s
  | defs :: rest =>
    let images := s.router.images.zipIdx.map fun x =>
      if keepsImage (s.router.defs.getD x.2 none) (defs.getD x.2 none) then x.1 else none
    rebuild { s with mail.routerDefs := rest, router.defs := defs, router.images := images }

/-- The plan of a cue copy (R130): keys that lose their source, destination or group are removed. -/
def routerCueAdoption (p : TalkPlan) (s : State) : State :=
  rebuild { s with router := dropKeys (fun k => !p.usable k.source k.dest) { s.router with plan := p } }

/-! ### The crosspoint port (R128) -/

/-- Every crosspoint, ascending by output and by input, with its staged and applied codes. -/
def crosspoints (r : Router) : List (XWord × Nat) :=
  (List.range Config.destinations).flatMap fun d =>
    (List.range Config.inputs).map fun i =>
      ({ output := d, input := i, code := (r.staged.getD d []).getD i 0 }, (r.applied.getD d []).getD i 0)

/-- The words an apply places: those that differ, or all of them at the first apply after RUN. -/
def wordsToPlace (r : Router) : List XWord :=
  ((crosspoints r).filter fun x => !r.imageSent || x.1.code ≠ x.2).map (·.1)

def placeWord (q : List XWord) (w : XWord) : List XWord := placeBy (fun x => x.output = w.output && x.input = w.input) w q

/-- The port begins the oldest waiting word when it sends none. -/
def Router.startPort (r : Router) : Router :=
  match r.portSending, r.portQueue with
  | none, w :: rest => { r with portSending := some w, portQueue := rest }
  | _, _ => r

def Router.applyCrosspoints (r : Router) : Router :=
  { r with portQueue := (wordsToPlace r).foldl placeWord r.portQueue, applied := r.staged, imageSent := true }.startPort

/-- CROSSPOINT_APPLY. -/
def crosspointApplyStep (s : State) : State :=
  if s.mail.xpApplySent then
    let n := (wordsToPlace s.router).length
    { s with mail.xpApplySent := false, router := s.router.applyCrosspoints
             mail.applyAnswers := s.mail.applyAnswers ++ [(.crosspoints, n)] }
  else s

/-- CROSSPOINT_WORD_SENT. -/
def crosspointWordSentStep (s : State) : State :=
  match s.router.portSending with
  | none => s
  | some _ => { s with router := { s.router with portSending := none }.startPort }

end Sys2Proof.Machine
end

