-- ==== Sys2Proof/Machine/Journal.lean ====
section
/-! DEFINITION. Chapter 11: the journal writer and the notice logic. -/

namespace Sys2Proof.Machine

/-! ### Counts (R163, R164) -/

def Journal.unread (j : Journal) : Nat := (j.head + 65536 - j.taken % 65536) % 65536

/-- The host's journal-taken word in the directory. -/
def takenWord (s : State) : Nat := fieldAt s.mem 0x0A 2

def setLinkPending (b : Bool) (i : Nat) (s : State) : State :=
  let l := s.link i
  { s with sup.links := put s.sup.links i { l with vis := { l.vis with pending := b } } }

def setCamPending (b : Bool) (c : Nat) (s : State) : State :=
  { s with tally.cams := put s.tally.cams c { camOf s c with pending := b } }

def setDestPending (b : Bool) (d : Nat) (s : State) : State :=
  { s with router.dests := put s.router.dests d { DestRec.at s.router.dests d with pending := b } }

/-- Set every pending flag of TABLE 11-2 that stands for a record. -/
def setAllPending (s : State) : State :=
  { s with
    jw.killPending := true, jw.referencePending := true, jw.tablePending := true
    jw.cellPending := s.jw.cellPending.map fun _ => true
    sup.links := s.sup.links.map fun l => { l with vis := { l.vis with pending := true } }
    tally.cams := s.tally.cams.map fun c => { c with pending := true }
    router.dests := s.router.dests.map fun d => { d with pending := true } }

/-- The writer reads the host's word (R164): more than 128 unread makes everything taken, and every flag set. -/
def readTaken (s : State) : State :=
  let w := takenWord s
  if (s.jw.head + 65536 - w) % 65536 ≤ 128 then { s with jw.taken := w }
  else setAllPending { s with jw.taken := s.jw.head }

/-! ### Notices (R167, R168) -/

/-- Setting JOURNAL stops the delay count. -/
def Journal.setJournal (j : Journal) : Journal := { j.raise nJournal with delayCount := none }

/-- After an append: the threshold, or the start of the delay count. -/
def Journal.afterAppend (j : Journal) : Journal :=
  if j.threshold ≤ j.unread then j.setJournal
  else if j.notice &&& nJournal = 0 ∧ j.delayCount = none then { j with delayCount := some 0 }
  else j

/-- The three steps of an append (R163). -/
def Journal.append (e : JEntry) (j : Journal) : Journal :=
  { j with entries := put j.entries (j.head % Config.journalEntries) (some { e with sequence := j.head })
           head := (j.head + 1) % 65536 }.afterAppend

/-! ### Resynchronisation (R165, R166) -/

/-- The records that can be pending, in the order of the walk. -/
inductive PendingRec where
  | kill
  | reference
  | table
  | link (i : Nat)
  | camera (c : Nat)
  | dest (d : Nat)
  | cell (n : Nat)
  deriving DecidableEq, Repr

/-- The first pending record in the order of R166. -/
def firstPending (s : State) : Option PendingRec :=
  if s.jw.killPending then some .kill
  else if s.jw.referencePending then some .reference
  else if s.jw.tablePending then some .table
  else
    match s.sup.links.findIdx? fun l => l.vis.pending with
    | some i => some (.link i)
    | none =>
      match s.tally.cams.findIdx? fun c => c.pending with
      | some c => some (.camera c)
      | none =>
        match s.router.dests.findIdx? fun d => d.pending with
        | some d => some (.dest d)
        | none => (s.jw.cellPending.findIdx? id).map .cell

def clearPending (p : PendingRec) (s : State) : State :=
  match p with
  | .kill => { s with jw.killPending := false }
  | .reference => { s with jw.referencePending := false }
  | .table => { s with jw.tablePending := false }
  | .link i => setLinkPending false i s
  | .camera c => setCamPending false c s
  | .dest d => setDestPending false d s
  | .cell n => { s with jw.cellPending := put s.jw.cellPending n false }

/-- A RESYNC entry's kind, subject and 48-bit value (TABLE 11-3, TABLE 12-10). That of the reference flag, which carries reference
state, rate and clock, has the subject 0 of the reference, and that of the table flag, which carries both groups, has none (DESIGN
CHOICE, notes/assumptions/51). -/
def resyncContent (p : PendingRec) (s : State) : JKind × Nat × Nat :=
  match p with
  | .kill => (.kill, noSubject, killValue s.kc.asserted s.kc.cause + bit s.kc.filter.accepted 4)
  | .reference =>
    (.timebase, 0, bit s.tb.locked 0 + s.tb.rate * 2 ^ 8 + clockValue s.tb.sec s.tb.frame * 2 ^ 16)
  | .table =>
    let a := s.adopt.station.status
    let b := s.adopt.cue.status
    (.table, noSubject, a.result.toNat + a.reason.toNat * 2 ^ 2 + a.gen * 2 ^ 6 + b.result.toNat * 2 ^ 24
      + b.reason.toNat * 2 ^ 26 + b.gen * 2 ^ 30)
  | .link i => (.link, (s.linkRec i).resyncSubject i, (s.linkRec i).resyncValue)
  | .camera c => (.tally, c + 1, (camOf s c).value)
  | .dest d =>
    let x := DestRec.at s.router.dests d
    let listed := x.routes.countP fun k => k.2 = .slotted || k.2 = .waiting
    (.route, d, bit x.heard 0 + listed * 2 ^ 8 + (x.routes.countP fun k => k.2 = .slotted) * 2 ^ 16)
  | .cell n =>
    let b := cellBase n
    (.order, n, byteAt s.mem b + byteAt s.mem (b + 1) * 2 ^ 8 + byteAt s.mem (b + 4) * 2 ^ 16 + fieldAt s.mem (b + 2) 2 * 2 ^ 24)

def resyncEntry (p : PendingRec) (s : State) : JEntry :=
  let (k, subject, v) := resyncContent p s
  { sequence := 0, kind := k, stamp := s.now, subject := subject, values := v, resync := true, dropped := false
    clamped := false }

def appendEntry (e : JEntry) (s : State) : State := { s with jw := s.jw.append e }

/-- Whether the walk goes on: the read just made found room, and some flag is pending. -/
def markWalking (s : State) : State := { s with jw.walking := decide (s.jw.unread < 128) && (firstPending s).isSome }

/-- One entry of the walk: the writer reads the taken count and, if that finds room, appends the RESYNC entry of the first
pending record and clears its flag in the same step. The walk ends at a full journal, and with the last flag. -/
def resyncStep (s : State) : State :=
  let s := readTaken s
  if s.jw.unread < 128 then
    match firstPending s with
    | none => { s with jw.walking := false }
    | some p =>
      let s := clearPending p (appendEntry (resyncEntry p s) s)
      { s with jw.walking := (firstPending s).isSome }
  else { s with jw.walking := false }

/-! ### Reports (R163, R165) -/

def JReport.entry (r : JReport) : JEntry :=
  { sequence := 0, kind := r.kind, stamp := r.stamp, subject := r.subject, values := r.values, resync := false
    dropped := r.dropped, clamped := r.clamped }

/-- TABLE 11-2. -/
def setPending (p : PendingOf) (s : State) : State :=
  match p with
  | .killFlag => { s with jw.killPending := true }
  | .referenceFlag => { s with jw.referencePending := true }
  | .tableFlag => { s with jw.tablePending := true }
  | .linkRec i => setLinkPending true i s
  | .camera c => setCamPending true c s
  | .dest d => setDestPending true d s
  | .cell n => { s with jw.cellPending := put s.jw.cellPending n true }
  | .nowhere => s

/-- The notice that goes with a report taken. -/
def noticeReport (n : NoticeOf) (appended : Bool) (s : State) : State :=
  match n with
  | .none => s
  | .order => raise nOrder s
  | .orderIfAppended => if appended then raise nOrder s else s
  | .kill => raise nKill s

/-- The writer takes a report: appended when there is room and no flag is pending, otherwise marked. -/
def takeJournalReport (r : JReport) (s : State) : State :=
  let s := readTaken s
  if s.jw.unread < 128 && (firstPending s).isNone then noticeReport r.notice true (appendEntry r.entry s)
  else markWalking (noticeReport r.notice false (setPending r.flagOf s))

/-- The oldest report of an owner is taken, if there is one. -/
def takeOldestReport (o : Owner) (s : State) : State :=
  match takeFirst (fun r : Owner × JReport => r.1 = o) s.mail.reports with
  | none => s
  | some (r, rest) => takeJournalReport r.2 { s with mail.reports := rest }

/-- JOURNAL_DELAY_EXPIRY. -/
def journalDelayExpiryStep (s : State) : State :=
  if s.jw.delayCount.any fun n => s.jw.delayFrames ≤ n then { s with jw := s.jw.setJournal } else s

/-! ### Host writes of NOTICE and NOTICE ENABLE (R167, R168) -/

/-- The threshold test on its own. -/
def Journal.testThreshold (j : Journal) : Journal := if j.threshold ≤ j.unread then j.setJournal else j

def Journal.clearBits (bits : BitVec 5) (j : Journal) : Journal := { j with notice := j.notice &&& ~~~bits }.drive

/-- A host write to NOTICE clears the bits written 1. One that clears JOURNAL makes the writer read the taken count and test the
threshold, and the walk, if a flag is pending, goes on with what that read found. -/
def clearNotice (bits : Word) (s : State) : State :=
  let b : BitVec 5 := bits.setWidth 5
  let s := { s with jw := s.jw.clearBits b }
  if b &&& nJournal = 0 then s
  else
    let s := readTaken s
    markWalking { s with jw := s.jw.testThreshold }

/-- NOTICE_ENABLE_WRITE. -/
def noticeEnableWriteStep (bits : Word) (s : State) : State :=
  { s with jw := { s.jw with enable := bits.setWidth 5 }.drive }

/-- The journal writer's part of a cue adoption (R168). -/
def journalCueAdoption (c : CueSettings) (s : State) : State :=
  let changed := s.jw.threshold ≠ c.threshold
  let j := { s.jw with threshold := c.threshold, delayFrames := c.delay }
  let j := if changed then j.testThreshold else j
  let j := if j.delayCount.any fun n => c.delay ≤ n then j.setJournal else j
  { s with jw := j }

end Sys2Proof.Machine
end

