-- ==== Sys2Proof/Machine/Orders.lean ====
section
/-! DEFINITION. Chapter 10: the host port, POST and the order dispatcher, the lock ports, the two adoptions, the resets and
RUN. -/

namespace Sys2Proof.Machine

/-! ### Host writes to the shared memory (R151, R152) -/

/-- The bytes that a host write reaches: the journal-taken count, the order cells, the host tables and the free area
(TABLE 10-1). -/
def hostWritable (a : Nat) : Bool :=
  (0x0A ≤ a && a < 0x0C) || (0x400 ≤ a && a < 0x4C80) || (0xA800 ≤ a && a < 0x20000)

/-- Write byte k of a word when its byte enable is set and the host may write it. -/
def writeEnabled (wordIndex : Nat) (data : Word) (enables : BitVec 4) (m : List Host.Cell) (k : Nat) : List Host.Cell :=
  let a := 4 * wordIndex + k
  if enables.getLsbD k && hostWritable a then Memory.write m a (data.extractLsb' (8 * k) 8) else m

/-- HOST_MEMORY_WRITE. -/
def hostMemoryWriteStep (wordIndex : Nat) (data : Word) (enables : BitVec 4) (s : State) : State :=
  { s with mem := (List.range 4).foldl (writeEnabled wordIndex data enables) s.mem }

/-- REGISTER_WRITE_DISCARDED: the bus cycle completes, and nothing changes. -/
def registerWriteDiscardedStep (_wordIndex : Nat) (_data : Word) (s : State) : State := s

/-! ### POST (R153) -/

/-- The cell of a request at the plan engine. -/
def PlanReq.cell : PlanReq → Option Nat
  | .query t _ => some t.cell
  | .fill t _ => some t.cell
  | .audit t => some t.cell
  | .internalAudit => none
  | .planning r => some r.cell

/-- The cell is in the intake queue, in the plan queue, or in service; that of a planning request stays in service until the
request ends. -/
def cellInUse (s : State) (n : Nat) : Bool :=
  s.disp.intake.contains n || s.disp.service.contains n || s.eng.queue.any (fun r => r.cell = some n)
    || s.eng.standby.any (fun r => r.cell = n)
    || s.eng.service.any fun v => v.req.cell = some n

/-- The tests of a POST, in their order. -/
def postOutcome (s : State) (n : Nat) : PostOutcome :=
  if !s.running then .notRunning
  else if Config.cells ≤ n then .outOfRange
  else if cellInUse s n then .duplicate
  else if Config.intakePlaces ≤ s.disp.intake.length then .queueFull
  else .taken

/-- POST: the whole word written is the cell number. -/
def postStep (number : Word) (s : State) : State :=
  let n := number.toNat
  let o := postOutcome s n
  let s := { s with disp.outcome := o }
  if o = .taken then { s with disp.intake := s.disp.intake ++ [n] } else s

/-- Free places of the intake queue. -/
def Dispatcher.free (d : Dispatcher) : Nat := Config.intakePlaces - d.intake.length

/-! ### Dispatching (R155, R156) -/

/-- The CLAMPED flag of a cell's header. -/
def markClamped (cell : Nat) (clamped : Bool) (s : State) : State :=
  if clamped then
    let a := cellBase cell + 5
    { s with mem := Memory.write s.mem a (Memory.read s.mem a ||| 1) }
  else s

/-- The entry of a dropped cell: result NOT_READY, with the kind and the state byte the cell holds. -/
def notReadyReport (cell : Nat) (s : State) : JReport :=
  { kind := .order, stamp := s.now, subject := cell
    values := values (byteAt s.mem (cellBase cell + 1)) (ResultCode.notReady.toNat + byteAt s.mem (cellBase cell) * 256)
    dropped := false, clamped := false, flagOf := .nowhere, notice := .orderIfAppended }

/-- The cell at the head leaves the intake queue. -/
def leaveIntake (s : State) : State := { s with disp.intake := s.disp.intake.tail }

/-- The cell leaves the intake queue for its owner and is in service. -/
def enterService (cell : Nat) (s : State) : State :=
  { leaveIntake s with disp.service := s.disp.service ++ [cell] }

/-- The order waits ACCEPTED at the head (R156). -/
def holdAtHead (o : Order) (s : State) : State := { s with disp.waiting := some o }

/-- Hand an accepted order to its owner (TABLE 10-3). -/
def handOver (cell : Nat) (o : Order) (s : State) : State :=
  match o with
  | .link x => { enterService cell s with mail.linkOrders := s.mail.linkOrders ++ [x] }
  | .plan r =>
    if s.eng.freePlace && !s.placeWanted then { leaveIntake s with eng.queue := s.eng.queue ++ [r] }
    else holdAtHead o s
  | .clearReserve tag filter =>
    if clearReserveOrders s.ctl.queue < Config.clearReservePlaces then
      pushRequest (.clearReserve tag filter) (enterService cell s)
    else holdAtHead o s
  | .setTally _ _ _ => { enterService cell s with mail.tallyOrders := s.mail.tallyOrders ++ [o] }
  | .key _ _ _ _ _ _ _ => { enterService cell s with mail.routerOrders := s.mail.routerOrders ++ [o] }
  | .clearKeys _ _ => { enterService cell s with mail.routerOrders := s.mail.routerOrders ++ [o] }
  | .apply _ _ _ => { enterService cell s with mail.timebaseOrders := s.mail.timebaseOrders ++ [o] }
  | .setClock _ _ _ => { enterService cell s with mail.timebaseOrders := s.mail.timebaseOrders ++ [o] }
  | .kill _ => { enterService cell s with mail.killOrders := s.mail.killOrders ++ [o] }
  | .releaseKill _ => { enterService cell s with mail.killOrders := s.mail.killOrders ++ [o] }
  | .lineTest _ _ => { enterService cell s with mail.lineTests := s.mail.lineTests ++ [o] }

/-- A refusal by the dispatcher: its subject is the cell. -/
def refuseCell (cell : Nat) (clamped : Bool) (res : Results) (code : ResultCode) (s : State) : State :=
  let tag : OrderTag := { cell := cell, kind := byteAt s.mem (cellBase cell + 1), clamped := clamped }
  refuseOrder .dispatcher tag res code (some cell) (markClamped cell clamped (leaveIntake s))

/-- The four tests on the cell at the head of the intake queue. -/
def dispatchCell (cell : Nat) (s : State) : State :=
  if byteAt s.mem (cellBase cell) ≠ stReady then report .dispatcher (notReadyReport cell s) (leaveIntake s)
  else
    match parseOrder s.mem cell with
    | .badKind => refuseCell cell false [] .badKind s
    | .refused offset clamped => refuseCell cell clamped [(0, leBytes offset 1)] .badParameter s
    | .taken o => handOver cell o (writeCellState cell stAccepted (markClamped cell o.tag.clamped s))

/-- DISPATCH_CELL. -/
def dispatchCellStep (s : State) : State :=
  match s.disp.waiting, s.disp.intake with
  | none, cell :: _ => dispatchCell cell s
  | _, _ => s

/-- The hand-over of a plan order (R49, R50, R53): the dispatch of a cell at the head of the intake queue that holds an acceptable
order of this kind. It is the step that DISPATCH_CELL makes on such a cell, and on any other it has no occasion
(notes/assumptions/16). -/
def dispatchPlanOrder (p : PlanReq → Bool) (s : State) : State :=
  match s.disp.waiting, s.disp.intake with
  | none, cell :: _ =>
    if byteAt s.mem (cellBase cell) = stReady then
      match parseOrder s.mem cell with
      | .taken (.plan r) => if p r then dispatchCell cell s else s
      | _ => s
    else s
  | _, _ => s

/-- PLAN_QUERY. -/
def planQueryStep (s : State) : State := dispatchPlanOrder (fun r => match r with | .query _ _ => true | _ => false) s

/-- FILL_RESERVE. -/
def fillReserveStep (s : State) : State := dispatchPlanOrder (fun r => match r with | .fill _ _ => true | _ => false) s

/-- AUDIT_PLAN. -/
def auditPlanStep (s : State) : State := dispatchPlanOrder (fun r => match r with | .audit _ => true | _ => false) s

/-! ### Lock ports and adoption requests (R157) -/

def Lock.set (l : Lock) : Lock := { flag := true, test := l.flag }

def Lock.release (l : Lock) : Lock := { l with flag := false }

/-- LOCK_SET. -/
def lockSetStep (p : LockPort) (s : State) : State :=
  match p with
  | .stationPort => { s with lockP := s.lockP.set }
  | .cuePort => { s with lockC := s.lockC.set }

/-- The station tables, and the cue tables (TABLE 10-1): the regions that an adoption of the group copies. -/
def stationRegion (a : Nat) : Bool := 0x2400 ≤ a && a < 0x4000

def cueRegion (a : Nat) : Bool := 0x4000 ≤ a && a < 0x4C80

/-- The bytes of some region as they stand; those outside it read as nothing written. -/
def copyRegion (region : Nat → Bool) (m : List Host.Cell) : List Host.Cell := m.filter fun c => region c.1

/-- The adoption begins with its copy of the group's regions, `m`. -/
def AdoptState.start (m : List Host.Cell) (a : AdoptState) : AdoptState :=
  { a with stage := .begun, held := false, tables := m }

/-- A request by a release: in IDLE the adoption begins, and a request held until now is the same request. -/
def AdoptState.request (m : List Host.Cell) (a : AdoptState) : AdoptState :=
  if a.stage = .idle then a.start m else { a with pending := true }

/-- A request by RUN: in IDLE it waits while the lock flag is set (R162). -/
def AdoptState.requestAtRun (locked : Bool) (m : List Host.Cell) (a : AdoptState) : AdoptState :=
  if a.stage = .idle && locked then { a with held := true } else a.request m

/-- LOCK_RELEASE. -/
def lockReleaseStep (p : LockPort) (s : State) : State :=
  match p with
  | .stationPort =>
    let s := { s with lockP := s.lockP.release }
    if s.running then { s with adopt.station := s.adopt.station.request (copyRegion stationRegion s.mem) } else s
  | .cuePort =>
    let s := { s with lockC := s.lockC.release }
    if s.running then { s with adopt.cue := s.adopt.cue.request (copyRegion cueRegion s.mem) } else s

/-! ### The end of an adoption (R158) -/

def tableReport (group : Nat) (st : AdoptStatus) (s : State) : JReport :=
  { kind := .table, stamp := s.now, subject := st.subject.getD noSubject, values := values 0 (tableValue group st)
    dropped := false, clamped := false, flagOf := .tableFlag, notice := .none }

/-- The group goes IDLE; a pending request begins the next adoption with the regions as they now stand, `m`, or is held while
the lock flag is set. -/
def AdoptState.finish (locked : Bool) (m : List Host.Cell) (st : AdoptStatus) (a : AdoptState) : AdoptState :=
  let ended : AdoptState :=
    { a with stage := .idle, pending := false, tables := [], status := st, written := a.written + 1 }
  if a.pending then (if locked then { ended with held := true } else ended.start m) else ended

/-- The TABLE entry and the TABLE notice. -/
def tellTable (group : Nat) (st : AdoptStatus) (s : State) : State :=
  raise nTable (report .adoption (tableReport group st s) s)

/-- The station adoption ends; that of RUN is followed by the request for the cue adoption. -/
def endStation (st : AdoptStatus) (s : State) : State :=
  let s := tellTable 0 st s
  let s := { s with
    adopt.station := s.adopt.station.finish s.lockP.flag (copyRegion stationRegion s.mem) st
    adopt.copy := none, adopt.barred := [] }
  if s.adopt.cueAfterStation then
    { s with adopt.cueAfterStation := false
             adopt.cue := s.adopt.cue.requestAtRun s.lockC.flag (copyRegion cueRegion s.mem) }
  else s

def endCue (st : AdoptStatus) (s : State) : State :=
  let s := tellTable 1 st s
  { s with adopt.cue := s.adopt.cue.finish s.lockC.flag (copyRegion cueRegion s.mem) st }

/-- A rejection leaves the adopted generation. -/
def AdoptStatus.rejected (reason : Reason) (subject : Nat) (old : AdoptStatus) : AdoptStatus :=
  { result := .rejected, reason := reason, subject := some subject, gen := old.gen }

def AdoptStatus.accepted (gen : Nat) : AdoptStatus := { result := .accepted, reason := .none, subject := none, gen := gen }

/-! ### The station adoption (R159, R77) -/

/-- Links whose ENABLE_LINK is refused BUSY until the definitions are taken. -/
def barredLinks (old new : List (Option LinkDef)) : List Nat :=
  (List.range Config.links).filter fun i => protectedChange (old.getD i none) (new.getD i none)

/-- STATION_ADOPTION: clamp and validate the copy; reject, or send the ADOPT. -/
def stationAdoptionStep (s : State) : State :=
  if s.adopt.station.stage = .begun then
    match stationFailure s.adopt.station.tables s.sup.defs (s.sup.links.map fun l => l.vis.state) with
    | some (reason, i) => endStation (AdoptStatus.rejected reason i s.adopt.station.status) s
    | none =>
      let c := readStation s.adopt.station.tables
      pushRequest (.adopt c.rules)
        { s with adopt.station.stage := .atController, adopt.copy := some c, adopt.barred := barredLinks s.sup.defs c.defs }
  else s

/-- STATION_DEFINITIONS_TAKEN: once ADOPT is answered the link supervisor takes the definitions and settings, the unit list is
rebuilt, the tally unit and the router are handed the definitions, and kill control takes its width. -/
def stationDefinitionsTakenStep (s : State) : State :=
  match s.adopt.station.stage, s.adopt.copy with
  | .answered, some c =>
    let s := rebuildUnits (takeDefinitions c s)
    let s := { s with mail.tallyDefs := s.mail.tallyDefs ++ [c.defs], mail.routerDefs := s.mail.routerDefs ++ [c.defs] }
    let s := adoptKillWidth c.killWidth s
    endStation (AdoptStatus.accepted s.ctl.ruleGen) s
  | _, _ => s

/-! ### The cue adoption (R160) -/

/-- The owners take the copy in order: tally unit, router, timebase, journal writer. -/
def takeCue (m : List Host.Cell) (s : State) : State :=
  let c := readCueSettings m
  journalCueAdoption c
    (timebaseCueAdoption c
      (routerCueAdoption (readPlan m) (tallyCueAdoption ((List.range 64).map (readMapEntry m)) c.widths s)))

/-- CUE_ADOPTION, over the copy. -/
def cueAdoptionStep (s : State) : State :=
  if s.adopt.cue.stage = .begun then
    match cueFailure s.adopt.cue.tables s.sup.defs with
    | some d => endCue (AdoptStatus.rejected .badReference d s.adopt.cue.status) s
    | none => endCue (AdoptStatus.accepted ((s.adopt.cue.status.gen + 1) % 65536)) (takeCue s.adopt.cue.tables s)
  else s

/-- The states that a CUE_ADOPTION goes through, one after each contact whose run may complete (R152). -/
def cueAdoptionPath (s : State) : List State :=
  if s.adopt.cue.stage = .begun && (cueFailure s.adopt.cue.tables s.sup.defs).isNone then
    let m := s.adopt.cue.tables
    let s := { s with tally.map := (List.range 64).map (readMapEntry m), tally.widths := (readCueSettings m).widths }
    pathOf completeRun s (List.range Config.contacts)
  else []

/-! ### Resets and RUN (R161, R162) -/

/-- A filter after a reset: the pin keeps its level. -/
def Filter.atReset (f : Filter) : Filter := { Filter.reset with raw := f.raw }

/-- Every block in its reset state. The levels of the pins, elapsed time and the counters of free values go on; the queue of
waiting commands is not the part's. -/
def resetBlocks (m : List Host.Cell) (s : State) : State :=
  { State.reset with
    mem := m
    eng := { Engine.reset with paceCount := s.eng.paceCount }
    ul := { UnitLink.reset with uatn := s.ul.uatn }
    tally := { TallyUnit.reset with inputs := s.tally.inputs.map Filter.atReset }
    tb := { Timebase.reset with takeFilter := s.tb.takeFilter.atReset, elapsed := s.tb.elapsed }
    kc := { KillControl.reset with filter := s.kc.filter.atReset }
    jw := { Journal.reset with walkCount := s.jw.walkCount }
    openCount := s.openCount
    pending := s.pending }

/-- POWER_ON_RESET: the host-written regions hold nothing defined. -/
def powerOnResetStep (s : State) : State := resetBlocks [] s

/-- A part reset: the host-written regions keep their contents; the journal-taken count is 0. -/
def partResetStep (s : State) : State := resetBlocks (Memory.writeBytes s.mem 0x0A [0, 0]) s

/-- RUN is taken in HALTED, and ignored otherwise (R161, R162). -/
def runStep (s : State) : State :=
  if s.part = .halted then
    let s := { s with part := .running, tb := timebaseRun s.tb }
    let s := rebuild (killRun (tallyRun s))
    let s := if s.ul.uatn then beginRound s else s
    { s with adopt.station := s.adopt.station.requestAtRun s.lockP.flag (copyRegion stationRegion s.mem)
             adopt.cueAfterStation := true }
  else s

end Sys2Proof.Machine
end

