-- ==== Sys2Proof/Machine/View.lean ====
section
/-! DEFINITION. What the host reads: the bytes of every part-written record (R171, R174, R175), of the host-written regions,
and the register words; and the bits that the unit link carries. No command reads through this file; a host read changes nothing (R151). -/

namespace Sys2Proof.Machine

/-! ### Fields -/

/-- One byte. -/
def byte1 (n : Nat) : List Byte := leBytes n 1

def zeros (n : Nat) : List Byte := List.replicate n 0

/-- A one-byte index, 0FFh for none (R170). -/
def indexByte (o : Option Nat) : List Byte := byte1 (o.getD 0xFF)

/-- A code, FFFFFFFFh for none. -/
def codeBytes (o : Option Nat) : List Byte := leBytes (o.getD 0xFFFFFFFF) 4

def stampBytes (o : Option Timestamp) : List Byte := leBytes (stampWord o) 4

/-- IDENT (TABLE 12-2). -/
def identWord : Nat := 0x0960 + Config.revision.toNat * 2 ^ 16

/-! ### Directory (TABLE 12-3) -/

def statusBytes (a : AdoptStatus) : List Byte :=
  byte1 a.result.toNat ++ byte1 a.reason.toNat ++ leBytes (a.subject.getD 0xFFFF) 2 ++ leBytes a.gen 2

def pendingFlags (j : Journal) : Nat := bit j.killPending 0 + bit j.referencePending 1 + bit j.tablePending 2

/-- The directory; its journal-taken count is the host's word. -/
def directoryBytes (s : State) : List Byte :=
  leBytes identWord 4
  ++ leBytes s.counts.directory 2 ++ byte1 s.part.toNat ++ byte1 (bit s.kc.asserted 0)
  ++ leBytes s.jw.head 2 ++ leBytes (takenWord s) 2
  ++ leBytes s.ctl.carrierGen 2 ++ leBytes s.ctl.ruleGen 2
  ++ leBytes { s.now with tick := 0 }.word 4
  ++ byte1 s.tb.rate ++ byte1 (bit s.tb.locked 0) ++ byte1 s.disp.free ++ byte1 (pendingFlags s.jw)
  ++ leBytes s.ul.sweepCount 4
  ++ byte1 s.kc.cause.toNat ++ byte1 (bit s.kc.filter.accepted 0) ++ zeros 2
  ++ statusBytes s.adopt.station.status ++ zeros 2 ++ statusBytes s.adopt.cue.status

/-! ### Records (TABLE 12-8, TABLE 12-9) -/

def linkBytes (count : Nat) (l : LinkRec) : List Byte :=
  leBytes count 2 ++ byte1 l.state.toNat ++ byte1 (healthNat l.health)
  ++ byte1 (healthNat l.outRec.health) ++ byte1 (healthNat l.inRec.health) ++ byte1 l.seqKind.toNat ++ byte1 l.phase.toNat
  ++ byte1 (roleSet l.seqOut l.seqIn) ++ byte1 l.repeats ++ indexByte l.orderCell ++ byte1 (l.flags + bit l.pending 7)
  ++ byte1 (holdNat l.hold) ++ byte1 l.block.toNat ++ byte1 l.learning ++ byte1 l.misses
  ++ stampBytes l.holdStart ++ stampBytes l.lastVisit
  ++ codeBytes l.outRec.present ++ codeBytes l.outRec.fresh ++ codeBytes l.inRec.present ++ codeBytes l.inRec.fresh
  ++ stampBytes l.outRec.degradedSince ++ stampBytes l.inRec.degradedSince
  ++ byte1 l.outRec.badRun ++ byte1 l.outRec.goodRun ++ byte1 l.inRec.badRun ++ byte1 l.inRec.goodRun

/-- A free slot reads 0 but for its change count (R22). -/
def carrierBytes (count : Nat) : Option CarrierEntry → List Byte
  | none => leBytes count 2
  | some e =>
    leBytes count 2 ++ byte1 e.state.toNat ++ byte1 e.marks ++ byte1 e.link ++ byte1 (Role.toNat e.role) ++ byte1 e.cls
    ++ byte1 e.zone ++ leBytes e.code 4 ++ leBytes e.since.word 4

/-- An unused position reads empty but for its change count (R34). Empty is its occupied bit 0 (TABLE 12-9); that its code, class,
zone and fill timestamp then read 0 too, and the timestamp not FFFFFFFFh, is a DESIGN CHOICE, notes/assumptions/55. -/
def reserveBytes (count : Nat) : Option ReserveEntry → List Byte
  | none => leBytes (count * 2 ^ 24) 4
  | some e =>
    leBytes (e.code + e.cls * 2 ^ 17 + e.zone * 2 ^ 20 + 2 ^ 22 + count * 2 ^ 24) 4 ++ leBytes e.fill.word 4

def camBytes (count : Nat) (c : CamRec) : List Byte :=
  leBytes count 2 ++ byte1 c.staged.toNat ++ byte1 c.applied.toNat
  ++ byte1 c.stagedLamp.toNat ++ byte1 c.appliedLamp.toNat ++ indexByte c.link ++ byte1 c.delivery.toNat
  ++ byte1 (bit c.call 0 + bit c.cueOut 1 + bit c.pending 2) ++ byte1 c.reports ++ zeros 2 ++ stampBytes c.edge

/-- A free record reads 0 but for its change count (R118). -/
def keyBytes (count : Nat) : Option KeyRec → List Byte
  | none => leBytes count 2
  | some k =>
    leBytes count 2 ++ byte1 k.source ++ byte1 k.dest ++ byte1 k.priority ++ byte1 (bit k.latch 0)
    ++ byte1 (bit k.byBeltpack 0) ++ byte1 1 ++ leBytesInt k.level 2 ++ zeros 2 ++ leBytes k.keyed.word 4

/-- Key indexes of the list in order; places past the list read none. -/
def listBytes (l : List (Nat × RouteState)) : List Byte :=
  let listed := (l.filter fun k => k.2 = .slotted || k.2 = .waiting).map (·.1)
  ((listed ++ List.replicate 24 0xFF).take 24).flatMap byte1

def DestRec.count (x : DestRec) (p : RouteState → Bool) : Nat := x.routes.countP fun k => p k.2

def routeBytes (count : Nat) (x : DestRec) : List Byte :=
  leBytes count 2 ++ byte1 x.kind.toNat ++ indexByte x.link
  ++ byte1 (bit x.heard 0) ++ byte1 (x.count fun r => r = .slotted || r = .waiting) ++ byte1 (x.count (· = .slotted))
  ++ byte1 (bit x.pending 7)
  ++ byte1 (x.count (· = .merged)) ++ byte1 (x.count (· = .excludedSelf)) ++ listBytes x.routes

/-! ### Journal entries (R175) -/

def JEntry.flags (e : JEntry) : Nat := bit e.resync 4 + bit e.dropped 5 + bit e.clamped 6

/-- A position that no entry has been written to reads 0. -/
def entryBytes : Option JEntry → List Byte
  | none => []
  | some e =>
    leBytes e.stamp.word 4 ++ leBytes e.sequence 2 ++ byte1 (e.kind.toNat + e.flags) ++ leBytes e.subject 3
    ++ leBytes e.values 6

/-! ### The unit link as its line shows it (R176) -/

/-- The bits of the frame being sent on the unit link; none while no frame is being sent. -/
def sentBits (s : State) : List Bool :=
  match s.ul.xact with
  | some x => if x.sending then lineBits x.req.frame else []
  | none => []

/-! ### Host reads (R151) -/

/-- Byte `a` of a table of records of this size; bytes past a record's fields are reserved and read 0 (R170). -/
def recordByte (size : Nat) (f : Nat → List Byte) (a : Nat) : Byte := (f (a / size)).getD (a % size) 0

/-- A byte of the memory window as the host reads it. -/
def hostRead (s : State) (a : Nat) : Byte :=
  if a < 0x100 then (directoryBytes s).getD a 0
  else if a < 0x400 then 0
  else if a < 0x4C80 then Memory.read s.mem a
  else if a < 0x5000 then 0
  else if a < 0x6800 then
    recordByte 64 (fun i => linkBytes (s.counts.links.getD i 0) (s.linkRec i)) (a - 0x5000)
  else if a < 0x7200 then
    recordByte 16 (fun i => carrierBytes (s.counts.carriers.getD i 0) (slotOf s.ctl.table i)) (a - 0x6800)
  else if a < 0x7300 then
    recordByte 8 (fun i => reserveBytes (s.counts.reserve.getD i 0) s.ctl.reserve[i]?) (a - 0x7200)
  else if a < 0x7400 then 0
  else if a < 0x7800 then
    recordByte 32 (fun i => camBytes (s.counts.cameras.getD i 0) (camOf s i)) (a - 0x7400)
  else if a < 0x8000 then
    recordByte 32 (fun i => keyBytes (s.counts.keys.getD i 0) (s.router.keys.getD i none)) (a - 0x7800)
  else if a < 0x8800 then
    recordByte 64 (fun i => routeBytes (s.counts.routes.getD i 0) (DestRec.at s.router.dests i)) (a - 0x8000)
  else if a < 0x9000 then 0
  else if a < 0x9380 then
    recordByte 28 (fun d => (s.router.applied.getD d []).flatMap byte1) (a - 0x9000)
  else if a < 0xA000 then 0
  else if a < 0xA800 then recordByte 16 (fun p => entryBytes (s.jw.entries.getD p none)) (a - 0xA000)
  else if a < 0x20000 then Memory.read s.mem a
  else 0

/-- The register words (TABLE 12-2), by offset from 20000h; what lies above reads 0. -/
def registerRead (s : State) (offset : Nat) : Nat :=
  match offset with
  | 0x00 => s.disp.outcome.toNat + s.disp.free * 2 ^ 8
  | 0x04 => s.jw.notice.toNat
  | 0x08 => s.jw.enable.toNat
  | 0x0C => bit s.lockP.flag 0 + bit s.lockP.test 1
  | 0x10 => bit s.lockC.flag 0 + bit s.lockC.test 1
  | 0x14 => s.part.toNat * 2 ^ 8
  | 0x18 => identWord
  | _ => 0

end Sys2Proof.Machine
end

