-- ==== Sys2Proof/Machine/Records.lean ====
section
/-! DEFINITION. The end of every step: the arbiter takes what now waits for the unit link (R84), and each part-written record
that the step changed has had one odd interval of its change count, the directory one for each owner that wrote in it (R152).
The journal writer's steps, in which the walk may follow. -/

namespace Sys2Proof.Machine

/-- One odd interval: the count goes up by 1 before and by 1 after the change, and wraps. -/
def bump (wrap : Nat) (changed : Bool) (n : Nat) : Nat := if changed then (n + 2) % wrap else n

/-- The owners that write fields of the directory. -/
inductive DirWriter where
  | control
  | killControl
  | journal
  | controller
  | timebase
  | dispatcher
  | unitLink
  | adoption
  deriving DecidableEq, Repr

def dirWriters : List DirWriter :=
  [.control, .killControl, .journal, .controller, .timebase, .dispatcher, .unitLink, .adoption]

/-- Whether an owner writes its fields of the directory (TABLE 12-3) between two states. A write of the values that stood there
counts where a rule calls for the write itself: the timebase now at every frame boundary (R134), a status at every end of an
adoption (R158). Every other field is written when it changes (notes/assumptions/6). -/
def writesDirectory (a b : State) : DirWriter → Bool
  | .control => a.part ≠ b.part
  | .killControl => (a.kc.asserted, a.kc.cause, a.kc.filter.accepted) ≠ (b.kc.asserted, b.kc.cause, b.kc.filter.accepted)
  | .journal => (a.jw.head, pendingFlags a.jw) ≠ (b.jw.head, pendingFlags b.jw)
  | .controller => (a.ctl.carrierGen, a.ctl.ruleGen) ≠ (b.ctl.carrierGen, b.ctl.ruleGen)
  | .timebase =>
    (a.tb.frames, a.tb.sec, a.tb.frame, a.tb.rate, a.tb.locked) ≠ (b.tb.frames, b.tb.sec, b.tb.frame, b.tb.rate, b.tb.locked)
  | .dispatcher => a.disp.free ≠ b.disp.free
  | .unitLink => a.ul.sweepCount ≠ b.ul.sweepCount
  | .adoption =>
    (a.adopt.station.written, a.adopt.station.status, a.adopt.cue.written, a.adopt.cue.status)
      ≠ (b.adopt.station.written, b.adopt.station.status, b.adopt.cue.written, b.adopt.cue.status)

/-- The counts of n records, by whether record i differs. -/
def bumpAll (wrap n : Nat) (differs : Nat → Bool) (l : List Nat) : List Nat :=
  (List.range n).map fun i => bump wrap (differs i) (l.getD i 0)

/-- A route list record's count covers row d of the applied crosspoint image (R132). -/
def routeDiffers (a b : Router) (d : Nat) : Bool :=
  DestRec.at a.dests d ≠ DestRec.at b.dests d || a.applied.getD d [] ≠ b.applied.getD d []

/-- The part-written records (R171): the seven kinds that carry a change count, the directory by its writers. -/
inductive Rec where
  | directory (w : DirWriter)
  | link (i : Nat)
  | carrier (slot : Nat)
  | reserve (pos : Nat)
  | camera (c : Nat)
  | key (k : Nat)
  | route (d : Nat)
  deriving DecidableEq, Repr

/-- Whether a record differs between two states, and for the directory whether an owner wrote its part. -/
def recDiffers (a b : State) : Rec → Bool
  | .directory w => writesDirectory a b w
  | .link i => a.linkRec i ≠ b.linkRec i
  | .carrier i => slotOf a.ctl.table i ≠ slotOf b.ctl.table i
  | .reserve i => a.ctl.reserve[i]? ≠ b.ctl.reserve[i]?
  | .camera i => camOf a i ≠ camOf b i
  | .key i => a.router.keys.getD i none ≠ b.router.keys.getD i none
  | .route d => routeDiffers a.router b.router d

/-- The counts after a step that changed these records: one odd interval each, and of the directory's count one for each owner
that wrote in it, since their intervals never overlap. -/
def bumpCounts (changed : Rec → Bool) (c : Counts) : Counts :=
  { directory := dirWriters.foldl (fun n w => bump 65536 (changed (.directory w)) n) c.directory
    links := bumpAll 65536 Config.links (fun i => changed (.link i)) c.links
    carriers := bumpAll 65536 Config.slots (fun i => changed (.carrier i)) c.carriers
    reserve := bumpAll 256 Config.reservePlaces (fun i => changed (.reserve i)) c.reserve
    cameras := bumpAll 65536 Config.cameras (fun i => changed (.camera i)) c.cameras
    keys := bumpAll 65536 Config.keyRecords (fun i => changed (.key i)) c.keys
    routes := bumpAll 65536 Config.destinations (fun i => changed (.route i)) c.routes }

/-- The counts after a step from a to b that changed what differs between them. -/
def countChanges (a b : State) : Counts := bumpCounts (recDiffers a b) a.counts

/-- Whether a record changes on the way from a to b through some states: it may be again at the end what it was. -/
def changesOnPath : List State → State → State → Rec → Bool
  | [], a, b, r => recDiffers a b r
  | m :: ms, a, b, r => recDiffers a m r || changesOnPath ms m b r

/-- The end of a step that began in a. -/
def finish (a b : State) : State := { b with counts := countChanges a b }

/-- The end of a step that began in a and changed records on its way through `path`: one that a TAKE, a BELTPACK_KEY_REPORT, a
CUE_ADOPTION or a FAILOVER_TAKE_ANSWER changes and brings back counts as changed (R152). -/
def finishPath (path : List State) (a b : State) : State :=
  { b with counts := bumpCounts (changesOnPath path a b) a.counts }

def finishLinkPath (path : List State) (a b : State) : State := finishPath path a (arbitrate b)

/-- The end of a step after which requests may wait for the unit link. Those that one step places at an idle machine are taken
after it, the highest class first (DESIGN CHOICE, notes/assumptions/41: R84 lets either of two such requests be taken first). -/
def finishLink (a b : State) : State := finish a (arbitrate b)

/-! ### The journal writer's steps (R163 to R168): each entry of the walk has its own odd intervals -/

/-- At most n entries of the walk, each ended by itself, so that a flag set and cleared is counted twice. -/
def walkN : Nat → State → State
  | 0, s => s
  | n + 1, s => if s.jw.walking then walkN n (finish s (resyncStep s)) else s

/-- RESYNC_WALK: while the walk goes on, it writes as many entries as the free pace gives, and the rest comes later (R166,
notes/assumptions/29). -/
def walkOn (s : State) : State :=
  if s.jw.walking then
    let done := walkN (Config.walkPace s.jw.walkCount) s
    { done with jw.walkCount := s.jw.walkCount + 1 }
  else s

/-- JOURNAL_REPORT: the oldest report of the owner, then the walk while room remains. -/
def journalReportStep (o : Owner) (s : State) : State := walkOn (finish s (takeOldestReport o s))

/-- NOTICE_CLEAR: the read that a clearing of JOURNAL makes is itself the first of the walk, so one entry follows it at once. -/
def noticeClearStep (bits : Word) (s : State) : State :=
  let cleared := finish s (clearNotice bits s)
  if bits.setWidth 5 &&& nJournal = 0#5 then cleared else walkOn (walkN 1 cleared)

end Sys2Proof.Machine
end

