-- ==== Sys2Proof/Machine/Commands.lean ====
section
/-! DEFINITION. The meaning of each command: one definition per row of the table. A command makes its block's step and ends it
(Machine/Records.lean). Every command completes: the data book describes no event that stops the part, and a command whose
occasion is absent changes nothing (notes/assumptions/2). -/

namespace Sys2Proof.Machine

/-- POWER_ON_RESET (R161). -/
def execPowerOnReset (s : State) : Host.Outcome State Fault Refusal := .next (powerOnResetStep s)

/-- PART_RESET (R161). -/
def execPartReset (s : State) : Host.Outcome State Fault Refusal := .next (partResetStep s)

/-- RUN (R162). -/
def execRun (s : State) : Host.Outcome State Fault Refusal := .next (finishLink s (runStep s))

/-- POST (R153). -/
def execPost (number : Word) (s : State) : Host.Outcome State Fault Refusal := .next (finish s (postStep number s))

/-- NOTICE_CLEAR (R167). -/
def execNoticeClear (bits : Word) (s : State) : Host.Outcome State Fault Refusal :=
  .next (noticeClearStep bits s)

/-- NOTICE_ENABLE_WRITE (R167). -/
def execNoticeEnableWrite (bits : Word) (s : State) : Host.Outcome State Fault Refusal :=
  .next (finish s (noticeEnableWriteStep bits s))

/-- LOCK_SET (R157). -/
def execLockSet (port : LockPort) (s : State) : Host.Outcome State Fault Refusal :=
  .next (finish s (lockSetStep port s))

/-- LOCK_RELEASE (R157). -/
def execLockRelease (port : LockPort) (s : State) : Host.Outcome State Fault Refusal :=
  .next (finish s (lockReleaseStep port s))

/-- REGISTER_WRITE_DISCARDED (R151). -/
def execRegisterWriteDiscarded (wordIndex : Nat) (data : Word) (s : State) : Host.Outcome State Fault Refusal :=
  .next (finish s (registerWriteDiscardedStep wordIndex data s))

/-- HOST_MEMORY_WRITE (R151). -/
def execHostMemoryWrite (wordIndex : Nat) (data : Word) (enables : BitVec 4) (s : State) : Host.Outcome State Fault Refusal :=
  .next (finish s (hostMemoryWriteStep wordIndex data enables s))

/-- DISPATCH_CELL (R155). -/
def execDispatchCell (s : State) : Host.Outcome State Fault Refusal := .next (finish s (dispatchCellStep s))

/-- PLAN_PLACE_GRANT (R43). -/
def execPlanPlaceGrant (s : State) : Host.Outcome State Fault Refusal := .next (finish s (planPlaceGrantStep s))

/-- CLEAR_RESERVE_PLACE_GRANT (R156). -/
def execClearReservePlaceGrant (s : State) : Host.Outcome State Fault Refusal :=
  .next (finish s (clearReserveGrantStep s))

/-- ENABLE_LINK (R63). -/
def execEnableLink (s : State) : Host.Outcome State Fault Refusal := .next (finishLink s (enableLinkStep s))

/-- RETUNE_LINK (R69). -/
def execRetuneLink (s : State) : Host.Outcome State Fault Refusal := .next (finishLink s (retuneLinkStep s))

/-- PARK_LINK (R75). -/
def execParkLink (s : State) : Host.Outcome State Fault Refusal := .next (finishLink s (parkLinkStep s))

/-- PLAN_QUERY (R49). -/
def execPlanQuery (s : State) : Host.Outcome State Fault Refusal := .next (finish s (planQueryStep s))

/-- FILL_RESERVE (R50). -/
def execFillReserve (s : State) : Host.Outcome State Fault Refusal := .next (finish s (fillReserveStep s))

/-- AUDIT_PLAN (R53). -/
def execAuditPlan (s : State) : Host.Outcome State Fault Refusal := .next (finish s (auditPlanStep s))

/-- CLEAR_RESERVE (R37). -/
def execClearReserve (s : State) : Host.Outcome State Fault Refusal := .next (finish s (clearReserveStep s))

/-- SET_TALLY (R102). -/
def execSetTally (s : State) : Host.Outcome State Fault Refusal := .next (finishLink s (setTallyStep s))

/-- KEY (R119). -/
def execKey (s : State) : Host.Outcome State Fault Refusal := .next (finish s (keyStep s))

/-- CLEAR_KEYS (R121). -/
def execClearKeys (s : State) : Host.Outcome State Fault Refusal := .next (finish s (clearKeysStep s))

/-- APPLY (R142). -/
def execApply (s : State) : Host.Outcome State Fault Refusal := .next (finish s (applyStep s))

/-- SET_CLOCK (R137). -/
def execSetClock (s : State) : Host.Outcome State Fault Refusal := .next (finish s (setClockStep s))

/-- KILL (R144). -/
def execKill (s : State) : Host.Outcome State Fault Refusal := .next (finishLink s (killStep s))

/-- RELEASE_KILL (R144). -/
def execReleaseKill (s : State) : Host.Outcome State Fault Refusal := .next (finishLink s (releaseKillStep s))

/-- LINE_TEST (R97). -/
def execLineTest (s : State) : Host.Outcome State Fault Refusal := .next (finishLink s (lineTestStep s))

/-- INSERT (R27). -/
def execInsert (s : State) : Host.Outcome State Fault Refusal := .next (finish s (insertStep s))

/-- TAKE (R36). -/
def execTake (s : State) : Host.Outcome State Fault Refusal := .next (finishPath (takePath s) s (takeStep s))

/-- LEARN (R30). -/
def execLearn (s : State) : Host.Outcome State Fault Refusal := .next (finish s (learnStep s))

/-- UPDATE (R31). -/
def execUpdate (s : State) : Host.Outcome State Fault Refusal := .next (finish s (updateStep s))

/-- PURGE (R33). -/
def execPurge (s : State) : Host.Outcome State Fault Refusal := .next (finish s (purgeStep s))

/-- APPEND (R35). -/
def execAppend (s : State) : Host.Outcome State Fault Refusal := .next (finish s (appendStep s))

/-- ADOPT (R38). -/
def execAdopt (s : State) : Host.Outcome State Fault Refusal := .next (finish s (adoptStep s))

/-- MARK (R39). -/
def execMark (s : State) : Host.Outcome State Fault Refusal := .next (finish s (markStep s))

/-- PLAN_SERVICE_START (R44). -/
def execPlanServiceStart (s : State) : Host.Outcome State Fault Refusal := .next (finish s (planServiceStartStep s))

/-- PLANNING_ATTEMPT_END (R47). -/
def execPlanningAttemptEnd (s : State) : Host.Outcome State Fault Refusal :=
  .next (finish s (planningAttemptEndStep s))

/-- QUERY_SEARCH_END (R49). -/
def execQuerySearchEnd (s : State) : Host.Outcome State Fault Refusal := .next (finish s (querySearchEndStep s))

/-- FILL_SEARCH_END (R50). -/
def execFillSearchEnd (s : State) : Host.Outcome State Fault Refusal := .next (finish s (fillSearchEndStep s))

/-- AUDIT_MEASURING_END (R53). -/
def execAuditMeasuringEnd (s : State) : Host.Outcome State Fault Refusal := .next (finish s (auditMeasuringEndStep s))

/-- PLANNING_INSERT_ANSWER (R47). -/
def execPlanningInsertAnswer (s : State) : Host.Outcome State Fault Refusal :=
  .next (finish s (planningInsertAnswerStep s))

/-- APPEND_ANSWER (R51). -/
def execAppendAnswer (s : State) : Host.Outcome State Fault Refusal := .next (finish s (appendAnswerStep s))

/-- MARK_ANSWER (R54). -/
def execMarkAnswer (s : State) : Host.Outcome State Fault Refusal := .next (finish s (markAnswerStep s))

/-- CANCEL (R52). -/
def execCancel (s : State) : Host.Outcome State Fault Refusal := .next (finish s (cancelStep s))

/-- PLANNING_ANSWER (R64). -/
def execPlanningAnswer (s : State) : Host.Outcome State Fault Refusal := .next (finishLink s (planningAnswerStep s))

/-- INSERTION_ANSWER (R65). -/
def execInsertionAnswer (s : State) : Host.Outcome State Fault Refusal := .next (finishLink s (insertionAnswerStep s))

/-- FAILOVER_TAKE_ANSWER (R74). -/
def execFailoverTakeAnswer (s : State) : Host.Outcome State Fault Refusal :=
  .next (finishLinkPath (failoverTakePath s) s (failoverTakeAnswerStep s))

/-- LEARN_ANSWER (R76). -/
def execLearnAnswer (s : State) : Host.Outcome State Fault Refusal := .next (finishLink s (learnAnswerStep s))

/-- LIVE_UPDATE_ANSWER (R68). -/
def execLiveUpdateAnswer (s : State) : Host.Outcome State Fault Refusal :=
  .next (finishLink s (liveUpdateAnswerStep s))

/-- PURGE_ANSWER (R75). -/
def execPurgeAnswer (s : State) : Host.Outcome State Fault Refusal := .next (finishLink s (purgeAnswerStep s))

/-- TUNE_ACK (R66). -/
def execTuneAck (s : State) : Host.Outcome State Fault Refusal := .next (finishLink s (tuneAckStep s))

/-- TUNE_FAILED (R65). -/
def execTuneFailed (s : State) : Host.Outcome State Fault Refusal := .next (finishLink s (tuneFailedStep s))

/-- TUNE_WITHHELD (R72). -/
def execTuneWithheld (s : State) : Host.Outcome State Fault Refusal := .next (finishLink s (tuneWithheldStep s))

/-- UNMUTE_ACK (R68). -/
def execUnmuteAck (s : State) : Host.Outcome State Fault Refusal := .next (finishLink s (unmuteAckStep s))

/-- UNMUTE_FAILED (R68). -/
def execUnmuteFailed (s : State) : Host.Outcome State Fault Refusal := .next (finishLink s (unmuteFailedStep s))

/-- UNMUTE_WITHHELD (R68). -/
def execUnmuteWithheld (s : State) : Host.Outcome State Fault Refusal := .next (finishLink s (unmuteWithheldStep s))

/-- PARK_MUTE_OUTCOME (R75). -/
def execParkMuteOutcome (s : State) : Host.Outcome State Fault Refusal := .next (finishLink s (parkMuteOutcomeStep s))

/-- SETTLE_POLL_OUTCOME (R67). -/
def execSettlePollOutcome (s : State) : Host.Outcome State Fault Refusal :=
  .next (finishLink s (settlePollOutcomeStep s))

/-- SETTLE_POLL_TIMER_EXPIRY (R67). -/
def execSettlePollTimerExpiry (link : Nat) (s : State) : Host.Outcome State Fault Refusal :=
  .next (finishLink s (settlePollTimerExpiryStep link s))

/-- GUARD_EXPIRY (R66). -/
def execGuardExpiry (link : Nat) (s : State) : Host.Outcome State Fault Refusal :=
  .next (finishLink s (guardExpiryStep link s))

/-- SETTLE_LIMIT_EXPIRY (R67). -/
def execSettleLimitExpiry (link : Nat) (s : State) : Host.Outcome State Fault Refusal :=
  .next (finishLink s (settleLimitExpiryStep link s))

/-- HOLD_LIMIT_EXPIRY (R71). -/
def execHoldLimitExpiry (link : Nat) (s : State) : Host.Outcome State Fault Refusal :=
  .next (finishLink s (holdLimitExpiryStep link s))

/-- FAILOVER_DELAY_EXPIRY (R73). -/
def execFailoverDelayExpiry (link : Nat) (role : Role) (s : State) : Host.Outcome State Fault Refusal :=
  .next (finishLink s (failoverDelayExpiryStep link role s))

/-- FAILOVER_RETRY_EXPIRY (R74). -/
def execFailoverRetryExpiry (link : Nat) (s : State) : Host.Outcome State Fault Refusal :=
  .next (finishLink s (failoverRetryExpiryStep link s))

/-- TALLY_CHANGE_TO_SUPERVISOR (R71). -/
def execTallyChangeToSupervisor (s : State) : Host.Outcome State Fault Refusal :=
  .next (finishLink s (tallyChangeToSupervisorStep s))

/-- STATION_ADOPTION (R159). -/
def execStationAdoption (s : State) : Host.Outcome State Fault Refusal := .next (finish s (stationAdoptionStep s))

/-- STATION_DEFINITIONS_TAKEN (R77). -/
def execStationDefinitionsTaken (s : State) : Host.Outcome State Fault Refusal :=
  .next (finishLink s (stationDefinitionsTakenStep s))

/-- CUE_ADOPTION (R160). -/
def execCueAdoption (s : State) : Host.Outcome State Fault Refusal :=
  .next (finishLinkPath (cueAdoptionPath s) s (cueAdoptionStep s))

/-- TALLY_STATION_ADOPTION (R107). -/
def execTallyStationAdoption (s : State) : Host.Outcome State Fault Refusal :=
  .next (finishLink s (tallyStationAdoptionStep s))

/-- ROUTER_STATION_ADOPTION (R131). -/
def execRouterStationAdoption (s : State) : Host.Outcome State Fault Refusal :=
  .next (finish s (routerStationAdoptionStep s))

/-- LINK_STATE_TO_TALLY (R111). -/
def execLinkStateToTally (s : State) : Host.Outcome State Fault Refusal :=
  .next (finishLink s (linkStateToTallyStep s))

/-- LINK_STATE_TO_ROUTER (R124). -/
def execLinkStateToRouter (s : State) : Host.Outcome State Fault Refusal := .next (finish s (linkStateToRouterStep s))

/-- UNIT_FRAME_RECEIVED (R80). -/
def execUnitFrameReceived (bytes : List Byte) (s : State) : Host.Outcome State Fault Refusal :=
  .next (finishLink s (unitFrameReceivedStep bytes s))

/-- FRAME_TRANSMITTED (R81). -/
def execFrameTransmitted (s : State) : Host.Outcome State Fault Refusal :=
  .next (finishLink s (frameTransmittedStep s))

/-- REPLY_TIMEOUT (R81). -/
def execReplyTimeout (s : State) : Host.Outcome State Fault Refusal := .next (finishLink s (replyTimeoutStep s))

/-- SWEEP_SPACING_EXPIRY (R87). -/
def execSweepSpacingExpiry (s : State) : Host.Outcome State Fault Refusal :=
  .next (finishLink s (sweepSpacingExpiryStep s))

/-- REPORT_TO_LINK_SUPERVISOR (R91). -/
def execReportToLinkSupervisor (s : State) : Host.Outcome State Fault Refusal :=
  .next (finishLink s (reportToLinkSupervisorStep s))

/-- POLL_MISS (R89). -/
def execPollMiss (s : State) : Host.Outcome State Fault Refusal := .next (finishLink s (pollMissStep s))

/-- STALE_TIMER_EXPIRY (R90). -/
def execStaleTimerExpiry (link : Nat) (s : State) : Host.Outcome State Fault Refusal :=
  .next (finishLink s (staleTimerExpiryStep link s))

/-- UATN_ASSERTED (R96). -/
def execUatnAsserted (s : State) : Host.Outcome State Fault Refusal := .next (finishLink s (uatnAssertedStep s))

/-- UATN_DEASSERTED (R96). -/
def execUatnDeasserted (s : State) : Host.Outcome State Fault Refusal := .next (finishLink s (uatnDeassertedStep s))

/-- LOOP_OUTCOME (R97). -/
def execLoopOutcome (s : State) : Host.Outcome State Fault Refusal := .next (finishLink s (loopOutcomeStep s))

/-- KILL_INPUT_CHANGE (R143). -/
def execKillInputChange (active : Bool) (s : State) : Host.Outcome State Fault Refusal :=
  .next (finish s (killInputChangeStep active s))

/-- KILL_FILTER_RUN_COMPLETE (R143). -/
def execKillFilterRunComplete (s : State) : Host.Outcome State Fault Refusal :=
  .next (finishLink s (killFilterRunCompleteStep s))

/-- LINK_KILL_ASSERTION (R147). -/
def execLinkKillAssertion (s : State) : Host.Outcome State Fault Refusal :=
  .next (finishLink s (linkKillAssertionStep s))

/-- KILL_MUTE_LIST (R146). -/
def execKillMuteList (s : State) : Host.Outcome State Fault Refusal := .next (finishLink s (killMuteListStep s))

/-- KILL_MUTE_OUTCOME (R146). -/
def execKillMuteOutcome (s : State) : Host.Outcome State Fault Refusal := .next (finishLink s (killMuteOutcomeStep s))

/-- KILL_MUTE_RETRY_EXPIRY (R146). -/
def execKillMuteRetryExpiry (link : Nat) (s : State) : Host.Outcome State Fault Refusal :=
  .next (finishLink s (killMuteRetryExpiryStep link s))

/-- LINK_KILL_RELEASE (R149). -/
def execLinkKillRelease (s : State) : Host.Outcome State Fault Refusal := .next (finishLink s (linkKillReleaseStep s))

/-- TALLY_KILL_STATE (R112). -/
def execTallyKillState (s : State) : Host.Outcome State Fault Refusal := .next (finishLink s (tallyKillStateStep s))

/-- ROUTER_KILL_STATE (R124). -/
def execRouterKillState (s : State) : Host.Outcome State Fault Refusal := .next (finish s (routerKillStateStep s))

/-- CONTACT_INPUT_CHANGE (R100). -/
def execContactInputChange (input : Nat) (active : Bool) (s : State) : Host.Outcome State Fault Refusal :=
  .next (finish s (contactInputChangeStep input active s))

/-- CONTACT_FILTER_RUN_COMPLETE (R100). -/
def execContactFilterRunComplete (input : Nat) (s : State) : Host.Outcome State Fault Refusal :=
  .next (finishLink s (contactFilterRunCompleteStep input s))

/-- LAMP_APPLY (R106). -/
def execLampApply (s : State) : Host.Outcome State Fault Refusal := .next (finishLink s (lampApplyStep s))

/-- CALL_CHANGE (R108). -/
def execCallChange (s : State) : Host.Outcome State Fault Refusal := .next (finishLink s (callChangeStep s))

/-- CUE_OUTCOME (R109). -/
def execCueOutcome (s : State) : Host.Outcome State Fault Refusal := .next (finishLink s (cueOutcomeStep s))

/-- TALLY_ECHO_REPORT (R110). -/
def execTallyEchoReport (s : State) : Host.Outcome State Fault Refusal := .next (finishLink s (tallyEchoReportStep s))

/-- ROUTER_TALLY_COLOURS (R129). -/
def execRouterTallyColours (s : State) : Host.Outcome State Fault Refusal :=
  .next (finish s (routerTallyColoursStep s))

/-- BELTPACK_KEY_REPORT (R120). -/
def execBeltpackKeyReport (s : State) : Host.Outcome State Fault Refusal :=
  .next (finishPath (beltpackKeyPath s) s (beltpackKeyReportStep s))

/-- CROSSPOINT_APPLY (R128). -/
def execCrosspointApply (s : State) : Host.Outcome State Fault Refusal := .next (finish s (crosspointApplyStep s))

/-- CROSSPOINT_WORD_SENT (R128). -/
def execCrosspointWordSent (s : State) : Host.Outcome State Fault Refusal :=
  .next (finish s (crosspointWordSentStep s))

/-- FRAME_BOUNDARY (R134). -/
def execFrameBoundary (s : State) : Host.Outcome State Fault Refusal := .next (finish s (frameBoundaryStep s))

/-- FRAME_PULSE (R135). -/
def execFramePulse (s : State) : Host.Outcome State Fault Refusal := .next (finish s (framePulseStep s))

/-- TAKE_INPUT_CHANGE (R139). -/
def execTakeInputChange (active : Bool) (s : State) : Host.Outcome State Fault Refusal :=
  .next (finish s (takeInputChangeStep active s))

/-- TAKE_FILTER_RUN_COMPLETE (R139). -/
def execTakeFilterRunComplete (s : State) : Host.Outcome State Fault Refusal :=
  .next (finish s (takeFilterRunCompleteStep s))

/-- STAGED_CHANGE (R140). -/
def execStagedChange (s : State) : Host.Outcome State Fault Refusal := .next (finish s (stagedChangeStep s))

/-- APPLY_ANSWER (R141). -/
def execApplyAnswer (s : State) : Host.Outcome State Fault Refusal := .next (finish s (applyAnswerStep s))

/-- JOURNAL_REPORT (R163). -/
def execJournalReport (owner : Owner) (s : State) : Host.Outcome State Fault Refusal :=
  .next (journalReportStep owner s)

/-- JOURNAL_DELAY_EXPIRY (R168). -/
def execJournalDelayExpiry (s : State) : Host.Outcome State Fault Refusal :=
  .next (finish s (journalDelayExpiryStep s))

/-- UPDATE_ANSWER (R31). -/
def execUpdateAnswer (s : State) : Host.Outcome State Fault Refusal := .next (finishLink s (updateAnswerStep s))

/-! ### Time passing with no command waiting (R134, R138) -/

/-- A search or a measuring is in progress. -/
def searching (s : State) : Bool := s.eng.service.any fun v => !v.awaiting

/-- The plan engine's work in one tick; how much is a free value (notes/assumptions/5). -/
def engineTick (s : State) : State :=
  if searching s then
    let done := engineWork (Config.searchPace s.eng.paceCount) s
    { done with eng.paceCount := s.eng.paceCount + 1 }
  else s

/-- With no command waiting, one tick of the timebase passes while the part runs, and the journal writer's walk, if one is going
on, goes on. -/
def idleTick (s : State) : State := if s.running then walkOn (finish s (engineTick (tickTimebase s))) else s

end Sys2Proof.Machine
end

