-- ==== Sys2Proof/Machine/Dispatch.lean ====
section
/-! DEFINITION. The dispatch of a command to its meaning, one arm per constructor. -/

namespace Sys2Proof.Machine

def exec (i : Instr) (s : State) : Host.Outcome State Fault Refusal :=
  match i with
  | .powerOnReset => Sys2Proof.Machine.execPowerOnReset s
  | .partReset => Sys2Proof.Machine.execPartReset s
  | .run => Sys2Proof.Machine.execRun s
  | .post number => Sys2Proof.Machine.execPost number s
  | .noticeClear bits => Sys2Proof.Machine.execNoticeClear bits s
  | .noticeEnableWrite bits => Sys2Proof.Machine.execNoticeEnableWrite bits s
  | .lockSet port => Sys2Proof.Machine.execLockSet port s
  | .lockRelease port => Sys2Proof.Machine.execLockRelease port s
  | .registerWriteDiscarded wordIndex data => Sys2Proof.Machine.execRegisterWriteDiscarded wordIndex data s
  | .hostMemoryWrite wordIndex data enables => Sys2Proof.Machine.execHostMemoryWrite wordIndex data enables s
  | .dispatchCell => Sys2Proof.Machine.execDispatchCell s
  | .planPlaceGrant => Sys2Proof.Machine.execPlanPlaceGrant s
  | .clearReservePlaceGrant => Sys2Proof.Machine.execClearReservePlaceGrant s
  | .enableLink => Sys2Proof.Machine.execEnableLink s
  | .retuneLink => Sys2Proof.Machine.execRetuneLink s
  | .parkLink => Sys2Proof.Machine.execParkLink s
  | .planQuery => Sys2Proof.Machine.execPlanQuery s
  | .fillReserve => Sys2Proof.Machine.execFillReserve s
  | .auditPlan => Sys2Proof.Machine.execAuditPlan s
  | .clearReserve => Sys2Proof.Machine.execClearReserve s
  | .setTally => Sys2Proof.Machine.execSetTally s
  | .key => Sys2Proof.Machine.execKey s
  | .clearKeys => Sys2Proof.Machine.execClearKeys s
  | .apply => Sys2Proof.Machine.execApply s
  | .setClock => Sys2Proof.Machine.execSetClock s
  | .kill => Sys2Proof.Machine.execKill s
  | .releaseKill => Sys2Proof.Machine.execReleaseKill s
  | .lineTest => Sys2Proof.Machine.execLineTest s
  | .insert => Sys2Proof.Machine.execInsert s
  | .take => Sys2Proof.Machine.execTake s
  | .learn => Sys2Proof.Machine.execLearn s
  | .update => Sys2Proof.Machine.execUpdate s
  | .purge => Sys2Proof.Machine.execPurge s
  | .append => Sys2Proof.Machine.execAppend s
  | .adopt => Sys2Proof.Machine.execAdopt s
  | .mark => Sys2Proof.Machine.execMark s
  | .planServiceStart => Sys2Proof.Machine.execPlanServiceStart s
  | .planningAttemptEnd => Sys2Proof.Machine.execPlanningAttemptEnd s
  | .querySearchEnd => Sys2Proof.Machine.execQuerySearchEnd s
  | .fillSearchEnd => Sys2Proof.Machine.execFillSearchEnd s
  | .auditMeasuringEnd => Sys2Proof.Machine.execAuditMeasuringEnd s
  | .planningInsertAnswer => Sys2Proof.Machine.execPlanningInsertAnswer s
  | .appendAnswer => Sys2Proof.Machine.execAppendAnswer s
  | .markAnswer => Sys2Proof.Machine.execMarkAnswer s
  | .cancel => Sys2Proof.Machine.execCancel s
  | .planningAnswer => Sys2Proof.Machine.execPlanningAnswer s
  | .insertionAnswer => Sys2Proof.Machine.execInsertionAnswer s
  | .failoverTakeAnswer => Sys2Proof.Machine.execFailoverTakeAnswer s
  | .learnAnswer => Sys2Proof.Machine.execLearnAnswer s
  | .liveUpdateAnswer => Sys2Proof.Machine.execLiveUpdateAnswer s
  | .purgeAnswer => Sys2Proof.Machine.execPurgeAnswer s
  | .tuneAck => Sys2Proof.Machine.execTuneAck s
  | .tuneFailed => Sys2Proof.Machine.execTuneFailed s
  | .tuneWithheld => Sys2Proof.Machine.execTuneWithheld s
  | .unmuteAck => Sys2Proof.Machine.execUnmuteAck s
  | .unmuteFailed => Sys2Proof.Machine.execUnmuteFailed s
  | .unmuteWithheld => Sys2Proof.Machine.execUnmuteWithheld s
  | .parkMuteOutcome => Sys2Proof.Machine.execParkMuteOutcome s
  | .settlePollOutcome => Sys2Proof.Machine.execSettlePollOutcome s
  | .settlePollTimerExpiry link => Sys2Proof.Machine.execSettlePollTimerExpiry link s
  | .guardExpiry link => Sys2Proof.Machine.execGuardExpiry link s
  | .settleLimitExpiry link => Sys2Proof.Machine.execSettleLimitExpiry link s
  | .holdLimitExpiry link => Sys2Proof.Machine.execHoldLimitExpiry link s
  | .failoverDelayExpiry link role => Sys2Proof.Machine.execFailoverDelayExpiry link role s
  | .failoverRetryExpiry link => Sys2Proof.Machine.execFailoverRetryExpiry link s
  | .tallyChangeToSupervisor => Sys2Proof.Machine.execTallyChangeToSupervisor s
  | .stationAdoption => Sys2Proof.Machine.execStationAdoption s
  | .stationDefinitionsTaken => Sys2Proof.Machine.execStationDefinitionsTaken s
  | .cueAdoption => Sys2Proof.Machine.execCueAdoption s
  | .tallyStationAdoption => Sys2Proof.Machine.execTallyStationAdoption s
  | .routerStationAdoption => Sys2Proof.Machine.execRouterStationAdoption s
  | .linkStateToTally => Sys2Proof.Machine.execLinkStateToTally s
  | .linkStateToRouter => Sys2Proof.Machine.execLinkStateToRouter s
  | .unitFrameReceived bytes => Sys2Proof.Machine.execUnitFrameReceived bytes s
  | .frameTransmitted => Sys2Proof.Machine.execFrameTransmitted s
  | .replyTimeout => Sys2Proof.Machine.execReplyTimeout s
  | .sweepSpacingExpiry => Sys2Proof.Machine.execSweepSpacingExpiry s
  | .reportToLinkSupervisor => Sys2Proof.Machine.execReportToLinkSupervisor s
  | .pollMiss => Sys2Proof.Machine.execPollMiss s
  | .staleTimerExpiry link => Sys2Proof.Machine.execStaleTimerExpiry link s
  | .uatnAsserted => Sys2Proof.Machine.execUatnAsserted s
  | .uatnDeasserted => Sys2Proof.Machine.execUatnDeasserted s
  | .loopOutcome => Sys2Proof.Machine.execLoopOutcome s
  | .killInputChange active => Sys2Proof.Machine.execKillInputChange active s
  | .killFilterRunComplete => Sys2Proof.Machine.execKillFilterRunComplete s
  | .linkKillAssertion => Sys2Proof.Machine.execLinkKillAssertion s
  | .killMuteList => Sys2Proof.Machine.execKillMuteList s
  | .killMuteOutcome => Sys2Proof.Machine.execKillMuteOutcome s
  | .killMuteRetryExpiry link => Sys2Proof.Machine.execKillMuteRetryExpiry link s
  | .linkKillRelease => Sys2Proof.Machine.execLinkKillRelease s
  | .tallyKillState => Sys2Proof.Machine.execTallyKillState s
  | .routerKillState => Sys2Proof.Machine.execRouterKillState s
  | .contactInputChange input active => Sys2Proof.Machine.execContactInputChange input active s
  | .contactFilterRunComplete input => Sys2Proof.Machine.execContactFilterRunComplete input s
  | .lampApply => Sys2Proof.Machine.execLampApply s
  | .callChange => Sys2Proof.Machine.execCallChange s
  | .cueOutcome => Sys2Proof.Machine.execCueOutcome s
  | .tallyEchoReport => Sys2Proof.Machine.execTallyEchoReport s
  | .routerTallyColours => Sys2Proof.Machine.execRouterTallyColours s
  | .beltpackKeyReport => Sys2Proof.Machine.execBeltpackKeyReport s
  | .crosspointApply => Sys2Proof.Machine.execCrosspointApply s
  | .crosspointWordSent => Sys2Proof.Machine.execCrosspointWordSent s
  | .frameBoundary => Sys2Proof.Machine.execFrameBoundary s
  | .framePulse => Sys2Proof.Machine.execFramePulse s
  | .takeInputChange active => Sys2Proof.Machine.execTakeInputChange active s
  | .takeFilterRunComplete => Sys2Proof.Machine.execTakeFilterRunComplete s
  | .stagedChange => Sys2Proof.Machine.execStagedChange s
  | .applyAnswer => Sys2Proof.Machine.execApplyAnswer s
  | .journalReport owner => Sys2Proof.Machine.execJournalReport owner s
  | .journalDelayExpiry => Sys2Proof.Machine.execJournalDelayExpiry s
  | .updateAnswer => Sys2Proof.Machine.execUpdateAnswer s

end Sys2Proof.Machine
end

