-- ==== Sys2Proof/Machine/Step.lean ====
section
/-! DEFINITION. The step: the command at the front of the queue, or a tick of time. -/

namespace Sys2Proof.Machine

/-- Take the command at the front of the queue and run it with the queue's rest; on an empty queue time passes
(notes/assumptions/4). -/
def step (s : State) : Host.Outcome State Fault Refusal :=
  match s.pending with
  | c :: rest => exec c { s with pending := rest }
  | [] => .next (idleTick s)

/-- The command that a table word spells is put at the front of the queue; no word of this part's table spells one. -/
def State.withFetchWord (s : State) (nbits w : Nat) : State :=
  match decodeTableWord nbits w with
  | some c => { s with pending := c :: s.pending }
  | none => s

/-- The host writes a word to a register word, counted from 20000h: the command that it spells joins the queue (R151, R152). -/
def State.hostRegisterWrite (s : State) (wordIndex : Nat) (w : Word) : State :=
  { s with pending := s.pending ++ [decodeRegisterWrite wordIndex w] }

end Sys2Proof.Machine
end

