-- ==== Sys2Proof/Safety.lean ====
section
/-! DEFINITION. The laws of the device that its data book states of every moment, and the terms in which statements about
orders and frames are made. -/

namespace Sys2Proof.Machine

/-! ### Laws of the device -/

/-- R167: the notice line is asserted exactly when at least one notice bit is both set and enabled. -/
abbrev NoticeLaw (s : State) : Prop := s.jw.line = true ↔ s.jw.notice &&& s.jw.enable ≠ 0

/-- R164: the journal's unread count lies between 0 and 128; both counts are 16-bit counts (R163). -/
abbrev UnreadLaw (s : State) : Prop := s.jw.head < 65536 ∧ s.jw.taken < 65536 ∧ s.jw.unread ≤ 128

/-- R153: the intake queue holds at most 32 cell numbers, none twice; each is the number of a cell. -/
abbrev IntakeLaw (s : State) : Prop :=
  s.disp.intake.length ≤ 32 ∧ s.disp.intake.Nodup ∧ ∀ n ∈ s.disp.intake, n < 64

/-- R34: the reserve list holds at most 32 entries with distinct codes, none of them the code of a carrier-table entry. -/
abbrev ReserveLaw (s : State) : Prop :=
  s.ctl.reserve.length ≤ 32 ∧ (s.ctl.reserve.map (·.code)).Nodup ∧
    ∀ e ∈ s.ctl.reserve, ∀ c, some c ∈ s.ctl.table → c.code ≠ e.code

/-- R27: no link holds more than two entries for one role. -/
abbrev RoleLaw (s : State) : Prop := ∀ (link : Nat) (r : Role), roleEntries s.ctl.table link r ≤ 2

/-- R24: any two entries of one zone (a check considers its own zone alone, R10), neither marked CONFLICT, are spaced at least
their required spacing by the class table in force. -/
abbrev ConflictLaw (s : State) : Prop :=
  ∀ (i j : Nat) (e f : CarrierEntry), i ≠ j → slotOf s.ctl.table i = some e → slotOf s.ctl.table j = some f →
    e.zone = f.zone → e.conflict = false → f.conflict = false → 0 ≤ spacingTo s.ctl.rules e.code e.cls f.carrier

/-- R123: each destination has at most 4 SLOTTED routes, and a route is WAITING only while all 4 slots of its destination are
held by routes that precede it in the destination's order. -/
abbrev RouteLaw (s : State) : Prop :=
  ∀ d, d < 32 →
    let l := (DestRec.at s.router.dests d).routes
    l.countP (fun x => x.2 = .slotted) ≤ 4 ∧
      ∀ k, (k, RouteState.waiting) ∈ l →
        l.countP (fun x => x.2 = .slotted) = 4 ∧ ∃ y, s.router.keys.getD k none = some y ∧
          ∀ j, (j, RouteState.slotted) ∈ l → ∃ x, s.router.keys.getD j none = some x ∧ precedes (j, x) (k, y) = true

/-- R128: every code on the crosspoint port, waiting or being sent, lies in 0 to 185; so does every code of the two images, since
the port's codes are those of the staged one. -/
abbrev CodeLaw (s : State) : Prop :=
  (∀ w, w ∈ s.router.portQueue ∨ s.router.portSending = some w → w.code ≤ 185) ∧
    ∀ r, r ∈ s.router.staged ∨ r ∈ s.router.applied → ∀ c ∈ r, c ≤ 185

/-- R84: in RUNNING no request waits while the transaction machine is IDLE. -/
abbrev ArbiterLaw (s : State) : Prop := s.part = .running → s.ul.xact = none → nextRequest s.ul = none

/-- A waiting kill MUTE of a link. -/
def KillReq.muteOf (link : Nat) : KillReq → Bool
  | .silence => false
  | .mute l _ _ _ _ _ _ => l = link

/-- R85: at most one SILENCE and one MUTE of each link wait in the KILL class, a link's MUTE while its state is WAITING (R146), and
none while the kill state is CLEAR (R149). -/
abbrev KillClassLaw (s : State) : Prop :=
  s.ul.killQ.count .silence ≤ 1 ∧ (s.kc.asserted = false → s.ul.killQ = []) ∧
    ∀ l, l < s.kc.mutes.length → s.ul.killQ.countP (KillReq.muteOf l) ≤ 1 ∧
      (0 < s.ul.killQ.countP (KillReq.muteOf l) → (s.kc.mutes.getD l MuteRec.reset).state = .waiting)

/-- TABLE 1-5: the tables of the part have their number of records. -/
abbrev TableSizes (s : State) : Prop :=
  s.ctl.table.length = 160 ∧ s.sup.links.length = 96 ∧ s.tally.cams.length = 32 ∧ s.router.keys.length = 64 ∧
    s.jw.entries.length = 128 ∧ s.jw.cellPending.length = 64

/-- A TUNE or an UNMUTE of some link. -/
def UlReq.needsPermit : UlReq → Bool
  | .controlReq r => r.kind = .tune || r.kind = .unmute
  | _ => false

/-- The frame on the line, if any, that the tune permit governs. -/
def State.permitFrame (s : State) : Option Transaction :=
  s.ul.xact.filter fun x => x.sending && x.req.needsPermit

/-- Every pending flag of TABLE 11-2 that stands for a record is set (R164). -/
abbrev AllPending (s : State) : Prop :=
  s.jw.killPending = true ∧ s.jw.referencePending = true ∧ s.jw.tablePending = true ∧
    (∀ l ∈ s.sup.links, l.vis.pending = true) ∧ (∀ c ∈ s.tally.cams, c.pending = true) ∧
    (∀ d ∈ s.router.dests, d.pending = true) ∧ ∀ b ∈ s.jw.cellPending, b = true

/-! ### Order cells -/

/-- A cell shows this state byte, result code and subject (TABLE 12-4). -/
abbrev CellShows (m : List Host.Cell) (cell st code subject : Nat) : Prop :=
  byteAt m (cellBase cell) = st ∧ byteAt m (cellBase cell + 4) = code ∧ fieldAt m (cellBase cell + 6) 2 = subject

/-- Every byte of memory outside a cell reads as before. -/
abbrev OutsideCell (cell : Nat) (m m' : List Host.Cell) : Prop :=
  ∀ a, a < cellBase cell ∨ cellBase cell + 128 ≤ a → Memory.read m' a = Memory.read m a

/-- An order has completed between s and t: the header of its cell holds the state byte, the result code, the subject (0FFFFh
for none) and the completion timestamp, no byte outside the cell has changed, and the cell has left service (R154). -/
abbrev OrderEnds (tag : OrderTag) (st : Nat) (code : ResultCode) (subject : Nat) (s t : State) : Prop :=
  CellShows t.mem tag.cell st code.toNat subject ∧ fieldAt t.mem (cellBase tag.cell + 8) 4 = t.now.word % 2 ^ 32 ∧
    OutsideCell tag.cell s.mem t.mem ∧ t.disp.service = s.disp.service.filter (· ≠ tag.cell)

/-- An order has been taken and its work goes on: the state byte is WORKING, and every other byte of memory reads as before. -/
abbrev OrderWorks (tag : OrderTag) (s t : State) : Prop :=
  ∀ a, Memory.read t.mem a = if a = cellBase tag.cell then 3 else Memory.read s.mem a

/-- Between s and t only links have changed, and what a change of a link brings: LINK and HOLD_EXPIRED reports, the ALARM
notice, and the hand-overs to the tally unit and the router (R60). -/
abbrev OnlyLinks (s t : State) : Prop :=
  t = { s with
    sup := { s.sup with links := t.sup.links }
    jw := { s.jw with notice := t.jw.notice, line := t.jw.line }
    mail := { s.mail with
      reports := t.mail.reports, linkToTally := t.mail.linkToTally, linkToRouter := t.mail.linkToRouter } }

/-- The CARRIER reports of a slot's entry whose marks change in a step from those of `old` to those of `new`: CONFLICT, EXCLUDED and
IM_SUSPECT, one report for each that changes (R40). -/
def markReports (slot : Nat) (old new : CarrierEntry) (s : State) : List (Owner × JReport) :=
  let b := { old with conflict := new.conflict }
  let c := { b with excluded := new.excluded }
  let told (x y : CarrierEntry) : Owner × JReport := (.controller, carrierReport slot (some x) (some y) s)
  (if old.conflict = new.conflict then [] else [told old b]) ++ (if old.excluded = new.excluded then [] else [told b c])
    ++ if old.imSuspect = new.imSuspect then [] else [told c { c with imSuspect := new.imSuspect }]

/-- The LINK entries of one change of a link's record from `old` to `new`: the state with the hold, the flags and the failover block,
then OUTBOUND's health, then INBOUND's, each with the link health that results, one entry for each that changes (R60, R93; which of
them share an entry, and their order: notes/assumptions/20). -/
def linkEntries (i : Nat) (old new : LinkRec) (s : State) : List (Owner × JReport) :=
  let a : LinkRec := { new with outRec.health := old.outRec.health, inRec.health := old.inRec.health }
  let b : LinkRec := { new with inRec.health := old.inRec.health }
  let told (x y : LinkRec) : Owner × JReport :=
    (.supervisor, { kind := .link, stamp := s.now, subject := i, values := x.value + y.value * 2 ^ 24, dropped := false
                    clamped := false, flagOf := .linkRec i, notice := .none })
  (if old.value = a.value then [] else [told old a]) ++ (if a.value = b.value then [] else [told a b])
    ++ if b.value = new.value then [] else [told b new]

/-- The ROUTE entries of destination d between two states of the router (R132): its deleted routes, then those created or moved, in
the order of the list after the step (that order: notes/assumptions/34), then its heard state. -/
def routeEntries (a b : State) (d : Nat) : List (Owner × JReport) :=
  let old := DestRec.at a.router.dests d
  let new := DestRec.at b.router.dests d
  let entry (o n : Nat) : Owner × JReport :=
    (.router, { kind := .route, stamp := a.now, subject := d, values := o + n * 2 ^ 24, dropped := false, clamped := false
                flagOf := .dest d, notice := .none })
  ((old.routes.filter fun k => (new.stateOf k.1).isNone).map fun k =>
      entry (routeValue k.1 (some k.2)) (routeValue k.1 none)) ++
    ((new.routes.filter fun k => old.stateOf k.1 ≠ some k.2).map fun k =>
      entry (routeValue k.1 (old.stateOf k.1)) (routeValue k.1 (some k.2))) ++
    if old.heard = new.heard then [] else [entry (heardValue old.heard) (heardValue new.heard)]

/-- What a step of the router tells the other blocks between a and b: the ROUTE entries of every destination, ascending, and then the
reports `more` (R132); each changed call to the tally unit, in ascending link index (R125; that order: notes/assumptions/45); and a
changed staged image to the timebase (R127). -/
abbrev RouterTold (a b : State) (more : List (Owner × JReport)) : Prop :=
  b.mail.reports = a.mail.reports ++ ((List.range 32).flatMap (routeEntries a b) ++ more) ∧
    b.mail.callChanges = a.mail.callChanges ++
      ((List.range 96).filter fun l => a.router.calls.getD l false ≠ b.router.calls.getD l false).map (fun l =>
        (l, b.router.calls.getD l false)) ∧
    b.mail.stagedChanges = a.mail.stagedChanges ++ if b.router.staged = a.router.staged then [] else [.crosspoints]

/-- Every link but i is as before. -/
abbrev OtherLinks (i : Nat) (s t : State) : Prop := ∀ j, j ≠ i → t.link j = s.link j

/-- Byte `off` of a cell's results area. -/
abbrev resultByte (m : List Host.Cell) (cell off : Nat) : Nat := byteAt m (cellResults cell + off)

/-- What the host reads as an n-byte field at address a, the byte at the lowest address least significant (chapter 12). -/
def hostField (s : State) (a : Nat) : Nat → Nat
  | 0 => 0
  | n + 1 => (hostRead s a).toNat + 256 * hostField s (a + 1) n

/-! ### Adoptions -/

/-- An adoption of a group ends between a and b with this status: the group is IDLE and the pending flag clear; with that flag set
before, the next adoption begins with a copy of the group's region as it stands in m, or, while the group's lock flag is set, its
request is held (R157, R158). -/
abbrev AdoptionEnds (locked : Bool) (region : Nat → Bool) (m : List Host.Cell) (st : AdoptStatus) (a b : AdoptState) : Prop :=
  b.status = st ∧ b.written = a.written + 1 ∧ b.pending = false ∧
    (a.pending = false → b.stage = .idle ∧ b.held = a.held ∧ b.tables = []) ∧
    (a.pending = true → locked = true → b.stage = .idle ∧ b.held = true ∧ b.tables = []) ∧
    (a.pending = true → locked = false → b.stage = .begun ∧ b.held = false ∧ b.tables = copyRegion region m)

/-- The request of RUN for the adoption of a group, between a and b: in IDLE the adoption begins with a copy of the group's region as
it stands in m, or, while the group's lock flag is set, the request is held; in IN_PROGRESS it sets the pending flag (R157, R162). -/
abbrev AdoptionAtRun (locked : Bool) (region : Nat → Bool) (m : List Host.Cell) (a b : AdoptState) : Prop :=
  (a.stage = .idle → locked = true → b = { a with held := true }) ∧
    (a.stage = .idle → locked = false → b = { a with stage := .begun, held := false, tables := copyRegion region m }) ∧
    (a.stage ≠ .idle → b = { a with pending := true })

/-- A station adoption ends between s and t with this status: nothing of its copy is kept, and the adoption of RUN is followed by the
request for the cue adoption (R157, R158, R162). -/
abbrev StationAdoptionEnds (st : AdoptStatus) (s t : State) : Prop :=
  AdoptionEnds s.lockP.flag stationRegion t.mem st s.adopt.station t.adopt.station ∧
    t.adopt.copy = none ∧ t.adopt.barred = [] ∧ t.adopt.cueAfterStation = false ∧
    (s.adopt.cueAfterStation = true → AdoptionAtRun s.lockC.flag cueRegion t.mem s.adopt.cue t.adopt.cue) ∧
    (s.adopt.cueAfterStation = false → t.adopt.cue = s.adopt.cue)

end Sys2Proof.Machine
end

