-- ==== Sys2Proof/Certificates/Slice0/Obligations.lean ====
section
/-! DEFINITION. The statements for the provers. A step's end is written `finish s t` (the change counts of the records that
differ between s and t, R152) or `finishLink s t` (the arbiter first takes what waits for an idle unit link, R84): both ends have
statements of their own, ChangeCountsFollowRecords and ArbiterTakesHighestClass. -/

open Sys2Proof Sys2Proof.Machine

/-- The step takes the command at the front of the queue and runs it with the queue's rest; with no command waiting a part that
is not RUNNING stays as it is, and a RUNNING part counts one tick of its timebase (R134): below tick 255, with no
resynchronising walk going on, only the tick, elapsed time and the plan engine's own progress move (the queue, and the tick as
what an empty queue makes, are the model's choice: notes/assumptions/2 and 4). Every command completes in every state: none of
the 111 stops the part. -/
def Obligations.StepTakesFrontCommand : Prop :=
  (∀ (s : State) (c : Instr) (rest : List Instr), step { s with pending := c :: rest } = exec c { s with pending := rest }) ∧
  (∀ (c : Instr) (s : State), ∃ t, exec c s = .next t) ∧
  (∀ s : State, s.pending = [] → s.part ≠ .running → step s = .next s) ∧
  (∀ s : State, s.pending = [] → s.part = .running → s.tb.tick < 255 → s.jw.walking = false →
    ∃ t, step s = .next t ∧
      t = { s with
        tb := { s.tb with tick := s.tb.tick + 1, elapsed := s.tb.elapsed + 3000 / s.tb.rate }
        eng := { s.eng with service := t.eng.service, paceCount := t.eng.paceCount }
        counts := t.counts })

/-- The state after power-on reset meets every law of Safety.lean. -/
def Obligations.ResetMeetsLaws : Prop :=
  Memory.wf State.reset.mem ∧ NoticeLaw State.reset ∧ UnreadLaw State.reset ∧ IntakeLaw State.reset ∧
    ReserveLaw State.reset ∧ RoleLaw State.reset ∧ ConflictLaw State.reset ∧ RouteLaw State.reset ∧ CodeLaw State.reset ∧
    ArbiterLaw State.reset ∧ KillClassLaw State.reset ∧ TableSizes State.reset

/-- Every step keeps the canonical form of memory. -/
def Obligations.MemoryFormKept : Prop :=
  ∀ s t : State, Memory.wf s.mem → step s = .next t → Memory.wf t.mem

/-- Every step keeps the law of the notice line (R167), and the law of the journal's unread count (R164). -/
def Obligations.JournalLawsKept : Prop :=
  (∀ s t : State, NoticeLaw s → step s = .next t → NoticeLaw t) ∧
  (∀ s t : State, UnreadLaw s → step s = .next t → UnreadLaw t)

/-- Every step keeps the law of the intake queue (R153), and the number of records of each table (TABLE 1-5). -/
def Obligations.QueueAndTableSizesKept : Prop :=
  (∀ s t : State, IntakeLaw s → step s = .next t → IntakeLaw t) ∧
  (∀ s t : State, TableSizes s → step s = .next t → TableSizes t)

/-- Every step keeps the law of the reserve list (R34), the bound of two entries for one role of a link (R27), and the spacing of
the entries that CONFLICT does not mark (R24; that the law speaks of two entries of one zone is the model's reading, from
R10). -/
def Obligations.CarrierLawsKept : Prop :=
  (∀ s t : State, ReserveLaw s → step s = .next t → ReserveLaw t) ∧
  (∀ s t : State, RoleLaw s → step s = .next t → RoleLaw t) ∧
  (∀ s t : State, ConflictLaw s → step s = .next t → ConflictLaw t)

/-- Every step keeps the law of the routes: each destination has at most 4 SLOTTED routes, and a route is WAITING only while all 4
slots of its destination are held by routes that precede it in the destination's order (R123). Every step keeps the law of the
crosspoint port: every code on it lies in 0 to 185 (R128). -/
def Obligations.RouteLawKept : Prop :=
  (∀ s t : State, RouteLaw s → step s = .next t → RouteLaw t) ∧
  (∀ s t : State, CodeLaw s → step s = .next t → CodeLaw t)

/-- No step that leaves the kill state ASSERTED puts a TUNE or an UNMUTE frame on the line: one that is on the line after it
was on the line before it. And no step puts the TUNE frame of a RETUNE or FAILOVER sequence that does not keep its permit on the line
of a link whose camera shows programme after it, staged or applied (R72, R82; which requests are of such a sequence is said in
ArbiterTakesHighestClass). -/
def Obligations.NoPermitFrameBegunWhileKilled : Prop :=
  (∀ s t : State, ∀ x : Transaction, step s = .next t → t.kc.asserted = true → t.permitFrame = some x →
    s.permitFrame = some x) ∧
  (∀ s t : State, ∀ (x : Transaction) (r : ControlReq) (d : LinkDef) (c : Nat), step s = .next t → t.permitFrame = some x →
    x.req = .controlReq r → r.kind = .tune → r.forRetune = true → t.linkDef r.link = some d → d.camera = c + 1 →
    ((camOf t c).staged.programme = true ∨ (camOf t c).applied.programme = true) → s.permitFrame = some x)

/-- An ASSERTED kill stays ASSERTED, with its cause, under every command but RELEASE_KILL and the two resets (R144, R150). -/
def Obligations.KillEndsOnlyByReleaseOrReset : Prop :=
  ∀ (c : Instr) (s t : State), c ≠ .releaseKill → c ≠ .powerOnReset → c ≠ .partReset → s.kc.asserted = true →
    exec c s = .next t → t.kc.asserted = true ∧ t.kc.cause = s.kc.cause

/-- Under every command but the resets and the two that may run the resynchronising walk, the change count of a part-written
record goes up by 2 (one odd interval), wrapping, when the command changed the record, and stays when it did not; that of the
directory goes up by 2 for each owner that writes in it: one whose fields change, and, whatever they read before, the timebase at
every frame boundary and the adoption at every end of a group's adoption. A TAKE that gives spares back, a FAILOVER_TAKE_ANSWER, a
CUE_ADOPTION and a BELTPACK_KEY_REPORT can change a record and bring it back: it counts as changed when it differs in some state
on the way, before the spares go back, in ACTIVE, after each contact's run, after each edge. Under every command but the resets no
count changes its parity: between two commands a record is never in an odd interval (R152, R134, R158; that a record's changes within
one command share an interval, and that the other fields of the directory are written only when they change, are the model's choices:
notes/assumptions/6). -/
def Obligations.ChangeCountsFollowRecords : Prop :=
  (∀ (c : Instr) (s t : State), c ≠ .powerOnReset → c ≠ .partReset → (∀ o, c ≠ .journalReport o) → (∀ b, c ≠ .noticeClear b) →
    exec c s = .next t →
    let path : List State := match c with
      | .take => takePath s
      | .failoverTakeAnswer => failoverTakePath s
      | .cueAdoption => cueAdoptionPath s
      | .beltpackKeyReport => beltpackKeyPath s
      | _ => []
    let k := (dirWriters.filter fun w => ∃ x ∈ path ++ [t], writesDirectory s x w = true).length
    t.counts.directory = (if k = 0 then s.counts.directory else (s.counts.directory + 2 * k) % 65536) ∧
    (∀ i, i < 96 → t.counts.links.getD i 0 =
      if ∀ x ∈ path ++ [t], x.linkRec i = s.linkRec i then s.counts.links.getD i 0 else (s.counts.links.getD i 0 + 2) % 65536) ∧
    (∀ i, i < 160 → t.counts.carriers.getD i 0 =
      if ∀ x ∈ path ++ [t], slotOf x.ctl.table i = slotOf s.ctl.table i then s.counts.carriers.getD i 0
      else (s.counts.carriers.getD i 0 + 2) % 65536) ∧
    (∀ i, i < 32 → t.counts.reserve.getD i 0 =
      if ∀ x ∈ path ++ [t], x.ctl.reserve[i]? = s.ctl.reserve[i]? then s.counts.reserve.getD i 0
      else (s.counts.reserve.getD i 0 + 2) % 256) ∧
    (∀ i, i < 32 → t.counts.cameras.getD i 0 =
      if ∀ x ∈ path ++ [t], camOf x i = camOf s i then s.counts.cameras.getD i 0
      else (s.counts.cameras.getD i 0 + 2) % 65536) ∧
    (∀ i, i < 64 → t.counts.keys.getD i 0 =
      if ∀ x ∈ path ++ [t], x.router.keys.getD i none = s.router.keys.getD i none then s.counts.keys.getD i 0
      else (s.counts.keys.getD i 0 + 2) % 65536) ∧
    (∀ d, d < 32 → t.counts.routes.getD d 0 =
      if ∀ x ∈ path ++ [t], DestRec.at x.router.dests d = DestRec.at s.router.dests d ∧
        x.router.applied.getD d [] = s.router.applied.getD d []
      then s.counts.routes.getD d 0 else (s.counts.routes.getD d 0 + 2) % 65536)) ∧
  (∀ (c : Instr) (s t : State), c ≠ .powerOnReset → c ≠ .partReset → exec c s = .next t →
    let even (a b : Nat) : Prop := a % 2 = b % 2
    even t.counts.directory s.counts.directory ∧
    (∀ i, i < 96 → even (t.counts.links.getD i 0) (s.counts.links.getD i 0)) ∧
    (∀ i, i < 160 → even (t.counts.carriers.getD i 0) (s.counts.carriers.getD i 0)) ∧
    (∀ i, i < 32 → even (t.counts.reserve.getD i 0) (s.counts.reserve.getD i 0)) ∧
    (∀ i, i < 32 → even (t.counts.cameras.getD i 0) (s.counts.cameras.getD i 0)) ∧
    (∀ i, i < 64 → even (t.counts.keys.getD i 0) (s.counts.keys.getD i 0)) ∧
    (∀ i, i < 32 → even (t.counts.routes.getD i 0) (s.counts.routes.getD i 0))) ∧
  (∀ a b : State,
    let shown (s : State) := (s.tb.sec, s.tb.frame, s.tb.rate, s.tb.locked)
    let status (s : State) := (s.adopt.station.status, s.adopt.cue.status)
    (writesDirectory a b .control = true ↔ a.part ≠ b.part) ∧
    (writesDirectory a b .killControl = true ↔
      (a.kc.asserted, a.kc.cause, a.kc.filter.accepted) ≠ (b.kc.asserted, b.kc.cause, b.kc.filter.accepted)) ∧
    (writesDirectory a b .journal = true ↔ (a.jw.head, pendingFlags a.jw) ≠ (b.jw.head, pendingFlags b.jw)) ∧
    (writesDirectory a b .controller = true ↔ (a.ctl.carrierGen, a.ctl.ruleGen) ≠ (b.ctl.carrierGen, b.ctl.ruleGen)) ∧
    (writesDirectory a b .dispatcher = true ↔ a.disp.free ≠ b.disp.free) ∧
    (writesDirectory a b .unitLink = true ↔ a.ul.sweepCount ≠ b.ul.sweepCount) ∧
    (shown a ≠ shown b → writesDirectory a b .timebase = true) ∧ (status a ≠ status b → writesDirectory a b .adoption = true)) ∧
  (∀ (c : Instr) (s t : State), c ≠ .powerOnReset → c ≠ .partReset → exec c s = .next t →
    let boundary : Prop := (c = .frameBoundary ∧ s.part = .running) ∨ (c = .framePulse ∧ s.part = .running ∧ 192 ≤ s.tb.tick)
    let ends : Prop :=
      (c = .stationAdoption ∧ s.adopt.station.stage = .begun ∧
        (stationFailure s.adopt.station.tables s.sup.defs (s.sup.links.map fun l => l.vis.state)).isSome = true) ∨
      (c = .stationDefinitionsTaken ∧ s.adopt.station.stage = .answered ∧ s.adopt.copy.isSome = true) ∨
      (c = .cueAdoption ∧ s.adopt.cue.stage = .begun)
    (writesDirectory s t .timebase = true ↔ boundary) ∧ (writesDirectory s t .adoption = true ↔ ends))

/-- HOST_MEMORY_WRITE: the selected bytes that the host may write take the word's bytes, every other byte reads as before, and
nothing else of the part changes but change counts; so every byte of a part-written region or a gap, and every register word,
reads as before. REGISTER_WRITE_DISCARDED: every byte and every register word reads as before (R151, R152; which bytes the host
may write is TABLE 10-1 as notes/assumptions/14 reads it). What the host reads: each register word (TABLE 12-2, and 0 above it); each
field of the directory (TABLE 12-3), of the link state records (TABLE 12-8), of the carrier, reserve, camera tally, key and route list
records (TABLE 12-9), of the applied crosspoint image and of the journal entries (R175), as R170 encodes it; the host's own bytes as
written, and 0 where no region is. That the fields of an unused reserve position read 0 is the model's choice (notes/assumptions/55), and
the revision in IDENT is free (33). -/
def Obligations.HostWritesReachTheirBytes : Prop :=
  (∀ (s : State) (w : Nat) (data : Word) (en : BitVec 4), Memory.wf s.mem →
    ∃ t, exec (.hostMemoryWrite w data en) s = .next t ∧
      t = { s with mem := t.mem, counts := t.counts } ∧
      (∀ a, Memory.read t.mem a =
        if a / 4 = w ∧ en.getLsbD (a % 4) = true ∧ hostWritable a = true then data.extractLsb' (8 * (a % 4)) 8
        else Memory.read s.mem a) ∧
      (∀ a, hostWritable a = false → hostRead t a = hostRead s a) ∧ ∀ o, registerRead t o = registerRead s o) ∧
  (∀ (s : State) (w : Nat) (data : Word),
    ∃ t, exec (.registerWriteDiscarded w data) s = .next t ∧ t = { s with counts := t.counts } ∧
      (∀ a, hostRead t a = hostRead s a) ∧ ∀ o, registerRead t o = registerRead s o) ∧
  (∀ s : State,
    let on (b : Bool) (n : Nat) : Nat := if b then n else 0
    let outcomes := [PostOutcome.none, .taken, .outOfRange, .queueFull, .duplicate, .notRunning]
    let parts := [PartState.initializing, .halted, .running]
    let f := hostField s
    let status (b : Nat) (x : AdoptStatus) : Prop :=
      f b 1 = [AdoptResult.none, .accepted, .rejected].idxOf x.result ∧
      f (b + 1) 1 = [Reason.none, .badDefinition, .badClass, .badWindow, .badStep, .duplicateUnit, .duplicateCamera, .linkInUse,
        .badReference].idxOf x.reason ∧
      f (b + 2) 2 = x.subject.getD 0xFFFF % 65536 ∧ f (b + 4) 2 = x.gen % 65536
    registerRead s 0x00 = outcomes.idxOf s.disp.outcome + (32 - s.disp.intake.length) * 256 ∧
    registerRead s 0x04 = s.jw.notice.toNat ∧ registerRead s 0x08 = s.jw.enable.toNat ∧
    registerRead s 0x0C = on s.lockP.flag 1 + on s.lockP.test 2 ∧ registerRead s 0x10 = on s.lockC.flag 1 + on s.lockC.test 2 ∧
    registerRead s 0x14 = parts.idxOf s.part * 256 ∧ registerRead s 0x18 % 65536 = 0x0960 ∧
    registerRead s 0x18 / 65536 = Config.revision.toNat ∧ (∀ o, 0x18 < o → registerRead s o = 0) ∧
    f 0x00 2 = 0x0960 ∧ f 0x02 1 = Config.revision.toNat ∧ f 0x03 1 = 0 ∧ f 0x04 2 = s.counts.directory % 65536 ∧ f 0x06 1 = parts.idxOf s.part ∧ f 0x07 1 = on s.kc.asserted 1 ∧
    f 0x08 2 = s.jw.head % 65536 ∧ (∀ a, a = 0x0A ∨ a = 0x0B → hostRead s a = Memory.read s.mem a) ∧
    f 0x0C 2 = s.ctl.carrierGen % 65536 ∧ f 0x0E 2 = s.ctl.ruleGen % 65536 ∧
    f 0x10 4 = (s.tb.frame * 2 ^ 8 + s.tb.sec * 2 ^ 14) % 2 ^ 32 ∧ f 0x14 1 = s.tb.rate % 256 ∧ f 0x15 1 = on s.tb.locked 1 ∧
    f 0x16 1 = (32 - s.disp.intake.length) ∧
    f 0x17 1 = on s.jw.killPending 1 + on s.jw.referencePending 2 + on s.jw.tablePending 4 ∧
    f 0x18 4 = s.ul.sweepCount % 2 ^ 32 ∧ f 0x1C 1 = [KillCause.none, .line, .order].idxOf s.kc.cause ∧
    f 0x1D 1 = on s.kc.filter.accepted 1 ∧ status 0x20 s.adopt.station.status ∧ status 0x28 s.adopt.cue.status ∧
    (∀ a, (0x400 ≤ a ∧ a < 0x4C80) ∨ (0xA800 ≤ a ∧ a < 0x20000) → hostRead s a = Memory.read s.mem a) ∧
    (∀ a, (0x100 ≤ a ∧ a < 0x400) ∨ (0x4C80 ≤ a ∧ a < 0x5000) ∨ 0x20000 ≤ a → hostRead s a = 0)) ∧
  (∀ (s : State) (i : Nat), i < 96 →
    let l := s.linkRec i
    let f (off n : Nat) : Nat := hostField s (0x5000 + 64 * i + off) n
    let on (b : Bool) (n : Nat) : Nat := if b then n else 0
    let health (h : Option Health) : Nat := h.elim 7 [Health.good, .degraded, .stale, .lost].idxOf
    let code (c : Option Nat) : Nat := c.getD 0xFFFFFFFF % 2 ^ 32
    let stamp (t : Option Timestamp) : Nat := (t.elim 0xFFFFFFFF fun x => x.tick + x.frame * 2 ^ 8 + x.sec * 2 ^ 14) % 2 ^ 32
    f 0x00 2 = s.counts.links.getD i 0 % 65536 ∧
    f 0x02 1 = [LinkState.vacant, .parked, .learning, .planning, .tuning, .active, .holding, .retuning, .killed,
      .faulted].idxOf l.state ∧
    f 0x03 1 = health l.health ∧ f 0x04 1 = health l.outRec.health ∧ f 0x05 1 = health l.inRec.health ∧
    f 0x06 1 = [SeqKind.noSequence, .enable, .retune, .failover, .restore].idxOf l.seqKind ∧
    f 0x07 1 = [Phase.noPhase, .inserting, .tuneSent, .guarding, .settling, .unmuting].idxOf l.phase ∧
    f 0x08 1 = on l.seqOut 1 + on l.seqIn 2 ∧ f 0x09 1 = l.repeats % 256 ∧ f 0x0A 1 = l.orderCell.getD 0xFF % 256 ∧
    f 0x0B 1 = on l.untracked 1 + on l.unsilenceable 2 + on l.retuneNeeded 4 + on l.pending 128 ∧
    f 0x0C 1 = [none, some HoldReason.order, some .failover].idxOf l.hold ∧
    f 0x0D 1 = [FailoverBlock.clear, .noReserve, .tableFull, .timeout].idxOf l.block ∧ f 0x0E 1 = l.learning % 256 ∧
    f 0x0F 1 = l.misses % 256 ∧ f 0x10 4 = stamp l.holdStart ∧ f 0x14 4 = stamp l.lastVisit ∧
    f 0x18 4 = code l.outRec.present ∧ f 0x1C 4 = code l.outRec.fresh ∧ f 0x20 4 = code l.inRec.present ∧
    f 0x24 4 = code l.inRec.fresh ∧ f 0x28 4 = stamp l.outRec.degradedSince ∧ f 0x2C 4 = stamp l.inRec.degradedSince ∧
    f 0x30 1 = l.outRec.badRun % 256 ∧ f 0x31 1 = l.outRec.goodRun % 256 ∧ f 0x32 1 = l.inRec.badRun % 256 ∧
    f 0x33 1 = l.inRec.goodRun % 256) ∧
  (∀ (s : State) (i : Nat), i < 160 →
    let f (off n : Nat) : Nat := hostField s (0x6800 + 16 * i + off) n
    let on (b : Bool) (n : Nat) : Nat := if b then n else 0
    f 0 2 = s.counts.carriers.getD i 0 % 65536 ∧ (slotOf s.ctl.table i = none → f 2 1 = 0) ∧
    ∀ e, slotOf s.ctl.table i = some e →
      f 2 1 = [CarrierState.reserved, .live, .learned, .silent].idxOf e.state + 1 ∧
      f 3 1 = on e.conflict 1 + on e.excluded 2 + on e.imSuspect 4 ∧ f 4 1 = e.link % 256 ∧
      f 5 1 = [Role.outbound, .inbound].idxOf e.role ∧ f 6 1 = e.cls % 256 ∧ f 7 1 = e.zone % 256 ∧ f 8 4 = e.code % 2 ^ 32 ∧
      f 0x0C 4 = (e.since.tick + e.since.frame * 2 ^ 8 + e.since.sec * 2 ^ 14) % 2 ^ 32) ∧
  (∀ (s : State) (i : Nat), i < 32 →
    let f (off n : Nat) : Nat := hostField s (0x7200 + 8 * i + off) n
    let count := s.counts.reserve.getD i 0 * 2 ^ 24
    (s.ctl.reserve[i]? = none → f 0 4 = count % 2 ^ 32 ∧ f 4 4 = 0) ∧
    ∀ e, s.ctl.reserve[i]? = some e →
      f 0 4 = (e.code + e.cls * 2 ^ 17 + e.zone * 2 ^ 20 + 2 ^ 22 + count) % 2 ^ 32 ∧
      f 4 4 = (e.fill.tick + e.fill.frame * 2 ^ 8 + e.fill.sec * 2 ^ 14) % 2 ^ 32) ∧
  (∀ (s : State) (c : Nat), c < 32 →
    let x := camOf s c
    let f (off n : Nat) : Nat := hostField s (0x7400 + 32 * c + off) n
    let on (b : Bool) (n : Nat) : Nat := if b then n else 0
    let colours (k : Colours) : Nat := on k.programme 1 + on k.preview 2 + on k.iso 4
    let lamp := [Lamp.off, .red, .green, .yellow].idxOf
    f 0 2 = s.counts.cameras.getD c 0 % 65536 ∧ f 2 1 = colours x.staged ∧ f 3 1 = colours x.applied ∧
    f 4 1 = lamp x.stagedLamp ∧ f 5 1 = lamp x.appliedLamp ∧ f 6 1 = x.link.getD 0xFF % 256 ∧
    f 7 1 = [Delivery.noLink, .sent, .confirmed, .unconfirmed, .suspended].idxOf x.delivery ∧
    f 8 1 = on x.call 1 + on x.cueOut 2 + on x.pending 4 ∧ f 9 1 = x.reports % 256 ∧
    f 0x0C 4 = (x.edge.elim 0xFFFFFFFF fun t => t.tick + t.frame * 2 ^ 8 + t.sec * 2 ^ 14) % 2 ^ 32) ∧
  (∀ (s : State) (k : Nat), k < 64 →
    let f (off n : Nat) : Nat := hostField s (0x7800 + 32 * k + off) n
    let on (b : Bool) (n : Nat) : Nat := if b then n else 0
    f 0 2 = s.counts.keys.getD k 0 % 65536 ∧ (s.router.keys.getD k none = none → f 7 1 = 0) ∧
    ∀ x, s.router.keys.getD k none = some x →
      f 2 1 = x.source % 256 ∧ f 3 1 = x.dest % 256 ∧ f 4 1 = x.priority % 256 ∧ f 5 1 = on x.latch 1 ∧
      f 6 1 = on x.byBeltpack 1 ∧ f 7 1 = 1 ∧ (f 8 2 : Int) = x.level % 65536 ∧
      f 0x0C 4 = (x.keyed.tick + x.keyed.frame * 2 ^ 8 + x.keyed.sec * 2 ^ 14) % 2 ^ 32) ∧
  (∀ (s : State) (d : Nat), d < 32 →
    let x := DestRec.at s.router.dests d
    let f (off n : Nat) : Nat := hostField s (0x8000 + 64 * d + off) n
    let on (b : Bool) (n : Nat) : Nat := if b then n else 0
    let list := x.routes.filter fun k => k.2 = .slotted || k.2 = .waiting
    let held (r : RouteState) : Nat := (x.routes.filter fun k => k.2 = r).length
    f 0 2 = s.counts.routes.getD d 0 % 65536 ∧ f 2 1 = [DestKind.unused, .iem, .beltpack, .camera, .wired].idxOf x.kind ∧
    f 3 1 = x.link.getD 0xFF % 256 ∧ f 4 1 = on x.heard 1 ∧ f 5 1 = list.length % 256 ∧ f 6 1 = held .slotted % 256 ∧
    f 7 1 = on x.pending 128 ∧ f 8 1 = held .merged % 256 ∧ f 9 1 = held .excludedSelf % 256 ∧
    (∀ (n : Nat) (k : Nat × RouteState), n < 24 → list[n]? = some k → f (0x0A + n) 1 = k.1 % 256) ∧
    ∀ n, n < 28 → hostField s (0x9000 + 28 * d + n) 1 = (s.router.applied.getD d []).getD n 0 % 256) ∧
  (∀ (s : State) (p : Nat) (e : JEntry), p < 128 → s.jw.entries.getD p none = some e →
    let f (off n : Nat) : Nat := hostField s (0xA000 + 16 * p + off) n
    let on (b : Bool) (n : Nat) : Nat := if b then n else 0
    f 0 4 = (e.stamp.tick + e.stamp.frame * 2 ^ 8 + e.stamp.sec * 2 ^ 14) % 2 ^ 32 ∧ f 4 2 = e.sequence % 65536 ∧
    f 6 1 = [JKind.link, .carrier, .tally, .route, .order, .timebase, .kill, .table, .holdExpired].idxOf e.kind + 1
      + on e.resync 16 + on e.dropped 32 + on e.clamped 64 ∧
    f 7 3 = e.subject % 2 ^ 24 ∧ f 0x0A 3 = e.values % 2 ^ 24 ∧ f 0x0D 3 = e.values / 2 ^ 24 % 2 ^ 24)

/-- POST: the first test that applies gives the outcome: a part that is not RUNNING, a number above 63, a cell in the intake queue,
in the plan queue or in service, and 32 cells in the queue (that DUPLICATE looks at a cell standing by or in planning
service as well is the model's choice: notes/assumptions/17, and 15 for what such a cell is); a refused write leaves the intake queue unchanged, and a taken one puts the cell at its tail (R153). LOCK_SET copies the
flag into the test bit and sets the flag; LOCK_RELEASE clears the flag, and its request is discarded when the part is not RUNNING,
begins an adoption in IDLE with the group's regions copied as they stand, and otherwise sets the pending flag (R157). A word that the
host writes to one of the seven registers, or above them, joins the queue as the command it spells: at a lock port its lowest bit
decides and the others are ignored; at CONTROL RESET is a part reset, whatever the RUN bit, and RUN alone the start (R151, R157, R161,
TABLE 12-2; that a word of neither bit is discarded is the model's reading: notes/assumptions/13). -/
def Obligations.HostPortWrites : Prop :=
  (∀ (s : State) (w : Word),
    let n := w.toNat
    let inUse : Prop := n ∈ s.disp.intake ∨ n ∈ s.disp.service ∨ (∃ r ∈ s.eng.queue, r.cell = some n) ∨
      (∃ r ∈ s.eng.standby, r.cell = n) ∨ ∃ v, s.eng.service = some v ∧ v.req.cell = some n
    let answered (o : PostOutcome) : Prop := exec (.post w) s = .next (finish s { s with disp.outcome := o })
    (s.part ≠ .running → answered .notRunning) ∧
    (s.part = .running → 63 < n → answered .outOfRange) ∧
    (s.part = .running → n ≤ 63 → inUse → answered .duplicate) ∧
    (s.part = .running → n ≤ 63 → ¬inUse → 32 ≤ s.disp.intake.length → answered .queueFull) ∧
    (s.part = .running → n ≤ 63 → ¬inUse → s.disp.intake.length < 32 → exec (.post w) s = .next (finish s
      { s with disp.outcome := .taken, disp.intake := s.disp.intake ++ [n] }))) ∧
  (∀ s : State,
    exec (.lockSet .stationPort) s = .next (finish s { s with lockP := { flag := true, test := s.lockP.flag } }) ∧
    exec (.lockSet .cuePort) s = .next (finish s { s with lockC := { flag := true, test := s.lockC.flag } })) ∧
  (∀ s : State, s.part ≠ .running →
    exec (.lockRelease .stationPort) s = .next (finish s { s with lockP.flag := false }) ∧
    exec (.lockRelease .cuePort) s = .next (finish s { s with lockC.flag := false })) ∧
  (∀ s : State, s.part = .running →
    let begun (m : List Host.Cell) (a : AdoptState) : AdoptState :=
      if a.stage = .idle then { a with stage := .begun, held := false, tables := m } else { a with pending := true }
    exec (.lockRelease .stationPort) s = .next (finish s
      { s with lockP.flag := false, adopt.station := begun (copyRegion stationRegion s.mem) s.adopt.station }) ∧
    exec (.lockRelease .cuePort) s = .next (finish s
      { s with lockC.flag := false, adopt.cue := begun (copyRegion cueRegion s.mem) s.adopt.cue })) ∧
  (∀ (s : State) (w : Word),
    let spells (k : Nat) (c : Instr) : Prop := s.hostRegisterWrite k w = { s with pending := s.pending ++ [c] } ∧
      (s.pending = [] → step (s.hostRegisterWrite k w) = exec c s)
    spells 0 (.post w) ∧ spells 1 (.noticeClear w) ∧ spells 2 (.noticeEnableWrite w) ∧
    (w.getLsbD 0 = true → spells 3 (.lockSet .stationPort) ∧ spells 4 (.lockSet .cuePort)) ∧
    (w.getLsbD 0 = false → spells 3 (.lockRelease .stationPort) ∧ spells 4 (.lockRelease .cuePort)) ∧
    (w.getLsbD 1 = true → spells 5 .partReset) ∧
    (w.getLsbD 1 = false → w.getLsbD 0 = true → spells 5 .run) ∧
    (w.getLsbD 1 = false → w.getLsbD 0 = false → spells 5 (.registerWriteDiscarded 5 w)) ∧
    ∀ k, 6 ≤ k → spells k (.registerWriteDiscarded k w)) ∧
  (∀ (m : List Host.Cell) (a : Nat),
    Memory.read (copyRegion stationRegion m) a = (if 0x2400 ≤ a ∧ a < 0x4000 then Memory.read m a else 0) ∧
    Memory.read (copyRegion cueRegion m) a = (if 0x4000 ≤ a ∧ a < 0x4C80 then Memory.read m a else 0))

/-- NOTICE_CLEAR of bits other than JOURNAL and NOTICE_ENABLE_WRITE: bits written 1 are cleared, the others stay, the enables
take the word's bits, and the line is driven in the same step. NOTICE_CLEAR of the JOURNAL bit with no record pending and a word
not more than 128 behind the head: the writer's taken count takes the host's word too, and JOURNAL stands set exactly when the
unread count is still T or more; the same with a record pending, whose walk then goes on with room and ends with none. With a word more than 128 behind, or ahead of the head: the taken count becomes the head count, every
pending flag that stands for a record is set, the bits written 1 are cleared, and the walk begins (R164, R167, R168; that a 1 written to a JOURNAL bit already clear counts as clearing it is the
model's choice: notes/assumptions/29). -/
def Obligations.NoticeRegisterWrites : Prop :=
  (∀ (s : State) (b : Word), b.getLsbD 1 = false → exec (.noticeClear b) s = .next (finish s
    { s with
      jw.notice := s.jw.notice &&& ~~~(b.setWidth 5)
      jw.line := decide ((s.jw.notice &&& ~~~(b.setWidth 5)) &&& s.jw.enable ≠ 0) })) ∧
  (∀ (s : State) (b : Word), exec (.noticeEnableWrite b) s = .next (finish s
    { s with jw.enable := b.setWidth 5, jw.line := decide (s.jw.notice &&& b.setWidth 5 ≠ 0) })) ∧
  (∀ (s : State) (b : Word), b.getLsbD 1 = true → firstPending s = none →
    (s.jw.head + 65536 - takenWord s) % 65536 ≤ 128 →
    ∃ t, exec (.noticeClear b) s = .next t ∧ t = { s with jw := t.jw, counts := t.counts } ∧
      t.jw.taken = takenWord s ∧ t.jw.head = s.jw.head ∧ t.jw.entries = s.jw.entries ∧
      t.jw.enable = s.jw.enable ∧ t.jw.walking = false ∧
      (t.jw.notice.getLsbD 1 = true ↔ s.jw.threshold ≤ (s.jw.head + 65536 - takenWord s) % 65536) ∧
      t.jw.delayCount = (if s.jw.threshold ≤ (s.jw.head + 65536 - takenWord s) % 65536 then none else s.jw.delayCount) ∧
      (∀ k, k ≠ 1 → t.jw.notice.getLsbD k = (s.jw.notice.getLsbD k && !(b.getLsbD k))) ∧
      (t.jw.line = true ↔ t.jw.notice &&& t.jw.enable ≠ 0)) ∧
  (∀ (s : State) (b : Word), b.getLsbD 1 = true → s.jw.head < 65536 → (firstPending s).isSome = true →
    let u := (s.jw.head + 65536 - takenWord s) % 65536
    u ≤ 128 →
    ∃ t, (u = 128 → exec (.noticeClear b) s = .next (finish s t)) ∧
      (u < 128 → exec (.noticeClear b) s = .next (walkOn (finish (finish s t) (resyncStep (finish s t))))) ∧
      t.jw.taken = takenWord s ∧ t.jw.walking = decide (u < 128) ∧
      (t.jw.notice.getLsbD 1 = true ↔ s.jw.threshold ≤ u) ∧
      (∀ k, k ≠ 1 → t.jw.notice.getLsbD k = (s.jw.notice.getLsbD k && !(b.getLsbD k))) ∧
      (t.jw.line = true ↔ t.jw.notice &&& t.jw.enable ≠ 0) ∧
      t.jw.delayCount = (if s.jw.threshold ≤ u then none else s.jw.delayCount) ∧
      t = { s with jw := { s.jw with
        taken := t.jw.taken, walking := t.jw.walking, notice := t.jw.notice, line := t.jw.line
        delayCount := t.jw.delayCount } }) ∧
  (∀ (s : State) (b : Word), b.getLsbD 1 = true → s.jw.head < 65536 → 1 ≤ s.jw.threshold →
    128 < (s.jw.head + 65536 - takenWord s) % 65536 →
    ∃ t, exec (.noticeClear b) s = .next (walkOn (finish (finish s t) (resyncStep (finish s t)))) ∧ AllPending t ∧
      t.jw.taken = s.jw.head ∧ t.jw.head = s.jw.head ∧ t.jw.entries = s.jw.entries ∧ t.jw.walking = true ∧ t.mem = s.mem ∧
      t.jw.notice = s.jw.notice &&& ~~~(b.setWidth 5) ∧ (t.jw.line = true ↔ t.jw.notice &&& t.jw.enable ≠ 0) ∧
      t = { s with
        jw := t.jw, sup := { s.sup with links := t.sup.links }, tally := { s.tally with cams := t.tally.cams }
        router := { s.router with dests := t.router.dests } })

/-- POWER_ON_RESET and PART_RESET end HALTED with every block in its reset state, and a part reset keeps the host-written
regions but for the journal-taken count (R161; that the pins keep their levels and memory reads 0 after power-on is the model's
choice, and so are the counters that count on: notes/assumptions/1, 9 and 33). -/
def Obligations.ResetsEndHalted : Prop :=
  ∀ s : State, Memory.wf s.mem → ∃ p t : State,
    exec .powerOnReset s = .next p ∧ exec .partReset s = .next t ∧
    p = { t with mem := [] } ∧ t.part = .halted ∧ t.ctl = Controller.reset ∧ t.sup = Supervisor.reset ∧
    t.router = Router.reset ∧ t.jw = { Journal.reset with walkCount := s.jw.walkCount } ∧ t.disp = Dispatcher.reset ∧ t.adopt = Adoption.reset ∧
    t.mail = Mail.reset ∧ t.counts = Counts.reset ∧
    t.lockP = { flag := false, test := false } ∧ t.lockC = { flag := false, test := false } ∧
    t.eng = { Engine.reset with paceCount := s.eng.paceCount } ∧
    t.ul = { UnitLink.reset with uatn := s.ul.uatn } ∧
    t.tally = { TallyUnit.reset with inputs := t.tally.inputs } ∧
    t.tb = { Timebase.reset with takeFilter := t.tb.takeFilter, elapsed := s.tb.elapsed } ∧
    t.kc = { KillControl.reset with filter := t.kc.filter } ∧
    (∀ f ∈ t.kc.filter :: t.tb.takeFilter :: t.tally.inputs, f.accepted = false ∧ f.runStart = none) ∧
    (∀ a, Memory.read t.mem a = if a = 0x0A ∨ a = 0x0B then 0 else Memory.read s.mem a)

/-- RUN in HALTED makes the part RUNNING with the tick at 0 and requests the station adoption, which waits while LOCK P's flag
is set, and marks that the cue adoption is requested at its end (what the end then does with the mark: TableAdoptions and
DefinitionsReachTheirOwners); in RUNNING it is ignored (R161, R162). -/
def Obligations.RunStartsThePart : Prop :=
  (∀ s : State, s.part = .halted → ∃ t, exec .run s = .next t ∧ t.part = .running ∧ t.tb.tick = 0 ∧
    t.tb.takeFilter.accepted = s.tb.takeFilter.raw ∧ t.kc.filter.accepted = s.kc.filter.raw ∧
    (s.kc.filter.raw = true → t.kc.asserted = true) ∧
    t.adopt = { s.adopt with station := t.adopt.station, cueAfterStation := true } ∧
    AdoptionAtRun s.lockP.flag stationRegion s.mem s.adopt.station t.adopt.station ∧
    t.mem = s.mem ∧ t.ctl = s.ctl ∧ t.disp = s.disp ∧ t.eng = s.eng ∧ t.lockP = s.lockP ∧ t.lockC = s.lockC) ∧
  (∀ s : State, s.part = .running → nextRequest s.ul = none → exec .run s = .next (finish s s))

/-- DISPATCH_CELL, the tests that refuse: a cell that is not READY leaves the queue with its bytes unchanged and a NOT_READY report,
which carries the kind byte and the state byte found, no pending flag and the ORDER notice only if it is appended; a kind outside
1..15 completes BAD_KIND; a refused parameter completes BAD_PARAMETER with its offset in the first result byte. The subject of a
refusal is the cell (R154, R155, R170; the NOT_READY report's values, the subject and the offset byte's place are the model's
reading, and a CLAMPED flag is only ever set: notes/assumptions/15). The parameter tests of every kind but CLEAR_RESERVE, which has
a statement of its own: the first refused parameter in the order of TABLE 12-5 by its offset, or the order with its parameters as
TABLE 10-3 and TABLE 3-3 clamp them (that any force byte but 0 is force is the model's choice: 48). -/
def Obligations.DispatcherRefusesInOrder : Prop :=
  (∀ (s : State) (cell : Nat) (rest : List Nat), Memory.wf s.mem → s.disp.waiting = none → s.disp.intake = cell :: rest →
    cell < 64 →
    let kind := byteAt s.mem (cellBase cell + 1)
    let entry (code state : Nat) (clamped : Bool) (flag : PendingOf) (n : NoticeOf) : Owner × JReport :=
      (.dispatcher, { kind := .order, stamp := s.now, subject := cell, values := kind + (code + state * 256) * 2 ^ 24
                      dropped := false, clamped := clamped, flagOf := flag, notice := n })
    let refused (t : State) (code : ResultCode) (clamped : Bool) : Prop :=
      OrderEnds { cell := cell, kind := kind, clamped := clamped } 5 code cell s t ∧
      t = { s with
        mem := t.mem, counts := t.counts
        disp := { s.disp with intake := rest, service := t.disp.service }
        mail := { s.mail with reports := s.mail.reports ++ [entry code.toNat 5 clamped (.cell cell) .order] } }
    (byteAt s.mem (cellBase cell) ≠ 1 →
      exec .dispatchCell s = .next (finish s
        { s with
          disp.intake := rest
          mail.reports := s.mail.reports ++ [entry 15 (byteAt s.mem (cellBase cell)) false .nowhere .orderIfAppended] })) ∧
    (byteAt s.mem (cellBase cell) = 1 → kind = 0 ∨ 15 < kind →
      ∃ t, exec .dispatchCell s = .next t ∧ refused t .badKind false) ∧
    (∀ off c, byteAt s.mem (cellBase cell) = 1 → parseOrder s.mem cell = .refused off c → off < 256 →
      ∃ t, exec .dispatchCell s = .next t ∧ refused t .badParameter c ∧ resultByte t.mem cell 0 = off)) ∧
  (∀ (m : List Host.Cell) (cell : Nat),
    let b (k : Nat) := byteAt m (cellParams cell + k)
    let w (k : Nat) := fieldAt m (cellParams cell + k) 4
    let half (k : Nat) := fieldAt m (cellParams cell + k) 2
    let kind := byteAt m (cellBase cell + 1)
    let tag : OrderTag := { cell := cell, kind := kind, clamped := false }
    let code (given : Bool) (k : Nat) : Option Nat := if given then some (w k) else none
    let highCode (given : Nat) (ok : Parsed) : Parsed :=
      if given.testBit 0 = true ∧ 131071 < w 4 then .refused 4 false
      else if given.testBit 1 = true ∧ 131071 < w 8 then .refused 8 false else ok
    let plan (fill : Bool) : Parsed :=
      let hi := if 131071 < w 8 then 131071 else w 8
      let most := if fill then 32 else 8
      let absent : Prop := fill = true ∨ w 0x0C = 0xFFFFFFFF
      if 7 < b 0 then .refused 0 false
      else if 3 < b 1 then .refused 1 false
      else if b 2 = 0 ∨ 64 < b 2 then .refused 2 false
      else if b 2 ≤ b 3 then .refused 3 false
      else if hi < w 4 then .refused 4 false
      else if ¬absent ∧ 131071 < w 0x0C then .refused 0x0C (131071 < w 8)
      else if b 0x10 = 0 then .refused 0x10 (131071 < w 8)
      else
        let p : PlanParams :=
          { cls := b 0, zone := b 1, step := b 2, off := b 3, lo := w 4, hi := hi
            preferred := if absent then none else some (w 0x0C), count := if most < b 0x10 then most else b 0x10 }
        let tag := { tag with clamped := decide (131071 < w 8 ∨ most < b 0x10) }
        .taken (.plan (if fill then .fill tag p else .query tag p))
    (kind = 1 → parseOrder m cell = if 95 < b 0 then .refused 0 false else highCode (b 1)
      (.taken (.link { tag := tag, kind := .enable, link := b 0, roleOut := false, roleIn := false
                       codeOut := code ((b 1).testBit 0) 4, codeIn := code ((b 1).testBit 1) 8, force := false }))) ∧
    (kind = 2 → parseOrder m cell = if 95 < b 0 then .refused 0 false else
      .taken (.link { tag := tag, kind := .park, link := b 0, roleOut := false, roleIn := false, codeOut := none
                      codeIn := none, force := false })) ∧
    (kind = 3 → parseOrder m cell = if 95 < b 0 then .refused 0 false else highCode (b 2)
      (.taken (.link { tag := tag, kind := .retune, link := b 0, roleOut := (b 1).testBit 0, roleIn := (b 1).testBit 1
                       codeOut := code ((b 2).testBit 0) 4, codeIn := code ((b 2).testBit 1) 8
                       force := decide (b 3 ≠ 0) }))) ∧
    (kind = 4 → parseOrder m cell = plan false) ∧ (kind = 5 → parseOrder m cell = plan true) ∧
    (kind = 7 → parseOrder m cell = .taken (.plan (.audit tag))) ∧
    (kind = 8 → parseOrder m cell = .taken (.setTally tag (BitVec.ofNat 16 (half 0)) (BitVec.ofNat 16 (half 2)))) ∧
    (kind = 9 → parseOrder m cell =
      let level : Int := if half 6 < 32768 then half 6 else (half 6 : Int) - 65536
      let used : Int := if level < -160 then -160 else if 24 < level then 24 else level
      if 23 < b 0 then .refused 0 false
      else if 39 < b 1 then .refused 1 false
      else if 7 < b 2 then .refused 2 false
      else if 1 < b 3 then .refused 3 false
      else if 1 < b 4 then .refused 4 false
      else .taken (.key { tag with clamped := decide (used ≠ level) } (b 0) (b 1) (b 2) (decide (b 3 = 1)) (decide (b 4 = 0)) used)) ∧
    (kind = 10 → parseOrder m cell =
      if 23 < b 0 ∧ b 0 ≠ 0xFF then .refused 0 false
      else .taken (.clearKeys tag (if b 0 = 0xFF then none else some (b 0)))) ∧
    (kind = 11 → parseOrder m cell =
      if (b 0).testBit 0 = false ∧ (b 0).testBit 1 = false then .refused 0 false
      else .taken (.apply tag ((b 0).testBit 0) ((b 0).testBit 1))) ∧
    (kind = 12 → parseOrder m cell = if 86399 < w 0 then .refused 0 false else .taken (.setClock tag (w 0) (b 4))) ∧
    (kind = 13 → parseOrder m cell = .taken (.kill tag)) ∧ (kind = 14 → parseOrder m cell = .taken (.releaseKill tag)) ∧
    (kind = 15 → parseOrder m cell = if b 0 = 0 ∨ 127 < b 0 then .refused 0 false else .taken (.lineTest tag (b 0))) ∧
    (kind = 0 ∨ 15 < kind → parseOrder m cell = .badKind))

/-- DISPATCH_CELL of an order that passes: the cell is ACCEPTED, CLAMPED is set when a parameter was clamped, every other byte
of memory reads as before, and the order goes to its owner (TABLE 10-3): a plan order to the tail of the plan queue when a place of
it is free and nobody waits for one, a CLEAR_RESERVE to the controller's queue while fewer than 6 stand there, and each of these two
otherwise waits at the head of the intake queue (R42, R155, R156; that CLAMPED is only ever set is the model's choice:
notes/assumptions/15). Somebody waits for a place, besides a plan order at the head, when the audit-pending flag is set or a request
stands by (R43). -/
def Obligations.DispatcherHandsOver : Prop :=
  ∀ (s : State) (cell : Nat) (rest : List Nat) (o : Order), Memory.wf s.mem → s.disp.waiting = none →
    s.disp.intake = cell :: rest → byteAt s.mem (cellBase cell) = 1 → parseOrder s.mem cell = .taken o →
    (s.placeWanted = true ↔ s.eng.auditPending = true ∨ s.eng.standby ≠ []) ∧
    ∃ t, exec .dispatchCell s = .next (finish s t) ∧
      (∀ a, Memory.read t.mem a =
        if a = cellBase cell then 2
        else if a = cellBase cell + 5 ∧ o.tag.clamped = true then Memory.read s.mem a ||| 1
        else Memory.read s.mem a) ∧
      t = match o with
        | .link x => { s with
            mem := t.mem, disp.intake := rest, disp.service := s.disp.service ++ [cell]
            mail.linkOrders := s.mail.linkOrders ++ [x] }
        | .plan r =>
          if s.eng.queue.length < 8 ∧ s.placeWanted = false then
            { s with mem := t.mem, disp.intake := rest, eng.queue := s.eng.queue ++ [r] }
          else { s with mem := t.mem, disp.waiting := some o }
        | .clearReserve tag f =>
          if clearReserveOrders s.ctl.queue < 6 then
            { s with
              mem := t.mem, disp.intake := rest, disp.service := s.disp.service ++ [cell]
              ctl.queue := s.ctl.queue ++ [.clearReserve tag f] }
          else { s with mem := t.mem, disp.waiting := some o }
        | .setTally _ _ _ => { s with
            mem := t.mem, disp.intake := rest, disp.service := s.disp.service ++ [cell]
            mail.tallyOrders := s.mail.tallyOrders ++ [o] }
        | .key _ _ _ _ _ _ _ => { s with
            mem := t.mem, disp.intake := rest, disp.service := s.disp.service ++ [cell]
            mail.routerOrders := s.mail.routerOrders ++ [o] }
        | .clearKeys _ _ => { s with
            mem := t.mem, disp.intake := rest, disp.service := s.disp.service ++ [cell]
            mail.routerOrders := s.mail.routerOrders ++ [o] }
        | .apply _ _ _ => { s with
            mem := t.mem, disp.intake := rest, disp.service := s.disp.service ++ [cell]
            mail.timebaseOrders := s.mail.timebaseOrders ++ [o] }
        | .setClock _ _ _ => { s with
            mem := t.mem, disp.intake := rest, disp.service := s.disp.service ++ [cell]
            mail.timebaseOrders := s.mail.timebaseOrders ++ [o] }
        | .kill _ => { s with
            mem := t.mem, disp.intake := rest, disp.service := s.disp.service ++ [cell]
            mail.killOrders := s.mail.killOrders ++ [o] }
        | .releaseKill _ => { s with
            mem := t.mem, disp.intake := rest, disp.service := s.disp.service ++ [cell]
            mail.killOrders := s.mail.killOrders ++ [o] }
        | .lineTest _ _ => { s with
            mem := t.mem, disp.intake := rest, disp.service := s.disp.service ++ [cell]
            mail.lineTests := s.mail.lineTests ++ [o] }

/-- PLAN_PLACE_GRANT with a free place: the audit-pending flag first, then the head of the standby list, then the plan order that
waits at the head of the intake queue, which goes to the plan queue's tail in this one step (R43, R156). PLAN_QUERY, FILL_RESERVE and
AUDIT_PLAN: the dispatch of a cell that holds such an order; with a free place and nobody waiting the order joins the queue's tail, and
otherwise it waits at the head (R42, R156; that these three commands are the step that DISPATCH_CELL makes on such a cell, and nothing
on another, is the model's choice: notes/assumptions/16).
CLEAR_RESERVE_PLACE_GRANT: the waiting cell moves to the controller's queue once fewer than 6 stand there (R156). CANCEL: a
request in the standby list, and otherwise one in the plan queue, is removed, those behind it close up, and it is answered
CANCELLED, with 0 attempts (the model's choice: notes/assumptions/53); the request in service is marked and goes on; with no such request nothing changes (R52). A link's request to the
controller is sent when none is outstanding, and held behind the outstanding one otherwise (R26); behind the UPDATE of a kill
that still waits, only the INSERT of a sequence that a kill found goes ahead (R147; the model's choice: notes/assumptions/19). -/
def Obligations.PlanQueuePlaces : Prop :=
  (∀ s : State, s.eng.queue.length < 8 → s.eng.auditPending = true →
    exec .planPlaceGrant s = .next (finish s
      { s with eng.queue := s.eng.queue ++ [.internalAudit], eng.auditPending := false })) ∧
  (∀ s r rest, s.eng.queue.length < 8 → s.eng.auditPending = false → s.eng.standby = r :: rest →
    exec .planPlaceGrant s = .next (finish s
      { s with eng.queue := s.eng.queue ++ [.planning r], eng.standby := rest })) ∧
  (∀ s r cell rest, s.eng.queue.length < 8 → s.eng.auditPending = false → s.eng.standby = [] →
    s.disp.waiting = some (.plan r) → s.disp.intake = cell :: rest →
    exec .planPlaceGrant s = .next (finish s
      { s with eng.queue := s.eng.queue ++ [r], disp.waiting := none, disp.intake := rest })) ∧
  (∀ (s : State) (cell : Nat) (rest : List Nat) (r : PlanReq), Memory.wf s.mem → s.disp.waiting = none →
    s.disp.intake = cell :: rest → byteAt s.mem (cellBase cell) = 1 → parseOrder s.mem cell = .taken (.plan r) →
    let command (c : Instr) : Prop :=
      exec c s = exec .dispatchCell s ∧
      ∃ t, exec c s = .next (finish s t) ∧ byteAt t.mem (cellBase cell) = 2 ∧
        (s.eng.queue.length < 8 ∧ s.placeWanted = false →
          t = { s with mem := t.mem, disp.intake := rest, eng.queue := s.eng.queue ++ [r] }) ∧
        (8 ≤ s.eng.queue.length ∨ s.placeWanted = true → t = { s with mem := t.mem, disp.waiting := some (.plan r) })
    let nothing (c : Instr) : Prop := exec c s = .next (finish s s)
    (∀ g p, r = .query g p → command .planQuery ∧ nothing .fillReserve ∧ nothing .auditPlan) ∧
    (∀ g p, r = .fill g p → command .fillReserve ∧ nothing .planQuery ∧ nothing .auditPlan) ∧
    (∀ g, r = .audit g → command .auditPlan ∧ nothing .planQuery ∧ nothing .fillReserve)) ∧
  (∀ s g f cell rest, s.disp.waiting = some (.clearReserve g f) → s.disp.intake = cell :: rest →
    clearReserveOrders s.ctl.queue < 6 →
    exec .clearReservePlaceGrant s = .next (finish s
      { s with
        disp.intake := rest, disp.waiting := none, disp.service := s.disp.service ++ [cell]
        ctl.queue := s.ctl.queue ++ [.clearReserve g f] })) ∧
  (∀ (s : State) (link seq : Nat) (rest : List (Nat × Nat)), s.mail.cancels = (link, seq) :: rest →
    let mine (r : PlanningReq) : Prop := r.link = link ∧ r.seq = seq
    let answer : PlanAnswer := { link := link, seq := seq, result := .cancelled, afterCancel := false, roles := [], attempts := 0
                                 nothingFor := none, genChanged := false }
    (∀ a r b, s.eng.standby = a ++ r :: b → mine r → (∀ x ∈ a, ¬mine x) →
      exec .cancel s = .next (finish s
        { s with
          mail.cancels := rest, eng.standby := a ++ b, mail.planAnswers := s.mail.planAnswers ++ [answer] })) ∧
    (∀ a r b, (∀ x ∈ s.eng.standby, ¬mine x) → s.eng.queue = a ++ .planning r :: b → mine r →
      (∀ x, .planning x ∈ a → ¬mine x) →
      exec .cancel s = .next (finish s
        { s with
          mail.cancels := rest, eng.queue := a ++ b, mail.planAnswers := s.mail.planAnswers ++ [answer] })) ∧
    (∀ sv r, (∀ x ∈ s.eng.standby, ¬mine x) → (∀ x, .planning x ∈ s.eng.queue → ¬mine x) → s.eng.service = some sv →
      sv.req = .planning r → mine r →
      exec .cancel s = .next (finish s
        { s with mail.cancels := rest, eng.service := some { sv with cancelMark := true } })) ∧
    ((∀ x ∈ s.eng.standby, ¬mine x) → (∀ x, .planning x ∈ s.eng.queue → ¬mine x) →
      (∀ sv r, s.eng.service = some sv → sv.req = .planning r → ¬mine r) →
      exec .cancel s = .next (finish s { s with mail.cancels := rest }))) ∧
  (∀ (s : State) (i : Nat) (r : CtlReq),
    let a := (s.link i).aux
    let with' (a' : LinkAux) (q : List CtlReq) : State :=
      { s with sup.links := s.sup.links.set i { s.link i with aux := a' }, ctl.queue := q }
    (a.killWait = [] → a.outstanding = false →
      sendLink i r s = with' { a with outstanding := true } (s.ctl.queue ++ [r])) ∧
    (a.killWait = [] → a.outstanding = true → sendLink i r s = with' { a with held := a.held ++ [r] } s.ctl.queue) ∧
    (a.killWait ≠ [] → (∀ w ∈ a.killWait, r.engineInsert w = false) →
      sendLink i r s = with' { a with afterKill := a.afterKill ++ [r] } s.ctl.queue))

/-- CLEAR_RESERVE: the entries of the filter's class (every entry without one) leave the list in one step, the others keep
their order, each removed entry is reported, and the order completes DONE with OK and the count removed; and the dispatcher
takes the filter byte as that class, FFh as no filter, and refuses any other value (R37, TABLE 12-5; that its completion names no subject, and that the
entries are reported in list order and before the ORDER entry, are the model's choices: notes/assumptions/26 and 45). -/
def Obligations.ClearReserveRemovesByClass : Prop :=
  (∀ (s : State) (g : OrderTag) (f : Option Nat) (rest : List CtlReq), Memory.wf s.mem →
    s.ctl.queue = .clearReserve g f :: rest → s.ctl.reserve.length ≤ 32 →
    ∃ t, exec .clearReserve s = .next t ∧
      t.ctl.reserve = s.ctl.reserve.filter (fun e => f.any fun k => e.cls ≠ k) ∧
      OrderEnds g 4 .ok 65535 s t ∧
      resultByte t.mem g.cell 0 = s.ctl.reserve.length - t.ctl.reserve.length ∧
      (∃ gone last, t.mail.reports = s.mail.reports ++ gone ++ [last] ∧ last.1 = .controller ∧ last.2.kind = .order ∧
        gone.map (fun r => (r.1, r.2.kind, r.2.subject)) =
          (s.ctl.reserve.filter (fun e => f.all fun k => e.cls = k)).map
            (fun e => (Owner.controller, JKind.carrier, e.code + 2 ^ 23))) ∧
      t = { s with
        mem := t.mem, counts := t.counts, disp := { s.disp with service := t.disp.service }
        ctl := { s.ctl with reserve := t.ctl.reserve, queue := rest }
        mail := { s.mail with reports := t.mail.reports } }) ∧
  (∀ (m : List Host.Cell) (cell : Nat), byteAt m (cellBase cell + 1) = 6 →
    let b := byteAt m (cellParams cell)
    parseOrder m cell =
      if b = 0xFF then .taken (.clearReserve { cell := cell, kind := 6, clamped := false } none)
      else if b < 8 then .taken (.clearReserve { cell := cell, kind := 6, clamped := false } (some b))
      else .refused 0 false)

/-- INSERT of one role: WRONG_STATE when the role has two entries, TABLE_FULL without a free slot, CONTENDED with its code and
verdict when the quick check fails, and nothing inserted; otherwise the lowest free slot gets a RESERVED entry stamped now, the
carrier generation counts it, and the reserve entries that R28 names leave, the insertion and each of them reported (R27, R28, R40).
INSERT of both roles, given in either
order: the same tests for both, OUTBOUND checked first and INBOUND against the table and the tentative OUTBOUND entry, the first
that fails alone in the answer and nothing inserted, and otherwise both entries in the two lowest free slots in that order, reported in
that order before the reserve entries that leave, OUTBOUND's first. The
plan engine's INSERT does what a link's own does, and its answer goes to the engine (R26). -/
def Obligations.InsertOfOneRole : Prop :=
  (∀ (s : State) (link seq code : Nat) (p : RolePlan) (rest : List CtlReq),
    s.ctl.queue = .insert false link seq [(p, code)] :: rest →
    let v := verdictOf s.ctl.rules (tableCarriers s.ctl.table) code p.cls p.zone (some (link, p.role)) (some p.window)
    let e : CarrierEntry := { link := link, role := p.role, code := code, cls := p.cls, zone := p.zone, state := .reserved
                              conflict := false, excluded := false, imSuspect := false, since := s.now }
    let answered (t : State) (r : ResultCode) (roles : List RoleAnswer) : Prop :=
      t.mail.insertAnswers = s.mail.insertAnswers ++ [{ link := link, seq := seq, result := r, roles := roles }]
    let unchanged (r : ResultCode) (roles : List RoleAnswer) : Prop :=
      ∃ t, exec .insert s = .next (finish s t) ∧ answered t r roles ∧
        t = { s with ctl.queue := rest, mail.insertAnswers := t.mail.insertAnswers }
    (2 ≤ roleEntries s.ctl.table link p.role → unchanged .wrongState []) ∧
    (roleEntries s.ctl.table link p.role < 2 → (∀ x ∈ s.ctl.table, x ≠ none) → unchanged .tableFull []) ∧
    (∀ slot, roleEntries s.ctl.table link p.role < 2 → lowestFree s.ctl.table = some slot →
      (v.eligibility ≠ .acceptable →
        unchanged .contended [{ role := p.role, result := .contended, code := code, slot := none, verdict := some v }]) ∧
      (v.eligibility = .acceptable →
        ∃ t, exec .insert s = .next (finish s t) ∧
          t.ctl = { s.ctl with
            queue := rest, table := s.ctl.table.set slot (some e), carrierGen := (s.ctl.carrierGen + 1) % 65536
            reserve := s.ctl.reserve.filter fun x =>
              !(x.code = code || (x.zone = p.zone && spacingTo s.ctl.rules x.code x.cls e.carrier < 0)) } ∧
          answered t .ok [{ role := p.role, result := .ok, code := code, slot := some slot, verdict := some v }] ∧
          t.mail.reports = s.mail.reports ++ ((.controller, carrierReport slot none (some e) s) ::
            (s.ctl.reserve.filter fun x => x.code = code || (x.zone = p.zone && spacingTo s.ctl.rules x.code x.cls e.carrier < 0)).map
              fun x => (.controller, reserveReport x.code .spacing 0 s)) ∧
          t = { s with
            ctl := t.ctl
            mail := { s.mail with reports := t.mail.reports, insertAnswers := t.mail.insertAnswers } }))) ∧
  (∀ (s : State) (link seq co ci : Nat) (p q : RolePlan) (roles : List (RolePlan × Nat)) (rest : List CtlReq),
    s.ctl.queue = .insert false link seq roles :: rest → p.role = .outbound → q.role = .inbound →
    (roles = [(p, co), (q, ci)] ∨ roles = [(q, ci), (p, co)]) →
    let check (l : List Carrier) (x : RolePlan) (c : Nat) : Verdict :=
      verdictOf s.ctl.rules (tableCarriers s.ctl.table ++ l) c x.cls x.zone (some (link, x.role)) (some x.window)
    let entry (x : RolePlan) (c : Nat) : CarrierEntry :=
      { link := link, role := x.role, code := c, cls := x.cls, zone := x.zone, state := .reserved, conflict := false
        excluded := false, imSuspect := false, since := s.now }
    let v := check [] p co
    let u := check [(entry p co).carrier] q ci
    let word (x : RolePlan) (c : Nat) (r : ResultCode) (slot : Option Nat) (v : Verdict) : RoleAnswer :=
      { role := x.role, result := r, code := c, slot := slot, verdict := some v }
    let answer (r : ResultCode) (l : List RoleAnswer) : List InsertAnswer :=
      s.mail.insertAnswers ++ [{ link := link, seq := seq, result := r, roles := l }]
    let unchanged (r : ResultCode) (l : List RoleAnswer) : Prop :=
      exec .insert s = .next (finish s { s with ctl.queue := rest, mail.insertAnswers := answer r l })
    let limit : Prop := 2 ≤ roleEntries s.ctl.table link .outbound ∨ 2 ≤ roleEntries s.ctl.table link .inbound
    let free := s.ctl.table.countP Option.isNone
    (limit → unchanged .wrongState []) ∧ (¬limit → free < 2 → unchanged .tableFull []) ∧
    (¬limit → 2 ≤ free → v.eligibility ≠ .acceptable → unchanged .contended [word p co .contended none v]) ∧
    (¬limit → 2 ≤ free → v.eligibility = .acceptable → u.eligibility ≠ .acceptable →
      unchanged .contended [word q ci .contended none u]) ∧
    (∀ i j, ¬limit → v.eligibility = .acceptable → u.eligibility = .acceptable → lowestFree s.ctl.table = some i →
      lowestFree (s.ctl.table.set i (some (entry p co))) = some j →
      ∃ t, exec .insert s = .next (finish s t) ∧
        t.ctl = { s.ctl with
          queue := rest, table := (s.ctl.table.set i (some (entry p co))).set j (some (entry q ci))
          carrierGen := (s.ctl.carrierGen + 2) % 65536
          reserve := s.ctl.reserve.filter fun x =>
            !(x.code = co || x.code = ci || (x.zone = p.zone && spacingTo s.ctl.rules x.code x.cls (entry p co).carrier < 0)
              || (x.zone = q.zone && spacingTo s.ctl.rules x.code x.cls (entry q ci).carrier < 0)) } ∧
        t.mail.insertAnswers = answer .ok [word p co .ok (some i) v, word q ci .ok (some j) u] ∧
        (let left (x : RolePlan) (c : Nat) (y : ReserveEntry) : Bool :=
          y.code = c || (y.zone = x.zone && spacingTo s.ctl.rules y.code y.cls (entry x c).carrier < 0)
        t.mail.reports = s.mail.reports ++ [(.controller, carrierReport i none (some (entry p co)) s),
            (.controller, carrierReport j none (some (entry q ci)) s)] ++
          (s.ctl.reserve.filter (left p co) ++ s.ctl.reserve.filter fun y => !left p co y && left q ci y).map
            fun y => (.controller, reserveReport y.code .spacing 0 s)) ∧
        t = { s with
          ctl := t.ctl
          mail := { s.mail with reports := t.mail.reports, insertAnswers := t.mail.insertAnswers } })) ∧
  (∀ (s : State) (link seq : Nat) (roles : List (RolePlan × Nat)) (rest : List CtlReq),
    s.ctl.queue = .insert true link seq roles :: rest →
    let own : State := { s with ctl.queue := .insert false link seq roles :: rest }
    ∃ (u : State) (a : InsertAnswer), u.mail.engineAnswers = s.mail.engineAnswers ∧ u.mail.insertAnswers = s.mail.insertAnswers ∧
      exec .insert own = .next (finish own { u with mail.insertAnswers := s.mail.insertAnswers ++ [a] }) ∧
      exec .insert s = .next (finish s { u with mail.engineAnswers := s.mail.engineAnswers ++ [.inserted a] }))

/-- TAKE: WRONG_STATE for a role that would have three entries, TABLE_FULL without a free slot for every role, and neither list nor
table changes. A walk passes by an entry that does not match, discards one that matches and fails its check against the table and
the rest of the list, each reported DISCARD with its verdict, and ends at one that passes, reported TAKE. TAKE of one role: without a
spare that matches its class, zone, tuning range and grid the answer is NO_RESERVE and neither
list nor table changes, and a lone match that fails is discarded; a matching spare at the head of the list that passes its check leaves the list and becomes a RESERVED
entry in the lowest free slot, and the carrier generation counts it. TAKE of both roles: when INBOUND finds no match, the spare held
for OUTBOUND goes back to its place, reported GIVE_BACK, and the count of each position it moved goes up by 2 (that the removal and
the return share one odd interval is the model's choice, where R34 asks for one around every change of a position:
notes/assumptions/6); when both heads pass, both become entries (R36). APPEND: TABLE_FULL with 32 entries in the list,
CONTENDED for a code in use, CONTENDED with the verdict for a check that fails, and otherwise the spare joins the tail with the
present reading (R35). That a walk's check has the link and role as its subject, as R36 says, where R20 gives it none, is the model's
reading: notes/assumptions/46. -/
def Obligations.TakeAndAppend : Prop :=
  (∀ (s : State) (link seq : Nat) (roles : List RolePlan) (rest : List CtlReq), s.ctl.queue = .take link seq roles :: rest →
    let unchanged (r : ResultCode) : Prop :=
      exec .take s = .next (finish s
        { s with
          ctl.queue := rest
          mail.takeAnswers := s.mail.takeAnswers ++ [{ link := link, seq := seq, result := r, roles := [] }] })
    let three : Prop := ∃ p ∈ roles, 2 < roleEntries s.ctl.table link p.role + (roles.map (·.role)).count p.role
    (three → unchanged .wrongState) ∧
    (¬three → s.ctl.table.countP Option.isNone < roles.length → unchanged .tableFull)) ∧
  (∀ (s : State) (link fuel pos : Nat) (p : RolePlan) (tentative : List Carrier),
    let go := walkReserve link p tentative
    (s.ctl.reserve[pos]? = none → go (fuel + 1) pos s = (none, s)) ∧
    (∀ e, s.ctl.reserve[pos]? = some e →
      let fits : Prop := e.cls = p.cls ∧ e.zone = p.zone ∧ p.lo ≤ e.code ∧ e.code ≤ p.hi ∧ onGrid e.code p.step p.off = true
      let left := s.ctl.reserve.eraseIdx pos
      let v := verdictOf s.ctl.rules (tableCarriers s.ctl.table ++ tentative ++ reserveCarriers left) e.code p.cls p.zone
        (some (link, p.role)) (some p.window)
      let without (ch : ReserveChange) (old : Nat) : State :=
        { s with ctl.reserve := left, mail.reports := s.mail.reports ++ [(.controller, reserveReport e.code ch old s)] }
      (¬fits → go (fuel + 1) pos s = go fuel (pos + 1) s) ∧
      (fits → v.eligibility ≠ .acceptable → go (fuel + 1) pos s = go fuel pos (without .discard (discardValue v))) ∧
      (fits → v.eligibility = .acceptable →
        go (fuel + 1) pos s = (some ({ entry := e, behind := (left.drop pos).map (·.code) }, v), without .take 0)))) ∧
  (∀ (s : State) (link seq slot : Nat) (p : RolePlan) (rest : List CtlReq), s.ctl.queue = .take link seq [p] :: rest →
    roleEntries s.ctl.table link p.role < 2 → lowestFree s.ctl.table = some slot →
    ((∀ e ∈ s.ctl.reserve, ¬(e.cls = p.cls ∧ e.zone = p.zone ∧ p.lo ≤ e.code ∧ e.code ≤ p.hi ∧ onGrid e.code p.step p.off = true)) →
      exec .take s = .next (finish s
        { s with
          ctl.queue := rest
          mail.takeAnswers := s.mail.takeAnswers ++ [{ link := link, seq := seq, result := .noReserve, roles := [] }] })) ∧
    (∀ e left, s.ctl.reserve = e :: left → spareMatches p e = true → (∀ x ∈ left, spareMatches p x = false) →
      let v := verdictOf s.ctl.rules (tableCarriers s.ctl.table ++ reserveCarriers left) e.code p.cls p.zone
        (some (link, p.role)) (some p.window)
      v.eligibility ≠ .acceptable →
      exec .take s = .next (finish s
        { s with
          ctl.queue := rest, ctl.reserve := left
          mail.reports := s.mail.reports ++ [(.controller, reserveReport e.code .discard (discardValue v) s)]
          mail.takeAnswers := s.mail.takeAnswers ++ [{ link := link, seq := seq, result := .noReserve, roles := [] }] })) ∧
    (∀ e left, s.ctl.reserve = e :: left →
      e.cls = p.cls → e.zone = p.zone → p.lo ≤ e.code → e.code ≤ p.hi → onGrid e.code p.step p.off = true →
      (verdictOf s.ctl.rules (tableCarriers s.ctl.table ++ reserveCarriers left) e.code p.cls p.zone
        (some (link, p.role)) (some p.window)).eligibility = .acceptable →
      ∃ t a, exec .take s = .next (finish s t) ∧
        t.ctl.table = s.ctl.table.set slot (some
          { link := link, role := p.role, code := e.code, cls := p.cls, zone := p.zone, state := .reserved
            conflict := false, excluded := false, imSuspect := false, since := s.now }) ∧
        t.ctl.carrierGen = (s.ctl.carrierGen + 1) % 65536 ∧ e ∉ t.ctl.reserve ∧ t.ctl.reserve.Sublist left ∧
        t.mail.takeAnswers = s.mail.takeAnswers ++ [a] ∧
        a.link = link ∧ a.seq = seq ∧ a.result = .ok ∧ a.roles.map (fun x => (x.role, x.code, x.slot)) = [(p.role, e.code, some slot)] ∧
        t = { s with
          ctl := { s.ctl with table := t.ctl.table, reserve := t.ctl.reserve, queue := rest, carrierGen := t.ctl.carrierGen }
          mail := { s.mail with reports := t.mail.reports, takeAnswers := t.mail.takeAnswers } })) ∧
  (∀ (s : State) (link seq i : Nat) (p q : RolePlan) (e : ReserveEntry) (left : List ReserveEntry) (rest : List CtlReq),
    s.ctl.queue = .take link seq [p, q] :: rest → p.role = .outbound → q.role = .inbound →
    roleEntries s.ctl.table link .outbound < 2 → roleEntries s.ctl.table link .inbound < 2 →
    2 ≤ s.ctl.table.countP Option.isNone → lowestFree s.ctl.table = some i → s.ctl.reserve = e :: left →
    spareMatches p e = true →
    (verdictOf s.ctl.rules (tableCarriers s.ctl.table ++ reserveCarriers left) e.code p.cls p.zone
      (some (link, p.role)) (some p.window)).eligibility = .acceptable →
    let entry (x : RolePlan) (c : Nat) : CarrierEntry :=
      { link := link, role := x.role, code := c, cls := x.cls, zone := x.zone, state := .reserved, conflict := false
        excluded := false, imSuspect := false, since := s.now }
    ((∀ x ∈ left, spareMatches q x = false) → (s.ctl.reserve.map (·.code)).Nodup → s.ctl.reserve.length ≤ 32 →
      ∃ t, exec .take s = .next t ∧
        t = { s with
          ctl.queue := rest, counts := t.counts
          mail.reports := s.mail.reports ++ [(.controller, reserveReport e.code .take 0 s),
            (.controller, reserveReport e.code .giveBack 0 s)]
          mail.takeAnswers := s.mail.takeAnswers ++ [{ link := link, seq := seq, result := .noReserve, roles := [] }] } ∧
        (∀ k, k < s.ctl.reserve.length → t.counts.reserve.getD k 0 = (s.counts.reserve.getD k 0 + 2) % 256) ∧
        ∀ k, s.ctl.reserve.length ≤ k → k < 32 → t.counts.reserve.getD k 0 = s.counts.reserve.getD k 0) ∧
    (∀ j f after, left = f :: after → spareMatches q f = true →
      lowestFree (s.ctl.table.set i (some (entry p e.code))) = some j →
      (verdictOf s.ctl.rules (tableCarriers s.ctl.table ++ [(entry p e.code).carrier] ++ reserveCarriers after) f.code q.cls
        q.zone (some (link, q.role)) (some q.window)).eligibility = .acceptable →
      ∃ t a, exec .take s = .next (finish s t) ∧
        t.ctl.table = (s.ctl.table.set i (some (entry p e.code))).set j (some (entry q f.code)) ∧
        t.ctl.carrierGen = (s.ctl.carrierGen + 2) % 65536 ∧ t.ctl.reserve.Sublist after ∧
        t.mail.takeAnswers = s.mail.takeAnswers ++ [a] ∧ a.link = link ∧ a.seq = seq ∧ a.result = .ok ∧
        a.roles.map (fun x => (x.role, x.code, x.slot)) = [(.outbound, e.code, some i), (.inbound, f.code, some j)])) ∧
  (∀ (s : State) (code cls zone : Nat) (rest : List CtlReq), s.ctl.queue = .append code cls zone :: rest →
    let used : Prop := (∃ e, some e ∈ s.ctl.table ∧ e.code = code) ∨ ∃ e ∈ s.ctl.reserve, e.code = code
    let v := verdictOf s.ctl.rules (tableCarriers s.ctl.table ++ reserveCarriers s.ctl.reserve) code cls zone none none
    let refused (r : ResultCode) (v : Option Verdict) : Prop :=
      exec .append s = .next (finish s { s with ctl.queue := rest, mail.engineAnswers := s.mail.engineAnswers ++ [.appended r v] })
    (32 ≤ s.ctl.reserve.length → refused .tableFull none) ∧
    (s.ctl.reserve.length < 32 → used → refused .contended none) ∧
    (s.ctl.reserve.length < 32 → ¬used → v.eligibility ≠ .acceptable → refused .contended (some v)) ∧
    (s.ctl.reserve.length < 32 → ¬used → v.eligibility = .acceptable →
      exec .append s = .next (finish s
        { s with
          ctl.queue := rest, ctl.reserve := s.ctl.reserve ++ [{ code := code, cls := cls, zone := zone, fill := s.now }]
          mail.engineAnswers := s.mail.engineAnswers ++ [.appended .ok (some v)]
          mail.reports := s.mail.reports ++ [(.controller, reserveReport code .append 0 s)] })))

/-- LEARN of one role: WRONG_STATE when the role has an entry, TABLE_FULL without a free slot; otherwise the lowest free slot
gets a LEARNED entry whatever its check says, CONFLICT exactly when its spacing margin is negative, EXCLUDED exactly when its
band meets a range, IM_SUSPECT clear; the insertion and each mark set are reported, one CARRIER entry each, and then the spares that
leave by R28 (that CONFLICT comes before EXCLUDED is the model's choice: notes/assumptions/34). LEARN of both roles, given in either order, is the LEARN of OUTBOUND followed by that of
INBOUND, made in one step under one answer with both words (R30, R40). -/
def Obligations.LearnOfOneRole : Prop :=
  (∀ (s : State) (link seq zone code cls : Nat) (r : Role) (rest : List CtlReq),
    s.ctl.queue = .learn link seq zone [(r, code, cls)] :: rest →
    let answer (c : ResultCode) (slot : Option Nat) : InsertAnswer :=
      { link := link, seq := seq, result := .ok, roles := [{ role := r, result := c, code := code, slot := slot, verdict := none }] }
    let same (c : ResultCode) : Prop :=
      exec .learn s = .next (finish s { s with ctl.queue := rest, mail.learnAnswers := s.mail.learnAnswers ++ [answer c none] })
    (0 < roleEntries s.ctl.table link r → same .wrongState) ∧
    (roleEntries s.ctl.table link r = 0 → (∀ x ∈ s.ctl.table, x ≠ none) → same .tableFull) ∧
    (∀ slot, roleEntries s.ctl.table link r = 0 → lowestFree s.ctl.table = some slot →
      ∃ t e, exec .learn s = .next (finish s t) ∧ t.ctl.table = s.ctl.table.set slot (some e) ∧
        e = { link := link, role := r, code := code, cls := cls, zone := zone, state := .learned
              conflict := decide (spacingMargin s.ctl.rules code cls zone (tableCarriers s.ctl.table) < 0)
              excluded := bandExcluded s.ctl.rules code cls zone, imSuspect := false, since := s.now } ∧
        t.ctl.carrierGen = (s.ctl.carrierGen + 1) % 65536 ∧
        t.ctl.reserve = s.ctl.reserve.filter (fun x =>
          !(x.code = code || (x.zone = zone && spacingTo s.ctl.rules x.code x.cls e.carrier < 0))) ∧
        t.mail.learnAnswers = s.mail.learnAnswers ++ [answer .ok (some slot)] ∧
        (let bare := { e with conflict := false, excluded := false }
         t.mail.reports = s.mail.reports ++ ((.controller, carrierReport slot none (some bare) s) :: markReports slot bare e s ++
           (s.ctl.reserve.filter fun x => x.code = code || (x.zone = zone && spacingTo s.ctl.rules x.code x.cls e.carrier < 0)).map
             fun x => (.controller, reserveReport x.code .spacing 0 s))) ∧
        t = { s with
          ctl := { s.ctl with table := t.ctl.table, reserve := t.ctl.reserve, queue := rest, carrierGen := t.ctl.carrierGen }
          mail := { s.mail with reports := t.mail.reports, learnAnswers := t.mail.learnAnswers } })) ∧
  (∀ (s : State) (link seq zone : Nat) (o n : Nat × Nat) (roles : List (Role × Nat × Nat)) (rest : List CtlReq),
    s.ctl.queue = .learn link seq zone roles :: rest →
    (roles = [(.outbound, o), (.inbound, n)] ∨ roles = [(.inbound, n), (.outbound, o)]) →
    let alone (s : State) (x : Role × Nat × Nat) : State := { s with ctl.queue := .learn link seq zone [x] :: rest }
    let answered (s u : State) (l : List RoleAnswer) : State :=
      { u with mail.learnAnswers := s.mail.learnAnswers ++ [{ link := link, seq := seq, result := .ok, roles := l }] }
    ∃ u v a b,
      exec .learn (alone s (.outbound, o)) = .next (finish (alone s (.outbound, o)) (answered s u [a])) ∧
      exec .learn (alone u (.inbound, n)) = .next (finish (alone u (.inbound, n)) (answered u v [b])) ∧
      u.mail.learnAnswers = s.mail.learnAnswers ∧ exec .learn s = .next (finish s (answered s v [a, b])))

/-- UPDATE of one entry: WRONG_STATE and no change when no entry of the link has that role and code, or when TABLE 2-2 has no
such state change; an allowed change gives the entry its new state and the present time; a removal frees the slot and counts
the generation, and lifts CONFLICT of exactly the entries that conflicted with the removed one and keep their spacing to every
entry that remains, leaving every other slot as it was. UPDATE of any list of changes, LIVE or not, makes them one after another, each
by these rules and on the table the earlier ones left, in one step; then lifts CONFLICT as above for all it removed; and answers with
the outcome of each, to the LIVE answers or to the others (R31, R32). -/
def Obligations.UpdateOfOneEntry : Prop :=
  (∀ (s : State) (link seq : Nat) (live : Bool) (changes : List CarrierChange) (rest : List CtlReq),
    s.ctl.queue = .update link seq live changes :: rest →
    let after (x : List (Option CarrierEntry) × List ResultCode × List CarrierEntry) (c : CarrierChange) :
        List (Option CarrierEntry) × List ResultCode × List CarrierEntry :=
      match findEntry x.1 link c.role c.code with
      | none => (x.1, x.2.1 ++ [.wrongState], x.2.2)
      | some k =>
        match slotOf x.1 k, c.change with
        | none, _ => (x.1, x.2.1 ++ [.wrongState], x.2.2)
        | some e, .remove => (x.1.set k none, x.2.1 ++ [.ok], x.2.2 ++ [e])
        | some e, .become target =>
          if (e.state, target) ∈ [(CarrierState.reserved, CarrierState.live), (.reserved, .silent), (.live, .silent),
              (.learned, .silent), (.silent, .live)]
          then (x.1.set k (some { e with state := target, since := s.now }), x.2.1 ++ [.ok], x.2.2)
          else (x.1, x.2.1 ++ [.wrongState], x.2.2)
    let made := changes.foldl after (s.ctl.table, [], [])
    let answer : UpdateAnswer := { link := link, seq := seq, outcomes := made.2.1 }
    ∃ t, exec .update s = .next (finish s t) ∧
      (∀ k, slotOf made.1 k = none → slotOf t.ctl.table k = none) ∧
      (∀ k x, slotOf made.1 k = some x →
        let lifted : Prop := x.conflict = true ∧
          (∃ g ∈ made.2.2, g.zone = x.zone ∧ spacingTo s.ctl.rules x.code x.cls g.carrier < 0) ∧
          ∀ j y, j ≠ k → slotOf made.1 j = some y → y.zone = x.zone → 0 ≤ spacingTo s.ctl.rules x.code x.cls y.carrier
        (lifted → slotOf t.ctl.table k = some { x with conflict := false }) ∧
        (¬lifted → slotOf t.ctl.table k = some x)) ∧
      (s.ctl.carrierGen < 65536 → t.ctl.carrierGen = (s.ctl.carrierGen + made.2.2.length) % 65536) ∧
      t = { s with
        ctl := { s.ctl with table := t.ctl.table, queue := rest, carrierGen := t.ctl.carrierGen }
        mail := { s.mail with
          reports := t.mail.reports
          liveAnswers := s.mail.liveAnswers ++ if live then [answer] else []
          updateAnswers := s.mail.updateAnswers ++ if live then [] else [answer] } }) ∧
  (∀ (l : List (Option CarrierEntry)) (link code : Nat) (r : Role),
    let named (k : Nat) : Prop := ∃ e, slotOf l k = some e ∧ e.link = link ∧ e.role = r ∧ e.code = code
    (findEntry l link r code = none ↔ ∀ k, ¬named k) ∧
    (∀ k, findEntry l link r code = some k ↔ named k ∧ ∀ j, j < k → ¬named j)) ∧
  ∀ (s : State) (link seq : Nat) (c : CarrierChange) (rest : List CtlReq),
    s.ctl.queue = .update link seq false [c] :: rest →
    let answer (r : ResultCode) : List UpdateAnswer := s.mail.updateAnswers ++ [{ link := link, seq := seq, outcomes := [r] }]
    let refused : Prop := exec .update s = .next (finish s { s with ctl.queue := rest, mail.updateAnswers := answer .wrongState })
    (findEntry s.ctl.table link c.role c.code = none → refused) ∧
    (∀ slot e target, findEntry s.ctl.table link c.role c.code = some slot → slotOf s.ctl.table slot = some e →
      c.change = .become target →
      (e.state = target ∨ (target = .live ∧ e.state = .learned) ∨ target = .reserved ∨ target = .learned → refused) ∧
      ((e.state, target) ∈ [(CarrierState.reserved, CarrierState.live), (.reserved, .silent), (.live, .silent),
          (.learned, .silent), (.silent, .live)] →
        ∃ t, exec .update s = .next (finish s t) ∧
          t = { s with
            ctl.table := s.ctl.table.set slot (some { e with state := target, since := s.now }), ctl.queue := rest
            mail.updateAnswers := answer .ok
            mail.reports := s.mail.reports ++
              [(.controller, carrierReport slot (some e) (some { e with state := target, since := s.now }) s)] })) ∧
    (∀ slot e, findEntry s.ctl.table link c.role c.code = some slot → slotOf s.ctl.table slot = some e → c.change = .remove →
      ∃ t, exec .update s = .next (finish s t) ∧ slotOf t.ctl.table slot = none ∧
        t.ctl.carrierGen = (s.ctl.carrierGen + 1) % 65536 ∧ t.mail.updateAnswers = answer .ok ∧
        (∀ k x, k ≠ slot → slotOf s.ctl.table k = some x →
          let lifted : Prop := x.conflict = true ∧ x.zone = e.zone ∧ spacingTo s.ctl.rules x.code x.cls e.carrier < 0 ∧
            ∀ j y, j ≠ slot → j ≠ k → slotOf s.ctl.table j = some y → y.zone = x.zone →
              0 ≤ spacingTo s.ctl.rules x.code x.cls y.carrier
          (lifted → slotOf t.ctl.table k = some { x with conflict := false }) ∧
          (¬lifted → slotOf t.ctl.table k = some x)) ∧
        (∀ k, slotOf s.ctl.table k = none → slotOf t.ctl.table k = none) ∧
        t = { s with
          ctl := { s.ctl with table := t.ctl.table, queue := rest, carrierGen := t.ctl.carrierGen }
          mail := { s.mail with reports := t.mail.reports, updateAnswers := t.mail.updateAnswers } })

/-- PURGE: every entry of the link is removed in one step, the carrier generation goes up by one for each, the answer gives the
count, and every entry of another link stays as it was, but that CONFLICT is lifted of exactly those that conflicted with a removed
entry and keep their spacing to every entry that remains (R32, R33). -/
def Obligations.PurgeLeavesNoEntry : Prop :=
  ∀ (s : State) (link : Nat) (rest : List CtlReq), s.ctl.queue = .purge link :: rest →
    ∃ t, exec .purge s = .next (finish s t) ∧
      (∀ k, slotOf s.ctl.table k = none → slotOf t.ctl.table k = none) ∧
      (∀ k x, slotOf s.ctl.table k = some x → x.link = link → slotOf t.ctl.table k = none) ∧
      (∀ k x, slotOf s.ctl.table k = some x → x.link ≠ link →
        let lifted : Prop := x.conflict = true ∧
          (∃ j g, slotOf s.ctl.table j = some g ∧ g.link = link ∧ g.zone = x.zone ∧
            spacingTo s.ctl.rules x.code x.cls g.carrier < 0) ∧
          ∀ j y, j ≠ k → slotOf s.ctl.table j = some y → y.link ≠ link → y.zone = x.zone →
            0 ≤ spacingTo s.ctl.rules x.code x.cls y.carrier
        (lifted → slotOf t.ctl.table k = some { x with conflict := false }) ∧
        (¬lifted → slotOf t.ctl.table k = some x)) ∧
      t.mail.purgeAnswers = s.mail.purgeAnswers ++ [(link, (entriesOf s link).length)] ∧
      (s.ctl.carrierGen < 65536 → t.ctl.carrierGen = (s.ctl.carrierGen + (entriesOf s link).length) % 65536) ∧
      t = { s with
        ctl := { s.ctl with table := t.ctl.table, queue := rest, carrierGen := t.ctl.carrierGen }
        mail := { s.mail with reports := t.mail.reports, purgeAnswers := t.mail.purgeAnswers } }

/-- ADOPT: the rules come into force, the plan-rule generation counts, every entry's CONFLICT and EXCLUDED are set by the entry
check under the new rules and nothing else of it changes, spares in an excluded band or without spacing leave, an internal
audit is asked for, and the adoption is answered. Each mark set or cleared is reported by itself, in ascending slot, CONFLICT before
EXCLUDED, and then each spare removed (R38, R40, R55; that order is the model's choice: notes/assumptions/34 and 45). -/
def Obligations.AdoptTakesTheRules : Prop :=
  ∀ (s : State) (rules : PlanRules) (rest : List CtlReq), s.ctl.queue = .adopt rules :: rest →
    ∃ t, exec .adopt s = .next (finish s t) ∧ t.ctl.rules = rules ∧ t.ctl.ruleGen = (s.ctl.ruleGen + 1) % 65536 ∧
      t.ctl.carrierGen = s.ctl.carrierGen ∧ t.ctl.queue = rest ∧
      (∀ k, k < s.ctl.table.length → slotOf t.ctl.table k = (slotOf s.ctl.table k).map fun e =>
        { e with
          conflict := decide ((entryCheck rules s.ctl.table k e).spacing < 0)
          excluded := bandExcluded rules e.code e.cls e.zone }) ∧
      t.ctl.reserve = s.ctl.reserve.filter (fun e => !(bandExcluded rules e.code e.cls e.zone
        || spacingMargin rules e.code e.cls e.zone (tableCarriers s.ctl.table) < 0)) ∧
      (t.eng.auditPending = true ∨ .internalAudit ∈ t.eng.queue) ∧ t.adopt.station.stage = .answered ∧
      t.mail.reports = s.mail.reports ++
        ((List.range s.ctl.table.length).flatMap (fun k => match slotOf s.ctl.table k with
          | none => []
          | some e => markReports k e { e with
              conflict := decide ((entryCheck rules s.ctl.table k e).spacing < 0)
              excluded := bandExcluded rules e.code e.cls e.zone } s) ++
        (s.ctl.reserve.filter fun e => bandExcluded rules e.code e.cls e.zone
          || spacingMargin rules e.code e.cls e.zone (tableCarriers s.ctl.table) < 0).map
            fun e => (.controller, reserveReport e.code .adoption 0 s)) ∧
      t = { s with
        ctl := t.ctl
        eng := { s.eng with queue := t.eng.queue, auditPending := t.eng.auditPending }
        adopt := { s.adopt with station := { s.adopt.station with stage := .answered } }
        mail := { s.mail with reports := t.mail.reports } }

/-- MARK: CONFLICT and EXCLUDED of every entry are set anew; under the generation the audit kept, each finding sets IM_SUSPECT
of the entry it still names and the failing spares leave, and under another generation neither happens. The answer carries the entries
that then bear each mark, the spares removed, and whether the findings were applied. Each mark set or cleared is reported by itself, the
slots' ascending, then the findings', then each spare removed (R39, R40, R53, R54; that order is the model's choice: notes/assumptions/34
and 45). -/
def Obligations.MarkAppliesFindings : Prop :=
  ∀ (s : State) (gen : Nat) (f : List Finding) (codes : List Nat) (rest : List CtlReq),
    s.ctl.queue = .mark gen f codes :: rest → (f.map (·.slot)).Nodup →
    ∃ t m, exec .mark s = .next (finish s t) ∧
      (∀ k, k < s.ctl.table.length → slotOf t.ctl.table k = (slotOf s.ctl.table k).map fun e =>
        { e with
          conflict := decide ((entryCheck s.ctl.rules s.ctl.table k e).spacing < 0)
          excluded := bandExcluded s.ctl.rules e.code e.cls e.zone
          imSuspect :=
            match f.find? (fun x => x.slot = k ∧ x.link = e.link ∧ x.role = e.role ∧ x.code = e.code) with
            | some x => if gen = s.ctl.ruleGen then x.suspect else e.imSuspect
            | none => e.imSuspect }) ∧
      t.ctl.reserve = (if gen = s.ctl.ruleGen then s.ctl.reserve.filter (fun e => !codes.contains e.code) else s.ctl.reserve) ∧
      t.mail.engineAnswers = s.mail.engineAnswers ++ [.marked m] ∧ m.applied = decide (gen = s.ctl.ruleGen) ∧
      m.removed = s.ctl.reserve.length - t.ctl.reserve.length ∧
      (let marked (k : Nat) (e : CarrierEntry) : CarrierEntry :=
         { e with
           conflict := decide ((entryCheck s.ctl.rules s.ctl.table k e).spacing < 0)
           excluded := bandExcluded s.ctl.rules e.code e.cls e.zone }
       let remarked := (List.range s.ctl.table.length).flatMap fun k => match slotOf s.ctl.table k with
         | none => []
         | some e => markReports k e (marked k e) s
       let found := f.flatMap fun x => match slotOf s.ctl.table x.slot with
         | none => []
         | some e => if x.link = e.link ∧ x.role = e.role ∧ x.code = e.code
             then markReports x.slot (marked x.slot e) { marked x.slot e with imSuspect := x.suspect } s else []
       let gone := (s.ctl.reserve.filter fun e => codes.contains e.code).map fun e =>
         ((.controller, reserveReport e.code .audit 0 s) : Owner × JReport)
       t.mail.reports = s.mail.reports ++ (remarked ++ if gen = s.ctl.ruleGen then found ++ gone else [])) ∧
      m.conflict = (t.ctl.table.countP fun o => o.any (·.conflict)) ∧
      m.excluded = (t.ctl.table.countP fun o => o.any (·.excluded)) ∧
      m.imSuspect = (t.ctl.table.countP fun o => o.any (·.imSuspect)) ∧
      t = { s with
        ctl := { s.ctl with table := t.ctl.table, reserve := t.ctl.reserve, queue := rest }
        mail := { s.mail with reports := t.mail.reports, engineAnswers := t.mail.engineAnswers } }

/-- PLAN_SERVICE_START with the engine IDLE: the request at the head of the plan queue leaves it and is in service. The cell of
a PLAN_QUERY, a FILL_RESERVE with room in the list, or an AUDIT_PLAN is written WORKING; a FILL_RESERVE that finds 32 entries in the list ends
TABLE_FULL at once, with 0 added and 0 restarts (R50; notes/assumptions/26); a query's search starts at its window
with both generations kept, an audit keeps the plan-rule generation, and a planning request begins its first attempt: its roles in the
order OUTBOUND, INBOUND, and the first one's search, whose window, grid, class and zone are read from the working definition then, which
has no preferred code, and which considers the codes given or chosen for the other role as tentative entries of it (R44, R45, R46; that a
role the definition no longer declares has an empty window is the model's choice: notes/assumptions/5). -/
def Obligations.ServiceStartTakesTheHead : Prop :=
  ∀ (s : State) (rest : List PlanReq), Memory.wf s.mem → s.eng.service = none →
    (∀ g p, s.eng.queue = .query g p :: rest →
      ∃ t sv, exec .planServiceStart s = .next (finish s t) ∧ OrderWorks g s t ∧
        sv.req = .query g p ∧ sv.awaiting = false ∧ sv.search.next = firstOnGrid p.lo p.step p.off ∧ sv.search.hi = p.hi ∧
        sv.search.cls = p.cls ∧ sv.search.zone = p.zone ∧ sv.search.keep = p.count ∧ sv.search.useReserve = false ∧
        sv.search.carrierStart = s.ctl.carrierGen ∧ sv.search.ruleStart = s.ctl.ruleGen ∧
        t = { s with
          mem := t.mem, disp.service := s.disp.service ++ [g.cell], eng.queue := rest, eng.service := some sv }) ∧
    (∀ g p, s.eng.queue = .fill g p :: rest → s.ctl.reserve.length < 32 →
      ∃ t sv, exec .planServiceStart s = .next (finish s t) ∧ OrderWorks g s t ∧
        sv.req = .fill g p ∧ sv.awaiting = false ∧ sv.search.useReserve = true ∧ sv.search.preferred = none ∧
        t = { s with
          mem := t.mem, disp.service := s.disp.service ++ [g.cell], eng.queue := rest, eng.service := some sv }) ∧
    (∀ g p, s.eng.queue = .fill g p :: rest → 32 ≤ s.ctl.reserve.length →
      ∃ t, exec .planServiceStart s = .next (finish s t) ∧ OrderEnds g 4 .tableFull 65535 s t ∧
        resultByte t.mem g.cell 0 = 0 ∧ fieldAt t.mem (cellResults g.cell + 2) 2 = 0 ∧
        t.mail.reports = s.mail.reports ++ [(.engine, orderReport g .tableFull 4 s)] ∧
        t = { s with
          mem := t.mem, disp.service := t.disp.service, eng.queue := rest, openCount := t.openCount
          mail.reports := t.mail.reports }) ∧
    (∀ g, s.eng.queue = .audit g :: rest →
      ∃ t sv, exec .planServiceStart s = .next (finish s t) ∧ OrderWorks g s t ∧
        sv.req = .audit g ∧ sv.awaiting = false ∧ sv.audit.gen = s.ctl.ruleGen ∧ sv.audit.findings = [] ∧
        t = { s with
          mem := t.mem, disp.service := s.disp.service ++ [g.cell], eng.queue := rest, eng.service := some sv }) ∧
    (s.eng.queue = .internalAudit :: rest →
      ∃ sv, sv.req = .internalAudit ∧ sv.awaiting = false ∧ sv.audit.gen = s.ctl.ruleGen ∧
        exec .planServiceStart s = .next (finish s { s with eng.queue := rest, eng.service := some sv })) ∧
    (∀ r, s.eng.queue = .planning r :: rest →
      let order := r.search.filter (fun x => x = .outbound) ++ r.search.filter (fun x => x = .inbound)
      ∃ sv, sv.req = .planning r ∧ sv.awaiting = false ∧ sv.attempts = 1 ∧ sv.restarts = 0 ∧ sv.cancelMark = false ∧
        sv.genChanged = false ∧ sv.chosen = [] ∧ sv.role = order.head? ∧ sv.todo = order.tail ∧
        (∀ x, sv.role = some x → sv.search = roleSearch s r [] x s.ctl.carrierGen) ∧
        exec .planServiceStart s = .next (finish s { s with eng.queue := rest, eng.service := some sv })) ∧
    (∀ (r : PlanningReq) (chosen : List (Role × Nat × Int)) (x : Role) (gen : Nat),
      (∀ p, s.rolePlan r.link x = some p → roleSearch s r chosen x gen =
        { next := firstOnGrid p.lo p.step p.off, hi := p.hi, step := p.step, cls := p.cls, zone := p.zone
          subject := some (r.link, x)
          tentative := ((r.given ++ chosen.map fun c => (c.1, c.2.1)).filter fun o => o.1 ≠ x).filterMap fun o =>
            (s.rolePlan r.link o.1).map fun q =>
              { code := o.2, cls := q.cls, zone := q.zone, owner := some (r.link, o.1) }
          useReserve := false, preferred := none, keep := 1, best := [], found := 0, evaluated := 0, carrierStart := gen
          ruleStart := s.ctl.ruleGen }) ∧
      (s.rolePlan r.link x = none → ((roleSearch s r chosen x gen).toEnd s.ctl).best = [])) ∧
    (∀ (i : Nat) (x : Role), (s.linkDef i = none → s.rolePlan i x = none) ∧
      ∀ d, s.linkDef i = some d → s.rolePlan i x = (d.role x).map fun e =>
        { role := x, cls := e.cls, zone := d.zone, lo := e.lo, hi := e.hi, step := e.step, off := e.off })

/-- A search of n units of work: every candidate that it adds to those it keeps lies in its window, is at or above the code the
search had reached and on its grid from there, meets no exclusion range, and is acceptable against the tables; a search of a
FILL_RESERVE keeps no code in use; and never more are kept than asked for. A search that has kept none yet, run to its end, keeps
candidates in their ranking, and misses none: every acceptable candidate of its window is kept, unless as many as asked for, each
ranking before it, are (R7, R14, R17, R49, R50). The ranking is greater margin, then smaller distance to a preferred code, then
lower code (R17). A search run to its end counts the codes it evaluates, those of its grid whose band meets no range, and the acceptable
ones among them, each to at most 65,535 (R49). A band meets a range in use for its zone when it reaches it or touches it (R4, R7), and a
window's first code is the least one of its grid (R8). -/
def Obligations.SearchKeepsAcceptableCandidates : Prop :=
  ∀ (c : Controller) (r : SearchRun) (n : Nat),
    (∀ x ∈ (r.run c n).best, x ∈ r.best ∨
      (r.next ≤ x.1 ∧ x.1 ≤ r.hi ∧ (x.1 - r.next) % max r.step 1 = 0 ∧ bandExcluded c.rules x.1 r.cls r.zone = false ∧
        0 ≤ x.2 ∧ x.2 = (verdictOf c.rules (r.considered c) x.1 r.cls r.zone r.subject none).margin ∧
        (r.useReserve = true → codeUsed c x.1 = false))) ∧
    (r.best.length ≤ r.keep → (r.run c n).best.length ≤ r.keep) ∧
    (r.best = [] →
      (r.toEnd c).best.Pairwise (fun a b => ranksBefore r.preferred a b = true) ∧
      ∀ x, r.next ≤ x → x ≤ r.hi → (x - r.next) % max r.step 1 = 0 → bandExcluded c.rules x r.cls r.zone = false →
        let m := (verdictOf c.rules (r.considered c) x r.cls r.zone r.subject none).margin
        0 ≤ m → (r.useReserve = true → codeUsed c x = false) →
        (x, m) ∈ (r.toEnd c).best ∨
          ((r.toEnd c).best.length = r.keep ∧ ∀ y ∈ (r.toEnd c).best, ranksBefore r.preferred y (x, m) = true)) ∧
    (∀ a b : Nat × Int, ranksBefore r.preferred a b = true ↔
      b.2 < a.2 ∨ (a.2 = b.2 ∧
        ((r.preferred = none ∧ a.1 < b.1) ∨
          ∃ p, r.preferred = some p ∧ (|(a.1 : Int) - p| < |(b.1 : Int) - p| ∨
            (|(a.1 : Int) - p| = |(b.1 : Int) - p| ∧ a.1 < b.1))))) ∧
    (r.found ≤ 65535 → r.evaluated ≤ 65535 →
      let codes := (List.range (r.hi + 1)).filter fun x => r.next ≤ x ∧ (x - r.next) % max r.step 1 = 0
      let evaluated (x : Nat) : Bool := !bandExcluded c.rules x r.cls r.zone
      let acceptable (x : Nat) : Bool :=
        evaluated x && decide (0 ≤ (verdictOf c.rules (r.considered c) x r.cls r.zone r.subject none).margin)
          && !(r.useReserve && codeUsed c x)
      (r.toEnd c).evaluated = min 65535 (r.evaluated + codes.countP evaluated) ∧
      (r.toEnd c).found = min 65535 (r.found + codes.countP acceptable)) ∧
    (∀ (code cls zone : Nat), bandExcluded c.rules code cls zone = true ↔
      ∃ x ∈ c.rules.exclusions, x.low ≤ x.high ∧ x.zones.getLsbD zone = true ∧
        (code : Int) - (c.rules.cls cls).hw ≤ x.high ∧ (x.low : Int) ≤ code + (c.rules.cls cls).hw) ∧
    (∀ lo step off : Nat, 1 ≤ step →
      let grid (x : Nat) : Prop := lo ≤ x ∧ ((x : Int) - off) % step = 0
      grid (firstOnGrid lo step off) ∧ ∀ x, grid x → firstOnGrid lo step off ≤ x) ∧
    (∀ code : Nat, codeUsed c code = true ↔ (∃ e, some e ∈ c.table ∧ e.code = code) ∨ ∃ e ∈ c.reserve, e.code = code)

/-- QUERY_SEARCH_END: the order completes DONE, with OK and the ranked candidates, each with its margin, or with NO_CANDIDATE, the
counts of acceptable and of evaluated candidates and the generations at the start and at the end among its results, and the engine is
IDLE (R49; the counts stop at 65,535, as SearchKeepsAcceptableCandidates says). That the command itself finishes what is left of the search,
and that the completion names no subject, are the model's choices: notes/assumptions/5 and 26. -/
def Obligations.QuerySearchEndReports : Prop :=
  ∀ (s : State) (sv : Service) (g : OrderTag) (p : PlanParams), Memory.wf s.mem → s.eng.service = some sv →
    sv.req = .query g p → sv.search.keep ≤ 8 → sv.search.best.length ≤ sv.search.keep →
    let r := sv.search.toEnd s.ctl
    ∃ t, exec .querySearchEnd s = .next t ∧
      OrderEnds g 4 (if r.best = [] then .noCandidate else .ok) 65535 s t ∧
      resultByte t.mem g.cell 0 = r.best.length ∧
      fieldAt t.mem (cellResults g.cell + 2) 2 = r.found % 65536 ∧ fieldAt t.mem (cellResults g.cell + 4) 2 = r.evaluated % 65536 ∧
      fieldAt t.mem (cellResults g.cell + 6) 2 = r.carrierStart % 65536 ∧
      fieldAt t.mem (cellResults g.cell + 8) 2 = s.ctl.carrierGen % 65536 ∧
      fieldAt t.mem (cellResults g.cell + 10) 2 = r.ruleStart % 65536 ∧
      fieldAt t.mem (cellResults g.cell + 12) 2 = s.ctl.ruleGen % 65536 ∧
      (∀ k x, r.best[k]? = some x → fieldAt t.mem (cellResults g.cell + 16 + 6 * k) 4 = x.1 % 2 ^ 32 ∧
        fieldAt t.mem (cellResults g.cell + 20 + 6 * k) 2 = (x.2 % 65536).toNat) ∧
      t = { s with
        mem := t.mem, counts := t.counts, disp := { s.disp with service := t.disp.service }
        eng := { s.eng with service := none }, mail := { s.mail with reports := t.mail.reports } }

/-- FILL_SEARCH_END with a candidate offers the best one to the controller by APPEND; without one the order completes
NO_CANDIDATE if it added none and OK otherwise. APPEND_ANSWER: an OK that completes the count ends the order OK, any other
OK begins the next spare's search with its restart count at 0, or ends the order TABLE_FULL when the list is full, TABLE_FULL ends it
TABLE_FULL, and a refusal is searched again three times and then ends it CONTENDED (R50, R51). That FILL_SEARCH_END itself
finishes what is left of the search, that a completion names no subject, and that a spare's margin is the one its search gave, are the
model's choices: notes/assumptions/5, 26 and 52. -/
def Obligations.FillReserveSteps : Prop :=
  ∀ (s : State) (sv : Service) (g : OrderTag) (p : PlanParams), Memory.wf s.mem → s.eng.service = some sv →
    sv.req = .fill g p →
    (∀ x l, sv.awaiting = false → (sv.search.toEnd s.ctl).best = x :: l →
      exec .fillSearchEnd s = .next (finish s
        { s with
          eng.service := some { sv with awaiting := true, search := sv.search.toEnd s.ctl }
          ctl.queue := s.ctl.queue ++ [.append x.1 p.cls p.zone] })) ∧
    (sv.awaiting = false → (sv.search.toEnd s.ctl).best = [] →
      ∃ t, exec .fillSearchEnd s = .next t ∧
        OrderEnds g 4 (if sv.fill.added = 0 then .noCandidate else .ok) 65535 s t ∧
        resultByte t.mem g.cell 0 = sv.fill.added % 256 ∧ t.eng = { s.eng with service := none } ∧
        t = { s with
          mem := t.mem, counts := t.counts, disp := { s.disp with service := t.disp.service }, openCount := t.openCount
          eng := { s.eng with service := none }, mail := { s.mail with reports := t.mail.reports } }) ∧
    (∀ x l v rest, sv.awaiting = true → s.mail.engineAnswers = .appended .ok v :: rest → sv.search.best = x :: l →
      sv.fill.added + 1 = p.count →
      ∃ t, exec .appendAnswer s = .next t ∧ OrderEnds g 4 .ok 65535 s t ∧ resultByte t.mem g.cell 0 = p.count % 256 ∧
        fieldAt t.mem (cellResults g.cell + 12) 4 = x.1 % 2 ^ 32 ∧
        t = { s with
          mem := t.mem, counts := t.counts, disp := { s.disp with service := t.disp.service }
          eng := { s.eng with service := none }
          mail := { s.mail with reports := t.mail.reports, engineAnswers := rest } }) ∧
    (∀ x l v rest, sv.awaiting = true → s.mail.engineAnswers = .appended .ok v :: rest → sv.search.best = x :: l →
      sv.fill.added + 1 ≠ p.count →
      (s.ctl.reserve.length < 32 →
        exec .appendAnswer s = .next (finish s
          { s with
            mail.engineAnswers := rest
            eng.service := some { sv with
              awaiting := false, restarts := 0, search := orderSearch s.ctl p true
              fill := { sv.fill with
                added := sv.fill.added + 1, first := if sv.fill.first = none then some x else sv.fill.first, last := some x
                least := min sv.fill.least x.2 } } })) ∧
      (32 ≤ s.ctl.reserve.length →
        ∃ t, exec .appendAnswer s = .next t ∧ OrderEnds g 4 .tableFull 65535 s t ∧
          resultByte t.mem g.cell 0 = (sv.fill.added + 1) % 256 ∧ t.eng = { s.eng with service := none })) ∧
    (∀ v rest, sv.awaiting = true → s.mail.engineAnswers = .appended .tableFull v :: rest →
      ∃ t, exec .appendAnswer s = .next t ∧ OrderEnds g 4 .tableFull 65535 s t ∧ t.eng = { s.eng with service := none } ∧
        t.mail.engineAnswers = rest ∧ t.ctl = s.ctl ∧ t.sup = s.sup) ∧
    (∀ v rest, sv.awaiting = true → s.mail.engineAnswers = .appended .contended v :: rest →
      (3 ≤ sv.restarts →
        ∃ t, exec .appendAnswer s = .next t ∧ OrderEnds g 4 .contended 65535 s t ∧ t.eng = { s.eng with service := none } ∧
          t.mail.engineAnswers = rest ∧ t.ctl = s.ctl ∧ t.sup = s.sup) ∧
      (sv.restarts < 3 → s.ctl.reserve.length < 32 →
        ∃ sv', sv'.req = .fill g p ∧ sv'.awaiting = false ∧ sv'.restarts = sv.restarts + 1 ∧
          sv'.fill.restarts = sv.fill.restarts + 1 ∧ sv'.search = orderSearch s.ctl p true ∧
          exec .appendAnswer s = .next (finish s { s with mail.engineAnswers := rest, eng.service := some sv' })))

/-- AUDIT_MEASURING_END: the measuring is finished and a MARK with its generation, findings and failing codes is sent, for an
AUDIT_PLAN and an internal audit alike. MARK_ANSWER: an AUDIT_PLAN completes DONE with OK and the counts of the answer; an
internal audit just ends (R53, R54, R55). The measuring finds, of every slot in order that holds an entry, its slot, link, role and
code and whether its product margin is below 0, and of every position of the list the code of an entry that its check does not
find ACCEPTABLE (R53). That AUDIT_MEASURING_END itself finishes what is left of the measuring, and that the
completion names no subject, are the model's choices: notes/assumptions/5 and 26. -/
def Obligations.AuditSteps : Prop :=
  (∀ (c : Controller) (a : AuditRun),
    let e := a.toEnd c
    e.gen = a.gen ∧
    e.findings = a.findings ++ (List.range' a.slot (160 - a.slot)).filterMap (fun k => (slotOf c.table k).map fun x =>
      { slot := k, link := x.link, role := x.role, code := x.code
        suspect := decide ((entryCheck c.rules c.table k x).product < 0) }) ∧
    e.failing = a.failing ++ (c.reserve.zipIdx.drop a.pos).filterMap (fun x =>
      if (reserveCheck c.rules c.table c.reserve x.2 x.1).eligibility = .acceptable then none else some x.1.code) ∧
    e.reserveMeasured = a.reserveMeasured + (c.reserve.length - a.pos)) ∧
  ∀ (s : State) (sv : Service), Memory.wf s.mem → s.eng.service = some sv →
    ((∃ g, sv.req = .audit g) ∨ sv.req = .internalAudit → sv.awaiting = false →
      exec .auditMeasuringEnd s = .next (finish s
        { s with
          eng.service := some { sv with awaiting := true, audit := sv.audit.toEnd s.ctl }
          ctl.queue := s.ctl.queue ++
            [.mark (sv.audit.toEnd s.ctl).gen (sv.audit.toEnd s.ctl).findings (sv.audit.toEnd s.ctl).failing] })) ∧
    (∀ m rest g, s.mail.engineAnswers = .marked m :: rest → sv.req = .audit g →
      ∃ t, exec .markAnswer s = .next t ∧ OrderEnds g 4 .ok 65535 s t ∧
        fieldAt t.mem (cellResults g.cell) 2 = sv.audit.findings.length % 65536 ∧
        fieldAt t.mem (cellResults g.cell + 2) 2 = m.conflict % 65536 ∧
        fieldAt t.mem (cellResults g.cell + 4) 2 = m.excluded % 65536 ∧
        fieldAt t.mem (cellResults g.cell + 6) 2 = m.imSuspect % 65536 ∧
        resultByte t.mem g.cell 9 = m.removed % 256 ∧ (resultByte t.mem g.cell 10 = 1 ↔ m.applied = true) ∧
        t = { s with
          mem := t.mem, counts := t.counts, disp := { s.disp with service := t.disp.service }
          eng := { s.eng with service := none }
          mail := { s.mail with reports := t.mail.reports, engineAnswers := rest } }) ∧
    (∀ m rest, s.mail.engineAnswers = .marked m :: rest → sv.req = .internalAudit →
      exec .markAnswer s = .next (finish s { s with mail.engineAnswers := rest, eng.service := none }))

/-- PLANNING_ATTEMPT_END: a role without an acceptable candidate ends the request NO_CANDIDATE, naming it; a code for every role
is offered to the controller by one INSERT; a marked request is answered CANCELLED (R47). PLANNING_INSERT_ANSWER: OK ends the
request OK, or OK-AFTER-CANCEL when marked; the fourth CONTENDED ends it CONTENDED, and each earlier one restarts the whole attempt;
any other code ends it with that code (TABLE 3-2). The answer carries the attempts, the controller's word on each role, and whether the
carrier generation changed (R48). An attempt keeps the best code of each role in turn, the next role's search considering it, and ends at
a role that has none (R46). That PLANNING_ATTEMPT_END itself finishes what is left of the attempt, against
the tables as they stand (finishAttempt), and that the INSERT may be held behind an earlier request of the link (sendLink), are the
model's choices: notes/assumptions/5 and 19. -/
def Obligations.PlanningAttempts : Prop :=
  ∀ (s : State) (sv : Service) (r : PlanningReq), s.eng.service = some sv → sv.req = .planning r →
    let w := finishAttempt r s 2 sv
    let changed : Bool := sv.genChanged || decide (w.search.carrierStart ≠ s.ctl.carrierGen)
    let order := r.search.filter (fun x => x = .outbound) ++ r.search.filter (fun x => x = .inbound)
    let ended (c : Instr) (result : ResultCode) (after : Bool) (roles : List RoleAnswer) (nothing : Option Role) : Prop :=
      ∃ t a, exec c s = .next (finish s t) ∧ t.mail.planAnswers = s.mail.planAnswers ++ [a] ∧ a.link = r.link ∧ a.seq = r.seq ∧
        a.result = result ∧ a.afterCancel = after ∧ a.attempts = sv.attempts ∧ a.nothingFor = nothing ∧ a.roles = roles ∧
        a.genChanged = (if sv.awaiting then sv.genChanged else changed) ∧ t.eng.service = none ∧
        t = { s with
          eng := { s.eng with service := none }, ctl := { s.ctl with queue := t.ctl.queue }
          sup := { s.sup with links := t.sup.links }
          mail := { s.mail with planAnswers := t.mail.planAnswers, engineAnswers := t.mail.engineAnswers } }
    (sv.awaiting = false → sv.cancelMark = true → ended .planningAttemptEnd .cancelled false [] none) ∧
    (∀ x, sv.awaiting = false → sv.cancelMark = false → w.role = some x →
      ended .planningAttemptEnd .noCandidate false [] (some x)) ∧
    (sv.awaiting = false → sv.cancelMark = false → w.role = none → insertBarred r.link r.seq s = false →
      ∃ t sv' roles, exec .planningAttemptEnd s = .next (finish s t) ∧ sv'.awaiting = true ∧ sv'.req = .planning r ∧
        sv'.chosen = w.chosen ∧ sv'.attempts = sv.attempts ∧ sv'.restarts = sv.restarts ∧ sv'.genChanged = changed ∧
        roles = (r.given ++ w.chosen.map fun c => (c.1, c.2.1)).filterMap
          (fun c => (s.rolePlan r.link c.1).map fun p => (p, c.2)) ∧
        t = sendLink r.link (.insert true r.link r.seq roles) { s with eng.service := some sv' }) ∧
    (∀ a rest, sv.awaiting = true → s.mail.engineAnswers = .inserted a :: rest →
      (a.result = .ok → ended .planningInsertAnswer (if sv.cancelMark then .cancelled else .ok) sv.cancelMark a.roles none) ∧
      (sv.cancelMark = true → a.result ≠ .ok → ended .planningInsertAnswer .cancelled false [] none) ∧
      (sv.cancelMark = false → a.result = .contended → 3 ≤ sv.restarts → ended .planningInsertAnswer .contended false a.roles none) ∧
      (sv.cancelMark = false → a.result ≠ .ok → a.result ≠ .contended → ended .planningInsertAnswer a.result false [] none) ∧
      (sv.cancelMark = false → a.result = .contended → sv.restarts < 3 →
        ∃ t sv', exec .planningInsertAnswer s = .next (finish s t) ∧ t.eng.service = some sv' ∧
          sv'.restarts = sv.restarts + 1 ∧ sv'.attempts = sv.attempts + 1 ∧ sv'.awaiting = false ∧ sv'.chosen = [] ∧
          sv'.req = .planning r ∧ sv'.role = order.head? ∧ sv'.todo = order.tail ∧
          (∀ x, sv'.role = some x → sv'.search = roleSearch s r [] x s.ctl.carrierGen) ∧
          t.mail.planAnswers = s.mail.planAnswers)) ∧
    (∀ (n : Nat) (v : Service), finishAttempt r s 0 v = v ∧ (v.role = none → finishAttempt r s (n + 1) v = v) ∧
      ∀ x, v.role = some x →
        let e := v.search.toEnd s.ctl
        (e.best = [] → finishAttempt r s (n + 1) v = { v with search := e }) ∧
        ∀ code margin l, e.best = (code, margin) :: l →
          let chosen := v.chosen ++ [(x, code, margin)]
          (v.todo = [] → finishAttempt r s (n + 1) v = { v with search := e, role := none, chosen := chosen }) ∧
          ∀ y ys, v.todo = y :: ys → finishAttempt r s (n + 1) v = finishAttempt r s n
            { v with search := roleSearch s r chosen y e.carrierStart, role := some y, todo := ys, chosen := chosen })

/-- ENABLE_LINK, by the first test that applies: KILLED while the kill is ASSERTED, BAD_PARAMETER for a code of a role that the
definition does not declare, BUSY with an order in service, while the link is barred by a station adoption, or in a state where the
link is busy, WRONG_STATE in VACANT (also with no definition), LEARNING and ACTIVE; from PARKED or FAULTED the sequence begins:
PLANNING with a planning request for the roles without a code, or TUNING with an INSERT when every role has one, the re-tune-needed
mark clear when it began in FAULTED; the cell is WORKING and every other link is as before (R61, R63, TABLE 4-5; that BAD_PARAMETER
writes the offset of the role set is the model's choice: notes/assumptions/38). -/
def Obligations.EnableLinkSteps : Prop :=
  (∀ (s : State) (o : LinkOrder) (rest : List LinkOrder), Memory.wf s.mem → s.mail.linkOrders = o :: rest →
    o.kind = .enable → o.link < 96 → s.linkDef o.link = none →
    let refused (code : ResultCode) : Prop :=
      ∃ t, exec .enableLink s = .next (finishLink s t) ∧ OrderEnds o.tag 5 code o.link s t ∧
        t = { s with
          mem := t.mem, disp := { s.disp with service := t.disp.service }
          mail := { s.mail with linkOrders := rest, reports := t.mail.reports } }
    (s.kc.asserted = true → refused .killed) ∧
    (s.kc.asserted = false → (s.link o.link).aux.order = none → s.adopt.barred.contains o.link = false →
      (s.linkRec o.link).state = .vacant → refused .wrongState)) ∧
  ∀ (s : State) (o : LinkOrder) (rest : List LinkOrder) (d : LinkDef), Memory.wf s.mem → s.mail.linkOrders = o :: rest →
    o.kind = .enable → o.link < 96 → o.link < s.sup.links.length → s.linkDef o.link = some d →
    let l := s.link o.link
    let refused (off : Option Nat) (code : ResultCode) : Prop :=
      ∃ t, exec .enableLink s = .next (finishLink s t) ∧ OrderEnds o.tag 5 code o.link s t ∧
        (∀ k, off = some k → resultByte t.mem o.tag.cell 0 = k) ∧
        t = { s with
          mem := t.mem, disp := { s.disp with service := t.disp.service }
          mail := { s.mail with linkOrders := rest, reports := t.mail.reports } }
    (givesUndeclared o d = true ↔ ∃ r, (o.code r).isSome = true ∧ d.role r = none) ∧
    (s.kc.asserted = true → refused none .killed) ∧
    (s.kc.asserted = false → givesUndeclared o d = true → refused (some 1) .badParameter) ∧
    (s.kc.asserted = false → givesUndeclared o d = false → l.aux.order.isSome = true ∨ s.adopt.barred.contains o.link = true →
      refused none .busy) ∧
    (s.kc.asserted = false → givesUndeclared o d = false → l.aux.order = none → s.adopt.barred.contains o.link = false →
      l.vis.state ∈ [LinkState.planning, .tuning, .retuning, .holding, .killed] → refused none .busy) ∧
    (s.kc.asserted = false → givesUndeclared o d = false → l.aux.order = none → s.adopt.barred.contains o.link = false →
      l.vis.state ∈ [LinkState.vacant, .learning, .active] → refused none .wrongState) ∧
    (s.kc.asserted = false → givesUndeclared o d = false → l.aux.order = none → s.adopt.barred.contains o.link = false →
      l.vis.state ∈ [LinkState.parked, .faulted] → l.aux.outstanding = false → l.aux.killWait = [] →
      ∃ t, exec .enableLink s = .next (finishLink s t) ∧ OrderWorks o.tag s t ∧ OtherLinks o.link s t ∧
        (t.linkRec o.link).seqKind = .enable ∧ (t.linkRec o.link).phase = .inserting ∧
        (t.linkRec o.link).seqOut = d.outRole.isSome ∧ (t.linkRec o.link).seqIn = d.inRole.isSome ∧
        (t.linkRec o.link).orderCell = some o.tag.cell ∧ (t.link o.link).aux.order = some o ∧
        (t.link o.link).aux.began = l.vis.state ∧ (t.link o.link).aux.permitKept = false ∧
        (t.linkRec o.link).retuneNeeded = (l.vis.retuneNeeded && decide (l.vis.state ≠ .faulted)) ∧
        (o.toSearch d.declared ≠ [] →
          (t.linkRec o.link).state = .planning ∧ t.ctl.queue = s.ctl.queue ∧ ∃ q : PlanningReq,
            q.retune = false ∧ q.link = o.link ∧ q.cell = o.tag.cell ∧ q.search = o.toSearch d.declared ∧
            q.given = o.given d.declared ∧
            ((t.eng.queue = s.eng.queue ++ [.planning q] ∧ t.eng.standby = s.eng.standby) ∨
              (t.eng.queue = s.eng.queue ∧ t.eng.standby = s.eng.standby ++ [q]))) ∧
        (o.toSearch d.declared = [] →
          (t.linkRec o.link).state = .tuning ∧ t.eng = s.eng ∧
          t.ctl.queue = s.ctl.queue ++ [.insert false o.link (l.aux.seq + 1)
            ((o.given d.declared).filterMap fun c => (s.rolePlan o.link c.1).map fun p => (p, c.2))]) ∧
        OnlyLinks { s with
          mem := t.mem, ctl.queue := t.ctl.queue, eng.queue := t.eng.queue, eng.standby := t.eng.standby
          mail.linkOrders := rest } t)

/-- RETUNE_LINK, by the first test that applies: KILLED while the kill is ASSERTED, NOT_TUNABLE without an OUTBOUND role,
BAD_PARAMETER for an empty or undeclared role set and for a target code of an undeclared role, BUSY with an order in service, and
then by the state (TABLE 4-5): an order for a VACANT link, also with no definition, is refused WRONG_STATE, one in HOLDING is BUSY
unless it is forced over a FAILOVER hold, and one in FAULTED is WRONG_STATE unless it is forced and names every declared role with a
RESERVED or SILENT entry. From ACTIVE, an unforced one whose camera shows programme makes the link HOLDING for the order, with
nothing sent; every other one taken makes it RETUNING, ends the hold it found, and asks for its entries, by a RETUNE planning request
for the roles without a target code or by INSERT when every role has one, its permit kept when it is forced; begun in FAULTED it
clears the re-tune-needed mark. The cell is WORKING and every other link is as before (R61, R69, R70; that BAD_PARAMETER writes the
offset of the role set at fault is the model's choice: notes/assumptions/38). -/
def Obligations.RetuneLinkSteps : Prop :=
  (∀ (s : State) (o : LinkOrder) (rest : List LinkOrder), Memory.wf s.mem → s.mail.linkOrders = o :: rest →
    o.kind = .retune → o.link < 96 → s.linkDef o.link = none →
    let refused (code : ResultCode) : Prop :=
      ∃ t, exec .retuneLink s = .next (finishLink s t) ∧ OrderEnds o.tag 5 code o.link s t ∧
        t = { s with
          mem := t.mem, disp := { s.disp with service := t.disp.service }
          mail := { s.mail with linkOrders := rest, reports := t.mail.reports } }
    (s.kc.asserted = true → refused .killed) ∧
    (s.kc.asserted = false → (s.link o.link).aux.order = none → (s.linkRec o.link).state = .vacant → refused .wrongState)) ∧
  ∀ (s : State) (o : LinkOrder) (rest : List LinkOrder) (d : LinkDef), Memory.wf s.mem → s.mail.linkOrders = o :: rest →
    o.kind = .retune → o.link < 96 → o.link < s.sup.links.length → s.linkDef o.link = some d →
    let l := s.link o.link
    let refused (off : Option Nat) (code : ResultCode) : Prop :=
      ∃ t, exec .retuneLink s = .next (finishLink s t) ∧ OrderEnds o.tag 5 code o.link s t ∧
        (∀ k, off = some k → resultByte t.mem o.tag.cell 0 = k) ∧
        t = { s with
          mem := t.mem, disp := { s.disp with service := t.disp.service }
          mail := { s.mail with linkOrders := rest, reports := t.mail.reports } }
    let roles := bothRoles.filter o.names
    let passed : Prop := s.kc.asserted = false ∧ d.outRole.isSome = true ∧ badRoleSet o d = false ∧ givesUndeclared o d = false ∧
      l.aux.order = none
    let coversFailed : Prop := ∀ r, (d.role r).isSome = true → o.names r = false → ∀ e ∈ entriesOf s o.link, e.role = r →
      e.state ≠ .reserved ∧ e.state ≠ .silent
    (badRoleSet o d = true ↔ (o.roleOut = false ∧ o.roleIn = false) ∨ ∃ r, o.names r = true ∧ d.role r = none) ∧
    (givesUndeclared o d = true ↔ ∃ r, (o.code r).isSome = true ∧ d.role r = none) ∧
    (s.kc.asserted = true → refused none .killed) ∧
    (s.kc.asserted = false → d.outRole = none → refused none .notTunable) ∧
    (s.kc.asserted = false → d.outRole.isSome = true → badRoleSet o d = true → refused (some 1) .badParameter) ∧
    (s.kc.asserted = false → d.outRole.isSome = true → badRoleSet o d = false → givesUndeclared o d = true →
      refused (some 2) .badParameter) ∧
    (s.kc.asserted = false → d.outRole.isSome = true → badRoleSet o d = false → givesUndeclared o d = false →
      l.aux.order.isSome = true → refused none .busy) ∧
    (passed → l.vis.state ∈ [LinkState.vacant, .parked, .learning] → refused none .wrongState) ∧
    (passed → l.vis.state ∈ [LinkState.planning, .tuning, .retuning, .killed] → refused none .busy) ∧
    (passed → l.vis.state = .holding → ¬(o.force = true ∧ l.vis.hold = some .failover) → refused none .busy) ∧
    (passed → l.vis.state = .faulted → ¬(o.force = true ∧ coversFailed) → refused none .wrongState) ∧
    (passed → l.vis.state = .active → o.force = false → s.onProgramme d.camera = true →
      ∃ t, exec .retuneLink s = .next (finishLink s t) ∧ OrderWorks o.tag s t ∧ OtherLinks o.link s t ∧
        (t.linkRec o.link).state = .holding ∧ (t.linkRec o.link).hold = some .order ∧
        (t.linkRec o.link).holdStart = some s.now ∧ (t.linkRec o.link).seqKind = .noSequence ∧
        (t.linkRec o.link).orderCell = some o.tag.cell ∧
        OnlyLinks { s with mem := t.mem, mail.linkOrders := rest } t) ∧
    (passed →
      (l.vis.state = .active ∧ (o.force = true ∨ s.onProgramme d.camera = false)) ∨
        (l.vis.state = .holding ∧ o.force = true ∧ l.vis.hold = some .failover) ∨
        (l.vis.state = .faulted ∧ o.force = true ∧ coversFailed) →
      l.aux.outstanding = false → l.aux.killWait = [] →
      ∃ t, exec .retuneLink s = .next (finishLink s t) ∧ OrderWorks o.tag s t ∧ OtherLinks o.link s t ∧
        (t.linkRec o.link).state = .retuning ∧ (t.linkRec o.link).seqKind = .retune ∧
        (t.linkRec o.link).phase = .inserting ∧ (t.linkRec o.link).seqOut = o.roleOut ∧
        (t.linkRec o.link).seqIn = o.roleIn ∧ (t.linkRec o.link).hold = none ∧
        (t.linkRec o.link).orderCell = some o.tag.cell ∧ (t.link o.link).aux.order = some o ∧
        (t.link o.link).aux.permitKept = o.force ∧
        (t.link o.link).aux.began = (if l.vis.state = .faulted then .faulted else .active) ∧
        (t.linkRec o.link).retuneNeeded = (l.vis.retuneNeeded && decide (l.vis.state ≠ .faulted)) ∧
        (o.toSearch roles = [] → t.eng = s.eng ∧ t.ctl.queue = s.ctl.queue ++ [.insert false o.link (l.aux.seq + 1)
          ((o.given roles).filterMap fun c => (s.rolePlan o.link c.1).map fun p => (p, c.2))]) ∧
        (o.toSearch roles ≠ [] → t.ctl.queue = s.ctl.queue ∧ ∃ q : PlanningReq,
          q.retune = true ∧ q.link = o.link ∧ q.cell = o.tag.cell ∧ q.search = o.toSearch roles ∧ q.given = o.given roles ∧
          ((t.eng.queue = s.eng.queue ++ [.planning q] ∧ t.eng.standby = s.eng.standby) ∨
            (t.eng.queue = s.eng.queue ∧ t.eng.standby = s.eng.standby ++ [q]))) ∧
        OnlyLinks { s with
          mem := t.mem, ctl.queue := t.ctl.queue, eng.queue := t.eng.queue, eng.standby := t.eng.standby
          mail.linkOrders := rest } t)

/-- PARK_LINK: WRONG_STATE on a VACANT link; OK at once on a PARKED link without an order in service, with the state left, 0
entries and no MUTE in its results; on any other link, and on a PARKED one with an earlier PARK in service, everything is abandoned: the
link is PARKED without codes, hold or sequence, an order in service, an earlier PARK too, completes CANCELLED, its waiting requests
leave the controller's queue and a PURGE stands in it, the earlier one where that still waits, its CONTROL request is withdrawn, and a
MUTE of every declared role waits if it has an OUTBOUND role (R33, R75). That the present
codes and the healths are cleared at this step, which R75 does not say, is the model's choice: notes/assumptions/21 and 22. -/
def Obligations.ParkLinkSteps : Prop :=
  ∀ (s : State) (o : LinkOrder) (rest : List LinkOrder) (d : LinkDef), Memory.wf s.mem → s.mail.linkOrders = o :: rest →
    o.kind = .park → o.link < 96 → o.link < s.sup.links.length →
    let l := s.link o.link
    (l.vis.state = .vacant →
      ∃ t, exec .parkLink s = .next (finishLink s t) ∧ OrderEnds o.tag 5 .wrongState o.link s t ∧
        t = { s with
          mem := t.mem, disp := { s.disp with service := t.disp.service }
          mail := { s.mail with linkOrders := rest, reports := t.mail.reports } }) ∧
    (l.vis.state = .parked → l.aux.order = none →
      ∃ t, exec .parkLink s = .next (finishLink s t) ∧ OrderEnds o.tag 4 .ok o.link s t ∧
        resultByte t.mem o.tag.cell 0 = 1 ∧ resultByte t.mem o.tag.cell 1 = 0 ∧ resultByte t.mem o.tag.cell 2 = 0 ∧
        t = { s with
          mem := t.mem, disp := { s.disp with service := t.disp.service }
          mail := { s.mail with linkOrders := rest, reports := t.mail.reports } }) ∧
    (l.vis.state ≠ .vacant → l.vis.state ≠ .parked ∨ l.aux.order.isSome = true → s.linkDef o.link = some d →
      ∃ t, exec .parkLink s = .next (finishLink s t) ∧ byteAt t.mem (cellBase o.tag.cell) = 3 ∧ OtherLinks o.link s t ∧
        (t.linkRec o.link).state = .parked ∧ (t.linkRec o.link).seqKind = .noSequence ∧ (t.linkRec o.link).phase = .noPhase ∧
        (t.linkRec o.link).hold = none ∧ (t.linkRec o.link).outRec.present = none ∧ (t.linkRec o.link).inRec.present = none ∧
        (t.linkRec o.link).outRec.health = none ∧ (t.linkRec o.link).inRec.health = none ∧
        (t.linkRec o.link).block = .clear ∧ (t.linkRec o.link).orderCell = some o.tag.cell ∧
        .purge o.link ∈ t.ctl.queue ∧ (∀ r ∈ t.ctl.queue, r.purgedWith o.link = false) ∧
        (∀ x ∈ t.ul.controlQ, x.link = o.link → x.kind = .mute) ∧
        (d.outRole.isSome = true → ∃ x ∈ t.ul.controlQ, x.link = o.link ∧ x.unit = d.unit ∧ x.chan = d.chan ∧
          x.roleOut = true ∧ x.roleIn = d.inRole.isSome ∧ x.seq = (t.link o.link).aux.parkSeq) ∧
        (d.outRole = none → ∀ x ∈ t.ul.controlQ, x.link ≠ o.link) ∧
        (t.link o.link).aux.order = some o ∧
        (t.link o.link).aux.parkMute = (if d.outRole.isSome then .waiting else .notNeeded) ∧
        (.purge o.link ∈ s.ctl.queue → t.ctl.queue = s.ctl.queue.filter fun r => !r.purgedWith o.link) ∧
        (.purge o.link ∉ s.ctl.queue →
          t.ctl.queue = (s.ctl.queue.filter fun r => !r.purgedWith o.link) ++ [.purge o.link]) ∧
        (t.link o.link).aux.purges = l.aux.purges + (if .purge o.link ∈ s.ctl.queue then 0 else 1) ∧
        (l.aux.planOut = true → (o.link, l.aux.seq) ∈ t.mail.cancels) ∧
        (∀ p, l.aux.order = some p → p.tag.cell ≠ o.tag.cell →
          CellShows t.mem p.tag.cell 4 ResultCode.cancelled.toNat o.link) ∧
        t.ctl.table = s.ctl.table ∧ t.ctl.reserve = s.ctl.reserve ∧ t.kc = s.kc ∧ t.tally = s.tally ∧ t.router = s.router ∧
        t.tb = s.tb ∧ t.adopt = s.adopt)

/-- The answers of the plan engine and the controller to a link's present sequence. OK to an ENABLE's planning request or INSERT,
and to those of a retune and a failover's TAKE with the programme permit kept or no programme shown: TUNE_SENT, with the TUNE queued; with
the programme permit withdrawn: HOLDING again, the new entries removed by UPDATE. A refused planning request or INSERT: back to the state it began from, the order completing with the code.
NO_RESERVE or TABLE_FULL to a TAKE: ACTIVE with the failover block and the retry timer; WRONG_STATE: ACTIVE, the retry timer as it stood, and so
the block (R74 says 'with no block'; that one already set stays is the model's choice: notes/assumptions/38). LEARN: each role's health, code and the UNTRACKED mark, and ACTIVE; while the kill is ASSERTED, KILLED with its entries
made SILENT and its MUTE asked for, or ACTIVE and UNSILENCEABLE without an OUTBOUND role. The LIVE UPDATE, of an order, a failover or a restoration: ACTIVE with no sequence, block
or re-tune-needed mark, the new codes present, and the order, if there is one, completing OK. At an entry into ACTIVE failover is evaluated (LinkTimers). What a
take without a carrier, a LEARN and the LIVE UPDATE change on the link is reported in LINK entries: one for state, hold, flags and block,
and one for each role's health (R60; what shares an entry, and their order, are the model's reading: notes/assumptions/20). Any other UPDATE: the link's next held request is sent. A PURGE: the PARK order whose MUTE has ended completes, and the end of
an order on an ACTIVE link evaluates failover (R64, R65, R68, R69, R72, R74, R75, R76, R149). The requests
held, the present codes taken at the LIVE answer, the codes of a LEARN, the learning count 0 after it, and that a retune going back to
HOLDING ends its sequence are the model's choices: notes/assumptions/19, 22, 23, 38 and 40. -/
def Obligations.LinkAnswers : Prop :=
  ∀ (s : State) (i : Nat) (d : LinkDef), Memory.wf s.mem → i < 96 → i < s.sup.links.length → s.linkDef i = some d →
    let l := s.link i
    let tuned (c : Instr) (st : LinkState) : Prop :=
      ∃ t, exec c s = .next (finishLink s t) ∧ OtherLinks i s t ∧ (t.linkRec i).state = st ∧
        (t.linkRec i).phase = .tuneSent ∧ ∃ x ∈ t.ul.controlQ, x.link = i ∧ x.kind = .tune ∧ x.seq = l.aux.seq ∧
          x.unit = d.unit ∧ x.chan = d.chan ∧ x.roleOut = l.vis.seqOut ∧ x.roleIn = l.vis.seqIn
    let calm : Prop := l.aux.staleExpired = false ∧ l.vis.misses < s.sup.settings.missLimit
    let back (c : Instr) (code : ResultCode) (o : LinkOrder) (attempts : Nat) : Prop :=
      ∃ t, exec c s = .next (finishLink s (if l.aux.began = .active then evaluateFailover i t else t)) ∧ OtherLinks i s t ∧
        (t.linkRec i).state = l.aux.began ∧ (t.linkRec i).seqKind = .noSequence ∧ (t.linkRec i).orderCell = none ∧
        OrderEnds o.tag 4 code i s t ∧ resultByte t.mem o.tag.cell 1 = attempts % 256
    let heldAgain (c : Instr) (reason : HoldReason) (roles : List RoleAnswer) : Prop :=
      ∃ t, exec c s = .next (finishLink s t) ∧ OtherLinks i s t ∧ (t.linkRec i).state = .holding ∧
        (t.linkRec i).hold = some reason ∧ (t.linkRec i).holdStart = some s.now ∧ (t.linkRec i).seqKind = .noSequence ∧
        (t.linkRec i).orderCell = l.vis.orderCell ∧ t.ul = s.ul ∧ t.mem = s.mem ∧
        ∀ x, roles = [x] → (∀ r, l.vis.inSequence r = true ↔ r = x.role) → l.aux.held = [] → l.aux.killWait = [] →
          t.ctl = { s.ctl with queue := s.ctl.queue ++
            [.update i l.aux.seq false [{ role := x.role, code := x.code, change := .remove }]] }
    let withdrawn (kind : SeqKind) : Prop :=
      l.vis.seqKind = kind ∧ l.aux.permitKept = false ∧ s.onProgramme d.camera = true
    let permitted : Prop := l.aux.permitKept = true ∨ s.onProgramme d.camera = false
    let live (t : State) : Prop := OtherLinks i s t ∧ (t.linkRec i).state = .active ∧ (t.linkRec i).seqKind = .noSequence ∧
      (t.linkRec i).phase = .noPhase ∧ (t.linkRec i).block = .clear ∧ (t.linkRec i).retuneNeeded = false ∧
      (calm → ∀ r, l.vis.inSequence r = true → ((t.linkRec i).role r).health = some .good) ∧
      ∀ r, ((t.linkRec i).role r).present =
        if l.vis.inSequence r = true ∧ (l.vis.role r).fresh.isSome = true then (l.vis.role r).fresh else (l.vis.role r).present
    (∀ a rest, s.mail.planAnswers = a :: rest → a.link = i → a.seq = l.aux.seq → l.aux.planOut = true →
      (a.result = .ok → l.vis.seqKind = .enable → l.vis.state = .planning → tuned .planningAnswer .tuning) ∧
      (a.result = .ok → l.vis.seqKind = .retune → l.vis.state = .retuning → permitted → tuned .planningAnswer .retuning) ∧
      (a.result = .ok → withdrawn .retune → l.aux.outstanding = false → heldAgain .planningAnswer .order a.roles) ∧
      (∀ o, a.result ≠ .ok → a.result ≠ .cancelled → l.aux.order = some o → o.kind ≠ .park →
        back .planningAnswer a.result o a.attempts) ∧
      (a.result = .cancelled → exec .planningAnswer s = .next (finishLink s
        { s with
          mail.planAnswers := rest
          sup.links := s.sup.links.set i { l with aux := { l.aux with planOut := false, attempts := a.attempts } } }))) ∧
    (∀ a rest, s.mail.insertAnswers = a :: rest → a.link = i → a.seq = l.aux.seq → l.vis.phase = .inserting →
      (a.result = .ok → l.vis.seqKind = .enable → l.vis.state = .tuning → tuned .insertionAnswer .tuning) ∧
      (a.result = .ok → l.vis.seqKind = .retune → l.vis.state = .retuning → permitted → tuned .insertionAnswer .retuning) ∧
      (a.result = .ok → withdrawn .retune → heldAgain .insertionAnswer .order a.roles) ∧
      (∀ o, a.result ≠ .ok → a.result ≠ .cancelled → l.aux.order = some o → o.kind ≠ .park →
        back .insertionAnswer a.result o l.aux.attempts)) ∧
    (∀ a rest, s.mail.takeAnswers = a :: rest → a.link = i → a.seq = l.aux.seq → l.vis.phase = .inserting →
      l.vis.seqKind = .failover → l.vis.state = .retuning → l.aux.began = .active → l.aux.order = none →
      (a.result = .ok → permitted → tuned .failoverTakeAnswer .retuning) ∧
      (a.result = .ok → withdrawn .failover → calm → heldAgain .failoverTakeAnswer .failover a.roles) ∧
      (a.result = .noReserve ∨ a.result = .tableFull →
        ∃ t, exec .failoverTakeAnswer s = .next (finishLink s t) ∧ OtherLinks i s t ∧ (t.linkRec i).state = .active ∧
          (t.linkRec i).block = (if a.result = .noReserve then .noReserve else .tableFull) ∧
          (t.linkRec i).seqKind = .noSequence ∧ t.mem = s.mem ∧
          (calm → t.mail.reports = s.mail.reports ++ linkEntries i l.vis (t.linkRec i) s) ∧
          (t.link i).aux.retryAt = some (s.tb.elapsed + s.sup.settings.periodMs * 768)) ∧
      (a.result = .wrongState →
        ∃ u t, failoverTakePath s = [u] ∧ OtherLinks i s u ∧ (u.linkRec i).state = .active ∧ (u.linkRec i).seqKind = .noSequence ∧
          exec .failoverTakeAnswer s = .next (finishLinkPath [u] s (evaluateFailover i t)) ∧ OtherLinks i s t ∧
          (t.linkRec i).state = .active ∧ (t.linkRec i).seqKind = .noSequence ∧ (t.linkRec i).block = l.vis.block ∧
          (t.link i).aux.retryAt = l.aux.retryAt ∧ t.mem = s.mem)) ∧
    (∀ a rest, s.mail.learnAnswers = a :: rest → a.link = i → a.seq = l.aux.seq → a.result = .ok → l.vis.state = .learning →
      let learned (t : State) : Prop := OtherLinks i s t ∧ t.mem = s.mem ∧ (t.linkRec i).learning = 0 ∧
        (calm → t.mail.reports = s.mail.reports ++ linkEntries i l.vis (t.linkRec i) s) ∧
        (t.linkRec i).untracked = (l.vis.untracked || a.roles.any fun x => x.result = .tableFull) ∧
        ∀ r, (d.role r).isSome = true → ((t.linkRec i).role r).badRun = 0 ∧ ((t.linkRec i).role r).goodRun = 0 ∧
          match a.roles.find? fun x => x.role = r with
          | none => ((t.linkRec i).role r).health = some .lost ∧ ((t.linkRec i).role r).present = (l.vis.role r).present
          | some x => (calm → ((t.linkRec i).role r).health = some .good) ∧
            ((t.linkRec i).role r).present = if x.result = .ok then some x.code else (l.vis.role r).present
      (s.kc.asserted = false →
        ∃ t, exec .learnAnswer s = .next (finishLink s (evaluateFailover i t)) ∧ learned t ∧ (t.linkRec i).state = .active) ∧
      (s.kc.asserted = true → d.outRole = none →
        ∃ t, exec .learnAnswer s = .next (finishLink s t) ∧ learned t ∧ (t.linkRec i).state = .active ∧
          (t.linkRec i).unsilenceable = true) ∧
      (s.kc.asserted = true → d.outRole.isSome = true → l.aux.held = [] → l.aux.killWait = [] →
        let named := a.roles.filter fun x => x.result = .ok
        ∃ t, exec .learnAnswer s = .next (finishLink s t) ∧ learned t ∧ (t.linkRec i).state = .killed ∧
          t.ctl = { s.ctl with queue := s.ctl.queue ++ if named = [] then [] else [.update i l.aux.seq false
            (named.map fun x => { role := x.role, code := x.code, change := .become .silent })] } ∧
          t.mail.muteLists = s.mail.muteLists ++
            [[{ link := i, unit := d.unit, chan := d.chan, roleOut := d.outRole.isSome, roleIn := d.inRole.isSome }]])) ∧
    (∀ a rest, s.mail.liveAnswers = a :: rest → a.link = i → a.seq = l.aux.seq → l.vis.phase = .unmuting →
      (∀ o, l.aux.order = some o → o.kind ≠ .park →
        ∃ t, exec .liveUpdateAnswer s = .next (finishLink s (evaluateFailover i t)) ∧ live t ∧ (t.linkRec i).orderCell = none ∧
          OrderEnds o.tag 4 .ok i s t ∧
          (calm → t.mail.reports = s.mail.reports ++ linkEntries i l.vis (t.linkRec i) s ++
            [(.supervisor, orderReport o.tag .ok 4 s)])) ∧
      (l.aux.order = none →
        ∃ t, exec .liveUpdateAnswer s = .next (finishLink s (evaluateFailover i t)) ∧ live t ∧
          (t.linkRec i).orderCell = l.vis.orderCell ∧ t.mem = s.mem ∧ t.disp = s.disp ∧
          (calm → t.mail.reports = s.mail.reports ++ linkEntries i l.vis (t.linkRec i) s))) ∧
    (∀ a rest, s.mail.updateAnswers = a :: rest → a.link = i →
      ∃ t, exec .updateAnswer s = .next (finishLink s t) ∧ OtherLinks i s t ∧ t.linkRec i = l.vis ∧
        (l.aux.held = [] → (t.link i).aux.outstanding = false ∧ t.ctl = s.ctl) ∧
        (∀ r q, l.aux.held = r :: q →
          (t.link i).aux.outstanding = true ∧ (t.link i).aux.held = q ∧ t.ctl = { s.ctl with queue := s.ctl.queue ++ [r] }) ∧
        t = { s with sup := t.sup, ctl := t.ctl, mail.updateAnswers := rest }) ∧
    (∀ n rest o, s.mail.purgeAnswers = (i, n) :: rest → l.aux.order = some o → o.kind = .park → l.aux.purges = 1 →
      l.aux.parkMute ≠ .waiting →
      ∃ t, exec .purgeAnswer s = .next (finishLink s (if l.vis.state = .active then evaluateFailover i t else t)) ∧
        OtherLinks i s t ∧
        OrderEnds o.tag 4 (if l.aux.parkMute = .failed then .timeout else .ok) i s t ∧
        resultByte t.mem o.tag.cell 1 = n % 256 ∧ (t.linkRec i).state = l.vis.state ∧ (t.linkRec i).orderCell = none ∧
        t.ctl = s.ctl ∧ t.mail.purgeAnswers = rest)

/-- The outcomes of a link's CONTROL transactions for its present sequence. TUNE acknowledged in TUNE_SENT: GUARD for the
largest guard interval; one of 0 ends at once, in SETTLING. TUNE failed in TUNE_SENT: back to where an enable or a retune began, its new
entries removed, TIMEOUT; for a failover, ACTIVE with the block TIMEOUT and the retry timer; for a restoration, FAULTED with the entries
kept. TUNE withheld by the
programme part: HOLDING again, for the order or for the failover, its new entries removed, a FAILOVER hold re-evaluated if the entry into
HOLDING changed a health; by the kill part: nothing changes. UNMUTE acknowledged: one UPDATE
makes each new entry LIVE. UNMUTE failed: FAULTED, with or without an order. UNMUTE withheld: nothing changes. Settle poll: the next one 10 ms later. TUNE
acknowledged, failed or withheld in SETTLING, where it is the repeated one: the settle-poll timer starts, unless it runs or a settle poll has not yet
ended. MUTE of the PARK in service, whose PURGE is answered: the order completes OK, or TIMEOUT, whatever has become of the link
since, and the end of an order on an ACTIVE link evaluates failover (R65 to R68, R72, R73, R75). When the settle-poll timer starts after the repeated TUNE, the poll still to end among it, that
the PARK's MUTE is known by the number it went out under, and that a retune going back to HOLDING has no sequence there, are the model's
choices: notes/assumptions/24, 19 and 40. -/
def Obligations.ControlOutcomes : Prop :=
  (∀ (s : State) (x : ControlOutcome) (rest : List ControlOutcome) (d : LinkDef), Memory.wf s.mem →
    s.mail.controlOutcomes = x :: rest → x.link < 96 → x.link < s.sup.links.length → s.linkDef x.link = some d →
    x.seq = (s.link x.link).aux.seq →
    let i := x.link
    let l := s.link i
    let g := largestOf s i ClassDef.guardMs
    let removed (t : State) : Prop := t.ctl = { s.ctl with queue := s.ctl.queue ++ if l.vis.newCodes = [] then [] else
      [.update i x.seq false (l.vis.newCodes.map fun c => { role := c.1, code := c.2, change := .remove })] }
    (x.kind = .tune → x.result = .acked → l.vis.phase = .tuneSent → 0 < g →
      ∃ t, exec .tuneAck s = .next (finishLink s t) ∧ OtherLinks i s t ∧ (t.linkRec i).phase = .guarding ∧
        (t.linkRec i).state = l.vis.state ∧ (t.link i).aux.guardAt = some (s.tb.elapsed + g * 768) ∧
        OnlyLinks { s with mail.controlOutcomes := rest } t) ∧
    (x.kind = .tune → x.result = .acked → l.vis.phase = .tuneSent → g = 0 → l.aux.outstanding = false → l.aux.killWait = [] →
      let old := (entriesOf s i).filter fun e => l.vis.inSequence e.role && (l.vis.role e.role).fresh ≠ some e.code
      ∃ t, exec .tuneAck s = .next (finishLink s t) ∧ OtherLinks i s t ∧ (t.linkRec i).phase = .settling ∧
        (t.linkRec i).repeats = 0 ∧ (t.linkRec i).state = l.vis.state ∧ (t.link i).aux.guardAt = none ∧
        (t.link i).aux.settleAt = some (s.tb.elapsed + largestOf s i ClassDef.settleMs * 768) ∧
        (∃ q ∈ t.ul.controlQ, q.link = i ∧ q.kind = .settlePoll ∧ q.seq = x.seq) ∧
        t.ctl = { s.ctl with queue := s.ctl.queue ++ if old = [] then [] else
          [.update i x.seq false (old.map fun e => { role := e.role, code := e.code, change := .remove })] }) ∧
    (x.kind = .tune → x.result = .failed → l.vis.phase = .tuneSent → l.aux.outstanding = false → l.aux.killWait = [] →
      (∀ o, l.vis.seqKind = .enable ∨ l.vis.seqKind = .retune → l.aux.order = some o → o.kind ≠ .park →
        ∃ t, exec .tuneFailed s = .next (finishLink s (if l.aux.began = .active then evaluateFailover i t else t)) ∧
          OtherLinks i s t ∧ (t.linkRec i).state = l.aux.began ∧ (t.linkRec i).seqKind = .noSequence ∧
          (t.linkRec i).orderCell = none ∧ OrderEnds o.tag 4 .timeout i s t ∧ removed t) ∧
      (l.vis.seqKind = .failover → l.aux.began = .active → l.aux.order = none →
        ∃ t, exec .tuneFailed s = .next (finishLink s t) ∧ OtherLinks i s t ∧ (t.linkRec i).state = .active ∧
          (t.linkRec i).seqKind = .noSequence ∧ (t.linkRec i).block = .timeout ∧
          (t.link i).aux.retryAt = some (s.tb.elapsed + s.sup.settings.periodMs * 768) ∧ t.mem = s.mem ∧ removed t) ∧
      (l.vis.seqKind = .restore → l.aux.order = none →
        ∃ t, exec .tuneFailed s = .next (finishLink s t) ∧ OtherLinks i s t ∧ (t.linkRec i).state = .faulted ∧
          (t.linkRec i).seqKind = .noSequence ∧ t.mem = s.mem ∧ t.ctl = s.ctl)) ∧
    (x.kind = .tune → x.result = .withheld .programmePart → l.vis.phase = .tuneSent →
      let held (t : State) (reason : HoldReason) : Prop := OtherLinks i s t ∧ (t.linkRec i).state = .holding ∧
        (t.linkRec i).hold = some reason ∧ (t.linkRec i).holdStart = some s.now ∧ (t.linkRec i).seqKind = .noSequence ∧
        (l.aux.outstanding = false → l.aux.killWait = [] → removed t) ∧
        OnlyLinks { s with ctl.queue := t.ctl.queue, mail.controlOutcomes := rest } t
      (l.vis.seqKind = .retune → ∃ t, exec .tuneWithheld s = .next (finishLink s t) ∧ held t .order) ∧
      (l.vis.seqKind = .failover → ∃ t, held t .failover ∧ exec .tuneWithheld s = .next (finishLink s
        (if (t.linkRec i).outRec.health = l.vis.outRec.health ∧ (t.linkRec i).inRec.health = l.vis.inRec.health then t
         else recheckHold i t)))) ∧
    (x.kind = .tune → x.result = .withheld .killPart → l.vis.phase = .tuneSent →
      exec .tuneWithheld s = .next (finishLink s { s with mail.controlOutcomes := rest })) ∧
    (x.kind = .unmute → x.result = .acked → l.vis.phase = .unmuting → l.aux.outstanding = false → l.aux.killWait = [] →
      ∃ t, exec .unmuteAck s = .next (finishLink s t) ∧ OtherLinks i s t ∧ t.linkRec i = l.vis ∧
        t.ctl = { s.ctl with queue := s.ctl.queue ++ [.update i x.seq true
          (l.vis.newCodes.map fun c => { role := c.1, code := c.2, change := .become .live })] } ∧
        t = { s with ctl := t.ctl, sup := t.sup, mail.controlOutcomes := rest }) ∧
    (∀ o, x.kind = .unmute → x.result = .failed → l.vis.phase = .unmuting → l.aux.order = some o → o.kind ≠ .park →
      ∃ t, exec .unmuteFailed s = .next (finishLink s t) ∧ OtherLinks i s t ∧ (t.linkRec i).state = .faulted ∧
        (t.linkRec i).seqKind = .noSequence ∧ (t.linkRec i).orderCell = none ∧ OrderEnds o.tag 4 .faulted i s t ∧
        t.ctl = s.ctl) ∧
    (x.kind = .unmute → x.result = .failed → l.vis.phase = .unmuting → l.aux.order = none →
      ∃ t, exec .unmuteFailed s = .next (finishLink s t) ∧ OtherLinks i s t ∧ (t.linkRec i).state = .faulted ∧
        (t.linkRec i).seqKind = .noSequence ∧ t.mem = s.mem ∧ t.ctl = s.ctl) ∧
    (∀ p, x.kind = .unmute → x.result = .withheld p →
      exec .unmuteWithheld s = .next (finishLink s { s with mail.controlOutcomes := rest })) ∧
    (x.kind = .settlePoll → l.vis.phase = .settling →
      ∃ t, exec .settlePollOutcome s = .next (finishLink s t) ∧ OtherLinks i s t ∧
        t.link i = { l with aux := { l.aux with pollAt := some (s.tb.elapsed + 7680) } } ∧
        t = { s with sup := t.sup, mail.controlOutcomes := rest }) ∧
    (∀ c p, x.kind = .tune → l.vis.phase = .settling →
      (c, x.result) ∈ [(Instr.tuneAck, ControlResult.acked), (.tuneFailed, .failed), (.tuneWithheld, .withheld p)] →
      ∃ t, exec c s = .next (finishLink s t) ∧ OtherLinks i s t ∧
        t.link i = { l with aux := { l.aux with
          pollAt := if l.aux.pollAt.isSome || pollOutstanding { s with mail.controlOutcomes := rest } i then l.aux.pollAt
            else some (s.tb.elapsed + 7680) } } ∧
        t = { s with sup := t.sup, mail.controlOutcomes := rest })) ∧
  (∀ (s : State) (x : ControlOutcome) (rest : List ControlOutcome) (o : LinkOrder), Memory.wf s.mem →
    s.mail.controlOutcomes = x :: rest → x.link < 96 → x.link < s.sup.links.length → x.kind = .mute →
    let i := x.link
    let l := s.link i
    x.seq = l.aux.parkSeq → l.aux.parkMute = .waiting → l.aux.purges = 0 → l.aux.order = some o → o.kind = .park →
    ∃ t, exec .parkMuteOutcome s = .next (finishLink s (if l.vis.state = .active then evaluateFailover i t else t)) ∧
      OtherLinks i s t ∧
      OrderEnds o.tag 4 (if x.result = .acked then .ok else .timeout) i s t ∧
      resultByte t.mem o.tag.cell 2 = (if x.result = .acked then 1 else 2) ∧ (t.linkRec i).orderCell = none ∧
      (t.linkRec i).state = l.vis.state ∧ t.ctl = s.ctl)

/-- The timers of a link, when they are due in RUNNING. Settle poll: a settle poll is queued. Guard: SETTLING, with the first
settle poll queued, and one UPDATE that removes every old entry of the sequence's roles (none when there is none). Settle limit: the
TUNE once more, and at the second expiry FAULTED. Hold limit of a held order: HOLD_EXPIRED is reported and the retune proceeds with
its permit kept; of a FAILOVER hold with a role failing: HOLD_EXPIRED, and the failover's TAKE for the failing roles, its permit
kept. An evaluation of failover acts on an ACTIVE link with no order, the kill CLEAR, a role failing and no retry timer running:
off programme the failover proceeds with the failing roles' TAKE, on programme the link is HOLDING for the FAILOVER and nothing is
sent; a FAILOVER hold with no role failing is over, in ACTIVE. Failover delay: an evaluation, of the hold in HOLDING. Failover retry: an
evaluation, or with nothing failing the block cleared; outside ACTIVE, or with an order, only its end, and nothing while ASSERTED. (The
model's choices, notes/assumptions/39: that end; that a running retry timer keeps an evaluation from a hold too, where R74 bars a take
alone; that no evaluation but the retry's clears a block.) Stale, in ACTIVE and HOLDING: every GOOD or DEGRADED role is STALE, all LOST at the miss
limit, and a change of health brings an evaluation; elsewhere only the timer is expired (R66, R67, R71, R73, R74, R90, R94). -/
def Obligations.LinkTimers : Prop :=
  (∀ (s : State) (i : Nat) (d : LinkDef), i < s.sup.links.length → s.linkDef i = some d →
    let l := s.link i
    let wanted : Prop := l.vis.state = .active ∧ l.aux.order = none ∧ s.kc.asserted = false ∧ failoverWanted s i = true ∧
      l.aux.retryAt = none
    let ended : Prop := l.vis.state = .holding ∧ l.vis.hold = some .failover ∧ failoverWanted s i = false
    (¬wanted → evaluateFailover i s = s) ∧
    (wanted → s.onProgramme d.camera = true →
      let t := evaluateFailover i s
      OtherLinks i s t ∧ (t.linkRec i).state = .holding ∧ (t.linkRec i).hold = some .failover ∧
        (t.linkRec i).holdStart = some s.now ∧ (t.linkRec i).seqKind = .noSequence ∧ OnlyLinks s t) ∧
    (wanted → s.onProgramme d.camera = false → l.aux.outstanding = false → l.aux.killWait = [] →
      let t := evaluateFailover i s
      OtherLinks i s t ∧ (t.linkRec i).state = .retuning ∧ (t.linkRec i).seqKind = .failover ∧
        (t.linkRec i).phase = .inserting ∧ (t.link i).aux.permitKept = false ∧
        (∀ r, (t.linkRec i).inSequence r = true ↔ r ∈ failingRoles s i) ∧
        t.ctl = { s.ctl with queue := s.ctl.queue ++
          [.take i (l.aux.seq + 1) ((failingRoles s i).filterMap fun r => s.rolePlan i r)] } ∧
        OnlyLinks { s with ctl := t.ctl } t) ∧
    (¬ended → recheckHold i s = s) ∧
    (ended → ∃ t, recheckHold i s = evaluateFailover i t ∧ OtherLinks i s t ∧ (t.linkRec i).state = .active ∧
      (t.linkRec i).hold = none ∧ OnlyLinks s t) ∧
    (failoverWanted s i = true ↔ ∃ r, r ∈ failingRoles s i) ∧
    (∀ r, r ∈ failingRoles s i ↔ d.auto = true ∧ d.outRole.isSome = true ∧ (d.role r).isSome = true ∧
      ((l.vis.role r).health = some .lost ∨ ((l.vis.role r).health = some .degraded ∧
        ∃ n, l.degradedAt r = some n ∧ n + d.delayS * 768000 ≤ s.tb.elapsed)))) ∧
  ∀ (s : State) (i : Nat) (d : LinkDef), i < 96 → i < s.sup.links.length → s.linkDef i = some d → s.part = .running →
    let l := s.link i
    let due (t : Option Nat) : Prop := ∃ n, t = some n ∧ n ≤ s.tb.elapsed
    let queued (t : State) (k : ControlKind) : Prop := ∃ x ∈ t.ul.controlQ, x.link = i ∧ x.kind = k ∧ x.seq = (t.link i).aux.seq
    (due l.aux.pollAt → l.vis.phase = .settling → controlWaiting s i = false →
      ∃ t, exec (.settlePollTimerExpiry i) s = .next (finishLink s t) ∧ OtherLinks i s t ∧ queued t .settlePoll ∧
        t.link i = { l with aux := { l.aux with pollAt := none } } ∧
        t = { s with sup := t.sup, ul := { s.ul with controlQ := t.ul.controlQ } }) ∧
    (due l.aux.guardAt → l.vis.phase = .guarding →
      ∃ t, exec (.guardExpiry i) s = .next (finishLink s t) ∧ OtherLinks i s t ∧ (t.linkRec i).phase = .settling ∧
        (t.linkRec i).repeats = 0 ∧ (t.linkRec i).state = l.vis.state ∧ queued t .settlePoll ∧
        (l.aux.outstanding = false → l.aux.killWait = [] →
          let old := (entriesOf s i).filter fun e => l.vis.inSequence e.role && (l.vis.role e.role).fresh ≠ some e.code
          t.ctl = { s.ctl with queue := s.ctl.queue ++ if old = [] then [] else
            [.update i l.aux.seq false (old.map fun e => { role := e.role, code := e.code, change := .remove })] }) ∧
        (t.link i).aux.settleAt = some (s.tb.elapsed + largestOf s i ClassDef.settleMs * 768)) ∧
    (due l.aux.settleAt → l.vis.phase = .settling → l.vis.repeats = 0 →
      ∃ t, exec (.settleLimitExpiry i) s = .next (finishLink s t) ∧ OtherLinks i s t ∧ (t.linkRec i).phase = .settling ∧
        (t.linkRec i).repeats = 1 ∧ queued t .tune ∧
        (t.link i).aux.settleAt = l.aux.settleAt.map (· + l.aux.settleLen)) ∧
    (due l.aux.settleAt → l.vis.phase = .settling → l.vis.repeats ≠ 0 →
      ∃ t, exec (.settleLimitExpiry i) s = .next (finishLink s t) ∧ OtherLinks i s t ∧ (t.linkRec i).state = .faulted ∧
        (t.linkRec i).seqKind = .noSequence ∧ t.ctl = s.ctl) ∧
    (∀ o n, l.vis.state = .holding → l.vis.hold = some .order → l.aux.order = some o → l.aux.holdTimer = true →
      l.aux.holdAt = some n → n + d.holdS * 768000 ≤ s.tb.elapsed →
      ∃ t r, exec (.holdLimitExpiry i) s = .next (finishLink s t) ∧ OtherLinks i s t ∧ (t.linkRec i).state = .retuning ∧
        (t.linkRec i).seqKind = .retune ∧ (t.linkRec i).hold = none ∧ (t.link i).aux.permitKept = true ∧
        (.supervisor, r) ∈ t.mail.reports ∧ r.kind = .holdExpired ∧ r.subject = i) ∧
    (∀ n, l.vis.state = .holding → l.vis.hold = some .failover → l.aux.holdTimer = true → l.aux.holdAt = some n →
      n + d.holdS * 768000 ≤ s.tb.elapsed → failoverWanted s i = true → l.aux.outstanding = false → l.aux.killWait = [] →
      ∃ t r, exec (.holdLimitExpiry i) s = .next (finishLink s t) ∧ OtherLinks i s t ∧ (t.linkRec i).state = .retuning ∧
        (t.linkRec i).seqKind = .failover ∧ (t.linkRec i).phase = .inserting ∧ (t.linkRec i).hold = none ∧
        (t.link i).aux.permitKept = true ∧ (.supervisor, r) ∈ t.mail.reports ∧ r.kind = .holdExpired ∧ r.subject = i ∧
        t.ctl = { s.ctl with queue := s.ctl.queue ++
          [.take i (l.aux.seq + 1) ((failingRoles s i).filterMap fun r => s.rolePlan i r)] }) ∧
    (∀ r n, l.degradedAt r = some n → n + d.delayS * 768000 ≤ s.tb.elapsed →
      exec (.failoverDelayExpiry i r) s = .next (finishLink s
        (if l.vis.state = .holding then recheckHold i s else evaluateFailover i s))) ∧
    (due l.aux.retryAt →
      let stopped : State := { s with sup.links := s.sup.links.set i { l with aux := { l.aux with retryAt := none } } }
      (s.kc.asserted = true → exec (.failoverRetryExpiry i) s = .next (finishLink s s)) ∧
      (s.kc.asserted = false → l.vis.state ≠ .active ∨ l.aux.order.isSome = true →
        exec (.failoverRetryExpiry i) s = .next (finishLink s stopped)) ∧
      (s.kc.asserted = false → l.vis.state = .active → l.aux.order = none → failoverWanted s i = true →
        exec (.failoverRetryExpiry i) s = .next (finishLink s (evaluateFailover i stopped))) ∧
      (s.kc.asserted = false → l.vis.state = .active → l.aux.order = none → failoverWanted s i = false →
        ∃ t, exec (.failoverRetryExpiry i) s = .next (finishLink s t) ∧ OtherLinks i s t ∧
          t.link i = { vis := { l.vis with block := .clear }, aux := { l.aux with retryAt := none } } ∧ OnlyLinks s t)) ∧
    (∀ n, l.aux.staleFrom = some n → n + s.sup.settings.staleFactor * s.sup.settings.periodMs * 768 ≤ s.tb.elapsed →
      l.aux.staleExpired = false →
      let rated : Prop := l.vis.state = .active ∨ l.vis.state = .holding
      let after (r : Role) : Option Health :=
        let h := (l.vis.role r).health
        if d.role r = none then h
        else if s.sup.settings.missLimit ≤ l.vis.misses then some .lost
        else if h = some .good ∨ h = some .degraded then some .stale
        else h
      (¬rated → exec (.staleTimerExpiry i) s = .next (finishLink s
        { s with sup.links := s.sup.links.set i { l with aux := { l.aux with staleExpired := true } } })) ∧
      (rated →
        ∃ t, exec (.staleTimerExpiry i) s = .next (finishLink s
            (if after .outbound = l.vis.outRec.health ∧ after .inbound = l.vis.inRec.health then t
             else if l.vis.state = .holding then recheckHold i t else evaluateFailover i t)) ∧
          OtherLinks i s t ∧ (t.linkRec i).state = l.vis.state ∧ (t.linkRec i).hold = l.vis.hold ∧
          (t.link i).aux.staleExpired = true ∧ (∀ r, ((t.linkRec i).role r).health = after r) ∧ OnlyLinks s t))

/-- A REPORT, for each link on its unit, every other link staying as it was: a visit (misses 0, the visit's time) that does
nothing more outside the states that use it; in ACTIVE and HOLDING each declared role is rated by TABLE 5-5, and a change of health
brings an evaluation (LinkTimers) and is reported, each role's in a LINK entry of its own (R60, R93; their order: notes/assumptions/20); every role settled in SETTLING, of a restoration too: UNMUTING, with the UNMUTE queued, and otherwise
the phase goes on; a second one in LEARNING with no role on: PARKED, and with some role on: one
LEARN of those roles with their reported codes and defined classes. A miss: the count up to 255, and at the
limit every role of an ACTIVE or HOLDING link LOST, with an evaluation at a change. A tally change: the only link of that camera, held for its order, goes on with the retune
once the camera shows no programme; held for FAILOVER, with the TAKE of the roles then failing, or back to ACTIVE when none is. TABLE 5-5, by the grade of R92: a lost report makes the role LOST; a bad one makes GOOD
DEGRADED at the persistence and STALE DEGRADED; a good one makes LOST and STALE GOOD, and DEGRADED at the persistence (R67, R71,
R76, R89, R91 to R94; that a role with no health is rated as LOST, and the learning count 0 of the link that goes PARKED, are the model's choices:
notes/assumptions/21 and 38). -/
def Obligations.ReportsMissesAndTally : Prop :=
  ∀ (s : State) (i : Nat) (d : LinkDef), i < 96 → i < s.sup.links.length → s.linkDef i = some d →
    let l := s.link i
    let visited : Link := { vis := { l.vis with lastVisit := some s.now, misses := 0 }
                            aux := { l.aux with staleFrom := some s.tb.elapsed, staleExpired := false } }
    (∀ r rest, s.mail.supervisorReports = r :: rest → r.unit = d.unit →
      ∃ t, exec .reportToLinkSupervisor s = .next (finishLink s t) ∧ t.mail.supervisorReports = rest ∧
        (∀ j, (∀ e, s.linkDef j = some e → e.unit ≠ r.unit) → t.link j = s.link j) ∧
        (l.vis.state ∉ [LinkState.active, .holding, .learning] → l.vis.phase ≠ .settling → t.link i = visited) ∧
        (l.vis.state = .learning → l.vis.learning = 0 → t.link i = { visited with vis := { visited.vis with learning := 1 } }) ∧
        ((l.vis.state = .active ∧ d.auto = false) ∨ (l.vis.state = .holding ∧ l.vis.hold = some .order) →
          (t.linkRec i).state = l.vis.state ∧ (t.linkRec i).hold = l.vis.hold ∧ (t.linkRec i).misses = 0 ∧ (t.linkRec i).lastVisit = some s.now ∧
          ∀ x e, d.role x = some e → (t.linkRec i).role x =
            ((rateRole s s.sup.settings.persistence x
              (gradeOf (s.ctl.rules.cls e.cls) (l.vis.role x).present ((r.channel d.chan).role x)) visited).vis.role x)) ∧
        (t.mem = s.mem ∧ t.kc = s.kc ∧ t.tally = s.tally ∧ t.router = s.router ∧ t.tb = s.tb ∧ t.adopt = s.adopt ∧
          t.ctl.table = s.ctl.table ∧ t.ctl.reserve = s.ctl.reserve)) ∧
    (∀ r rest, s.mail.supervisorReports = r :: rest → r.unit = d.unit →
      (∀ j e, j ≠ i → s.linkDef j = some e → e.unit ≠ d.unit) →
      ((l.vis.state ∉ [LinkState.active, .holding, .learning] ∧ l.vis.phase ≠ .settling) ∨
          (l.vis.state = .active ∧ d.auto = false) ∨ (l.vis.state = .holding ∧ l.vis.hold = some .order) →
        ∃ t, exec .reportToLinkSupervisor s = .next (finishLink s t) ∧
          OnlyLinks { s with mail.supervisorReports := rest } t) ∧
      (l.vis.state ∈ [LinkState.tuning, .retuning, .killed] → l.vis.phase = .settling →
        let settled : Prop := ∀ x, l.vis.inSequence x = true →
          ((r.channel d.chan).role x).settled = true ∧ (l.vis.role x).fresh = some ((r.channel d.chan).role x).code
        (settled →
          ∃ t, exec .reportToLinkSupervisor s = .next (finishLink s t) ∧ OtherLinks i s t ∧ (t.linkRec i).state = l.vis.state ∧
            (t.linkRec i).phase = .unmuting ∧ (t.link i).aux.settleAt = none ∧
            ∃ x ∈ t.ul.controlQ, x.link = i ∧ x.kind = .unmute ∧ x.seq = l.aux.seq ∧
              x.roleOut = l.vis.seqOut ∧ x.roleIn = l.vis.seqIn) ∧
        (¬settled →
          ∃ t, exec .reportToLinkSupervisor s = .next (finishLink s t) ∧ OtherLinks i s t ∧ t.link i = visited ∧
            OnlyLinks { s with mail.supervisorReports := rest } t)) ∧
      (l.vis.state = .active ∨ l.vis.state = .holding →
        ∃ t, exec .reportToLinkSupervisor s = .next (finishLink s
            (if (t.linkRec i).outRec.health = l.vis.outRec.health ∧ (t.linkRec i).inRec.health = l.vis.inRec.health then t
             else if l.vis.state = .holding then recheckHold i t else evaluateFailover i t)) ∧
          OtherLinks i s t ∧ (t.linkRec i).state = l.vis.state ∧ (t.linkRec i).hold = l.vis.hold ∧ (t.linkRec i).misses = 0 ∧
          (t.linkRec i).lastVisit = some s.now ∧ (t.link i).aux.staleExpired = false ∧
          (∀ x, d.role x = none → (t.linkRec i).role x = l.vis.role x) ∧
          (∀ x e, d.role x = some e → (t.linkRec i).role x =
            ((rateRole s s.sup.settings.persistence x
              (gradeOf (s.ctl.rules.cls e.cls) (l.vis.role x).present ((r.channel d.chan).role x)) visited).vis.role x)) ∧
          t.mail.reports = s.mail.reports ++ linkEntries i l.vis (t.linkRec i) s ∧
          OnlyLinks { s with mail.supervisorReports := rest } t) ∧
      (l.vis.state = .learning → l.vis.learning = 1 → (∀ x ∈ d.declared, ((r.channel d.chan).role x).on = false) →
        ∃ t, exec .reportToLinkSupervisor s = .next (finishLink s t) ∧ OtherLinks i s t ∧ (t.linkRec i).state = .parked ∧
          (t.linkRec i).learning = 0 ∧ t.ctl = s.ctl) ∧
      (l.vis.state = .learning → l.vis.learning = 1 → (∃ x ∈ d.declared, ((r.channel d.chan).role x).on = true) →
        l.aux.outstanding = false → l.aux.killWait = [] →
        let learned (x : Role) : Option (Role × Nat × Nat) :=
          if ((r.channel d.chan).role x).on = true then (d.role x).map fun e => (x, ((r.channel d.chan).role x).code, e.cls) else none
        ∃ t, exec .reportToLinkSupervisor s = .next (finishLink s t) ∧
          t.link i = { vis := { visited.vis with learning := 2 }
                       aux := { visited.aux with seq := l.aux.seq + 1, outstanding := true } } ∧
          t.ctl.queue = s.ctl.queue ++ [.learn i (l.aux.seq + 1) d.zone (d.declared.filterMap learned)] ∧
          t = { s with
            ctl.queue := t.ctl.queue, sup.links := s.sup.links.set i (t.link i)
            mail := { s.mail with supervisorReports := rest } })) ∧
    (∀ u rest, s.mail.missedUnits = u :: rest → d.unit = u → (∀ j e, j ≠ i → s.linkDef j = some e → e.unit ≠ u) →
      let misses := min 255 (l.vis.misses + 1)
      let after (r : Role) : Option Health :=
        let h := (l.vis.role r).health
        if d.role r = none ∨ (l.vis.state ≠ .active ∧ l.vis.state ≠ .holding) then h
        else if s.sup.settings.missLimit ≤ misses then some .lost
        else if l.aux.staleExpired = true ∧ (h = some .good ∨ h = some .degraded) then some .stale
        else h
      ∃ t, exec .pollMiss s = .next (finishLink s
          (if after .outbound = l.vis.outRec.health ∧ after .inbound = l.vis.inRec.health then t
           else if l.vis.state = .holding then recheckHold i t else evaluateFailover i t)) ∧
        OtherLinks i s t ∧ (t.linkRec i).state = l.vis.state ∧ (t.linkRec i).hold = l.vis.hold ∧
        (t.linkRec i).misses = misses ∧ (∀ r, ((t.linkRec i).role r).health = after r) ∧
        OnlyLinks { s with mail.missedUnits := rest } t) ∧
    (∀ c rest o, s.mail.tallyChanges = c :: rest → d.camera = c → (∀ j e, j ≠ i → s.linkDef j = some e → e.camera ≠ c) →
      l.vis.state = .holding → l.vis.hold = some .order → l.aux.order = some o →
      (s.onProgramme c = true →
        exec .tallyChangeToSupervisor s = .next (finishLink s { s with mail.tallyChanges := rest })) ∧
      (s.onProgramme c = false →
        ∃ t, exec .tallyChangeToSupervisor s = .next (finishLink s t) ∧ OtherLinks i s t ∧ (t.linkRec i).state = .retuning ∧
          (t.linkRec i).seqKind = .retune ∧ (t.linkRec i).hold = none ∧ (t.link i).aux.permitKept = false)) ∧
    (∀ c rest, s.mail.tallyChanges = c :: rest → d.camera = c → (∀ j e, j ≠ i → s.linkDef j = some e → e.camera ≠ c) →
      l.vis.state = .holding → l.vis.hold = some .failover →
      let taken : State := { s with mail.tallyChanges := rest }
      (s.onProgramme c = true → exec .tallyChangeToSupervisor s = .next (finishLink s taken)) ∧
      (s.onProgramme c = false → failoverWanted s i = true → l.aux.outstanding = false → l.aux.killWait = [] →
        ∃ t, exec .tallyChangeToSupervisor s = .next (finishLink s t) ∧ OtherLinks i s t ∧ (t.linkRec i).state = .retuning ∧
          (t.linkRec i).seqKind = .failover ∧ (t.linkRec i).phase = .inserting ∧ (t.linkRec i).hold = none ∧
          (t.link i).aux.permitKept = false ∧ (∀ r, (t.linkRec i).inSequence r = true ↔ r ∈ failingRoles s i) ∧
          t.ctl = { s.ctl with queue := s.ctl.queue ++
            [.take i (l.aux.seq + 1) ((failingRoles s i).filterMap fun r => s.rolePlan i r)] } ∧
          OnlyLinks { taken with ctl := t.ctl } t) ∧
      (s.onProgramme c = false → failoverWanted s i = false →
        exec .tallyChangeToSupervisor s = .next (finishLink s (recheckHold i taken)))) ∧
    (∀ (p : Nat) (x : Role) (g : Grade) (l : Link),
      let a := l.vis.role x
      let b := (rateRole s p x g l).vis.role x
      let becomes (h : Health) (bad good : Nat) : Prop := b.health = some h ∧ b.badRun = bad ∧ b.goodRun = good
      b.present = a.present ∧ b.fresh = a.fresh ∧
      (g = .lost → becomes .lost 0 0) ∧
      (a.health = some .good → (g = .good → becomes .good 0 a.goodRun) ∧
        (g = .bad → (p ≤ a.badRun + 1 → becomes .degraded 0 0) ∧ (a.badRun + 1 < p → becomes .good (a.badRun + 1) 0))) ∧
      (a.health = some .degraded → (g = .bad → becomes .degraded a.badRun 0) ∧
        (g = .good → (p ≤ a.goodRun + 1 → becomes .good 0 0) ∧ (a.goodRun + 1 < p → becomes .degraded a.badRun (a.goodRun + 1)))) ∧
      (a.health = some .lost ∨ a.health = none → (g = .bad → becomes .lost 0 0) ∧ (g = .good → becomes .good 0 0)) ∧
      (a.health = some .stale → (g = .bad → becomes .degraded 0 0) ∧ (g = .good → becomes .good 0 0)) ∧
      (b.degradedSince = if b.health = some .degraded then (if a.health = some .degraded then a.degradedSince else some s.now)
        else if a.health = b.health then a.degradedSince else none)) ∧
    (∀ (k : ClassDef) (c : Option Nat) (r : RoleReport),
      (gradeOf k c r = .lost ↔ r.on = false ∨ r.level = -120) ∧
      (gradeOf k c r = .bad ↔ ¬(r.on = false ∨ r.level = -120) ∧
        (r.level < k.floor ∨ k.ceiling < r.quality ∨ ∃ n, c = some n ∧ n ≠ r.code)))

/-- LINK_KILL_ASSERTION leaves every defined link in the state of TABLE 9-1, all 96 in one step, and gives kill control the list
of links to mute (R146), with the channel and the declared roles of each. The treatment of one link: its retry timer stops, its
order but a PARK_LINK completes KILLED, and of its entries, by one UPDATE, every one becomes SILENT from SETTLING and UNMUTING, new
ones are removed and the others become SILENT from GUARD and TUNE_SENT, LIVE and LEARNED ones become SILENT from ACTIVE and HOLDING;
a PURGE from PLANNING and an enable of a PARKED link; re-tune-needed as the table has it. With the insertion still outstanding the
UPDATE is held, and the answer sends it with the removal of what was inserted. LINK_KILL_RELEASE clears UNSILENCEABLE everywhere and begins a
restoration on every KILLED link, with a TUNE when a re-tune is needed and an UNMUTE otherwise, whose roles are the declared roles
that hold a SILENT entry and whose new codes are those entries'; the carrier table itself is not changed by either (R146, R147,
R149; that UPDATEs still on their way count as made, and how a held UPDATE and later requests follow one another, are the model's
choices: notes/assumptions/19; that the links are listed and treated in ascending index: 45). -/
def Obligations.KillTreatsEveryLink : Prop :=
  (∀ (s : State) (i : Nat), toMute s i = true ↔ ∃ d, s.linkDef i = some d ∧ d.outRole.isSome = true ∧
    ((s.linkRec i).state ∈ [LinkState.tuning, .active, .holding, .retuning] ∨
      ((s.linkRec i).state = .killed ∧ (s.linkRec i).seqKind = .restore))) ∧
  (∀ (s : State) (i : Nat) (d : LinkDef), Memory.wf s.mem → i < s.sup.links.length → s.linkDef i = some d →
    let l := s.link i
    let t := treatLink s i
    let e := entriesOf s i
    let toSilent (l : List CarrierEntry) : List CarrierChange :=
      l.map fun x => { role := x.role, code := x.code, change := .become .silent }
    let fresh := l.vis.newCodes
    let gone : List CarrierChange := fresh.map fun c => { role := c.1, code := c.2, change := .remove }
    let present := e.filter fun x => !(fresh ++ newInFlight s i).contains (x.role, x.code)
    let tuned : Prop := l.vis.state = .tuning ∨ l.vis.state = .retuning
    let parks : Prop := l.vis.state = .planning ∨
      (l.vis.state = .tuning ∧ l.aux.began = .parked ∧ l.vis.phase ≠ .settling ∧ l.vis.phase ≠ .unmuting)
    let update (changes : List CarrierChange) : Prop :=
      t.ctl = { s.ctl with queue := s.ctl.queue ++ if changes = [] then [] else [.update i (l.aux.seq + 1) false changes] }
    OtherLinks i s t ∧ (t.link i).aux.retryAt = none ∧
    (l.vis.state ∈ [LinkState.vacant, .parked, .learning, .faulted] ∨ (l.vis.state = .killed ∧ l.vis.seqKind ≠ .restore) →
      t = { s with sup.links := s.sup.links.set i { l with aux := { l.aux with retryAt := none } } }) ∧
    (∀ o, l.aux.order = some o → o.kind ≠ .park → parks ∨ tuned ∨ l.vis.state = .holding → OrderEnds o.tag 4 .killed i s t) ∧
    (parks → (t.linkRec i).seqKind = .noSequence ∧ .purge i ∈ t.ctl.queue ∧ (∀ r ∈ t.ctl.queue, r.purgedWith i = false) ∧
      (l.aux.planOut = true → (i, l.aux.seq) ∈ t.mail.cancels)) ∧
    (l.aux.outstanding = false → l.aux.killWait = [] →
      (tuned → l.vis.phase = .settling ∨ l.vis.phase = .unmuting →
        update (toSilent e) ∧ (t.linkRec i).retuneNeeded = true ∧ (t.linkRec i).seqKind = .noSequence ∧
        ∀ r c, (l.vis.role r).fresh = some c → l.vis.inSequence r = true → ((t.linkRec i).role r).present = some c) ∧
      (tuned → ¬parks → l.vis.phase = .tuneSent ∨ l.vis.phase = .guarding →
        update (gone ++ toSilent present) ∧ (t.linkRec i).seqKind = .noSequence ∧
        ((t.linkRec i).retuneNeeded = true ↔ l.vis.retuneNeeded = true ∨ l.vis.phase = .guarding ∨ l.aux.tuneBegun = true ∨
          ∃ x ∈ present, x.state = .reserved)) ∧
      (l.vis.state = .holding ∨ (l.vis.state = .active ∧ d.outRole.isSome = true) → l.vis.phase ≠ .inserting →
        update (toSilent (e.filter fun x => x.state = .live || x.state = .learned)) ∧ (t.linkRec i).hold = none ∧
        (t.linkRec i).retuneNeeded = l.vis.retuneNeeded)) ∧
    (tuned → ¬parks → l.vis.phase = .inserting → awaitsEntries s i = true → l.aux.killWait = [] → l.aux.afterKill = [] →
      t.ctl = s.ctl ∧ (t.link i).aux.killWait = [l.aux.seq] ∧
      (t.link i).aux.killChanges = l.aux.killChanges ++ gone ++ toSilent present ∧
      (l.aux.planOut = true → (i, l.aux.seq) ∈ t.mail.cancels)) ∧
    (l.vis.state = .killed → l.vis.seqKind = .restore → (t.linkRec i).seqKind = .noSequence ∧
      (t.linkRec i).retuneNeeded = (l.vis.retuneNeeded || l.aux.tuneBegun || l.aux.unmuteBegun))) ∧
  (∀ (s : State) (i seq : Nat) (roles : List RoleAnswer) (inserted : Bool), i < s.sup.links.length →
    let l := s.link i
    let changes := l.aux.killChanges ++ if inserted then roles.map fun a => { role := a.role, code := a.code, change := .remove }
      else []
    (seq ∉ l.aux.killWait → killAnswered i seq roles inserted s = s) ∧
    (l.aux.killWait = [seq] → l.aux.afterKill = [] → l.aux.outstanding = false → changes ≠ [] →
      killAnswered i seq roles inserted s = { s with
        sup.links := s.sup.links.set i { l with aux := { l.aux with killWait := [], killChanges := [], outstanding := true } }
        ctl.queue := s.ctl.queue ++ [.update i l.aux.seq false changes] })) ∧
  ∀ (s : State), s.sup.links.length = 96 →
    (∀ rest, s.mail.killToLinks = true :: rest →
      ∃ t, exec .linkKillAssertion s = .next (finishLink s t) ∧
        t.mail.killToLinks = rest ∧
        t = { (List.range 96).foldl treatLink { s with mail.killToLinks := rest } with mail.muteLists := t.mail.muteLists } ∧
        t.mail.muteLists = s.mail.muteLists ++ [((List.range 96).filter (toMute s)).filterMap fun i =>
          (s.linkDef i).map fun d =>
            { link := i, unit := d.unit, chan := d.chan, roleOut := d.outRole.isSome, roleIn := d.inRole.isSome }] ∧
        t.ctl.table = s.ctl.table ∧ t.ctl.reserve = s.ctl.reserve ∧ t.kc = s.kc ∧ t.tally = s.tally ∧ t.router = s.router ∧
        (∀ i d, i < 96 → s.linkDef i = some d →
          let l := s.link i
          (t.linkRec i).state =
            match l.vis.state with
            | .planning => .parked
            | .active => if d.outRole.isSome then .killed else .active
            | .holding => .killed
            | .retuning => .killed
            | .tuning =>
              if l.aux.began = .parked ∧ l.vis.phase ≠ .settling ∧ l.vis.phase ≠ .unmuting then .parked else .killed
            | x => x) ∧
        (∀ i d, i < 96 → s.linkDef i = some d → (s.linkRec i).state = .active → d.outRole = none →
          (t.linkRec i).unsilenceable = true)) ∧
    (∀ rest, s.mail.killToLinks = false :: rest →
      ∃ t, exec .linkKillRelease s = .next (finishLink s t) ∧ t.mail.killToLinks = rest ∧ t.ctl = s.ctl ∧ t.kc = s.kc ∧
        ((∀ i, (s.linkRec i).state = .killed → (s.link i).aux.order = none) → t.mem = s.mem) ∧
        (∀ i, i < 96 → (t.linkRec i).state = (s.linkRec i).state ∧ (t.linkRec i).unsilenceable = false) ∧
        (∀ i d, i < 96 → s.linkDef i = some d → (s.linkRec i).state = .killed →
          (t.linkRec i).seqKind = .restore ∧
          (t.linkRec i).phase = (if (s.linkRec i).retuneNeeded then .tuneSent else .unmuting) ∧
          (∀ r, (t.linkRec i).inSequence r = true ↔
            (d.role r).isSome = true ∧ ∃ e ∈ settledEntries s i, e.role = r ∧ e.state = .silent) ∧
          (∀ r c, ((t.linkRec i).role r).fresh = some c → ∃ e ∈ settledEntries s i, e.role = r ∧ e.state = .silent ∧ e.code = c) ∧
          (pendingChanges s i = [] → settledEntries s i = entriesOf s i) ∧
          ∃ x ∈ t.ul.controlQ, x.link = i ∧ x.kind = (if (s.linkRec i).retuneNeeded then .tune else .unmute)))

/-- The spacing check: the required spacing of two classes is hw + hw + the larger edge guard, at most 1,200 for classes in the
ranges of TABLE 1-8; the margin against a carrier is the distance less that; the check's margin is the least over the considered
carriers of the zone, 4,095 with none and never more; neither flags nor switches take part (R11, R14, R15). -/
def Obligations.SpacingCheck : Prop :=
  (∀ (r : PlanRules) (c k : Nat) (a : Carrier), spacingTo r c k a =
    |(c : Int) - a.code| - ((r.cls k).hw + (r.cls a.cls).hw + max (r.cls k).eg (r.cls a.cls).eg)) ∧
  (∀ a b : ClassDef, a.hw ≤ 400 → b.hw ≤ 400 → a.eg ≤ 400 → b.eg ≤ 400 → requiredSpacing a b ≤ 1200) ∧
  (∀ (r : PlanRules) (c k zone : Nat) (l : List Carrier), (∀ a ∈ l, a.zone ≠ zone) → spacingMargin r c k zone l = 4095) ∧
  (∀ (r : PlanRules) (c k zone : Nat) (l : List Carrier),
    (∀ a ∈ l, a.zone = zone → spacingMargin r c k zone l ≤ spacingTo r c k a) ∧ spacingMargin r c k zone l ≤ 4095 ∧
      (spacingMargin r c k zone l = 4095 ∨ ∃ a ∈ l, a.zone = zone ∧ spacingMargin r c k zone l = spacingTo r c k a)) ∧
  (∀ (r q : PlanRules) (c k zone : Nat) (l : List Carrier),
    (∀ n, (r.cls n).hw = (q.cls n).hw ∧ (r.cls n).eg = (q.cls n).eg) →
    spacingMargin r c k zone l = spacingMargin q c k zone l)

/-- The product check. Received (R12), made for a sensitive class: every kept product of TABLE 1-9 formed of distinct considered
emitting carriers, of the orders now formed, is compared with the candidate. Emitted (R13), made for a class that emits: every kept
product formed with the candidate is compared with every considered sensitive carrier that is not one of its formers. The guard
is that of the class that is harmed, the product half width the largest of the formers. The product margin is the least of these
comparisons and of 4,095 (R14). Considered are the carriers of the zone that the subject does not own (R10). The required
clearance is at most 900. The candidate margin is the lesser of the two margins, and a code is acceptable exactly when it lies in
the window, on the grid and in no range, and its margin is 0 or more (R14, R15, R18). -/
def Obligations.ProductCheck : Prop :=
  (∀ (r : PlanRules) (c k zone : Nat) (subject : Option (Nat × Role)) (l : List Carrier),
    let p := lessSubject subject (inZone zone l)
    let K := r.cls k
    let cls (a : Carrier) : ClassDef := r.cls a.cls
    let margin (harmed : ClassDef) (q : ProductOrder) (pw : Nat) (value at' m : Int) : Prop :=
      0 ≤ value ∧ value ≤ 131071 ∧ m = |at' - value| - (harmed.hw + pw + harmed.guardFor q : Nat)
    let received (m : Int) : Prop := K.sensitive = true ∧ ∃ (i j : Nat) (a b : Carrier), i ≠ j ∧ p[i]? = some a ∧ p[j]? = some b ∧
      (cls a).emits = true ∧ (cls b).emits = true ∧
      let w := max (cls a).hw (cls b).hw
      (margin K .third w (2 * (a.code : Int) - b.code) c m ∨
        (r.fifth = true ∧ margin K .fifth w (3 * (a.code : Int) - 2 * b.code) c m) ∨
        (r.three = true ∧ ∃ (n : Nat) (d : Carrier), n ≠ i ∧ n ≠ j ∧ p[n]? = some d ∧ (cls d).emits = true ∧
          margin K .three (max w (cls d).hw) ((a.code : Int) + b.code - d.code) c m))
    let emitted (m : Int) : Prop := K.emits = true ∧ ∃ (i n : Nat) (a b : Carrier), i ≠ n ∧ p[i]? = some a ∧ p[n]? = some b ∧
      (cls a).emits = true ∧ (cls b).sensitive = true ∧
      let w := max K.hw (cls a).hw
      let harms (q : ProductOrder) (pw : Nat) (value : Int) : Prop := margin (cls b) q pw value b.code m
      (harms .third w (2 * (c : Int) - a.code) ∨ harms .third w (2 * (a.code : Int) - c) ∨
        (r.fifth = true ∧ (harms .fifth w (3 * (c : Int) - 2 * a.code) ∨ harms .fifth w (3 * (a.code : Int) - 2 * c))) ∨
        (r.three = true ∧ ∃ (j : Nat) (d : Carrier), j ≠ i ∧ j ≠ n ∧ p[j]? = some d ∧ (cls d).emits = true ∧
          (harms .three (max w (cls d).hw) ((c : Int) + a.code - d.code) ∨
            harms .three (max w (cls d).hw) ((a.code : Int) + d.code - c))))
    let x := productMargin r c k zone subject l
    (∀ a, a ∈ p ↔ a ∈ l ∧ a.zone = zone ∧ ∀ o, subject = some o → a.owner ≠ some o) ∧
    x ≤ 4095 ∧ (∀ m, received m ∨ emitted m → x ≤ m) ∧ (x = 4095 ∨ received x ∨ emitted x)) ∧
  (∀ (harmed : ClassDef) (q : ProductOrder) (pw : Nat), harmed.hw ≤ 400 → pw ≤ 400 → harmed.g3 ≤ 100 → harmed.g5 ≤ 100 →
    harmed.gx ≤ 100 → harmed.hw + pw + harmed.guardFor q ≤ 900) ∧
  (∀ (r : PlanRules) (l : List Carrier) (c k zone : Nat) (subject : Option (Nat × Role)) (w : Option Window),
    let v := verdictOf r l c k zone subject w
    v.spacing = spacingMargin r c k zone l ∧ v.product = productMargin r c k zone subject l ∧ v.margin = min v.spacing v.product ∧
    (v.eligibility = .acceptable ↔ (∀ x, w = some x → x.lo ≤ c ∧ c ≤ x.hi ∧ ((c : Int) - x.off) % x.step = 0) ∧
      bandExcluded r c k zone = false ∧ 0 ≤ v.margin))

/-- STATION_ADOPTION and CUE_ADOPTION work on the copy made when the adoption began. Of tables that fail a test they end REJECTED with
the first reason and its link or destination, the generation kept, the TABLE report of this rejection and the TABLE notice, and no
owner changed. STATION_ADOPTION of good tables sends the rules to the controller, keeps the copy, and bars the links whose protected
fields it changes; CUE_ADOPTION of good tables gives the owners the map, the widths, the plan, the trigger sets, the threshold and the delay, and ends ACCEPTED with the next generation,
its TABLE report and the notice. At each of these ends the group is IDLE with its pending flag clear; an adoption that was pending begins
with a copy of the group's region as it now stands, or is held while the lock flag is set; and the end of RUN's station adoption requests
the cue adoption in the same way (R157, R162). The cue tables fail at the first destination of a wireless kind that names no present definition of
its kind. The plan, the map and the settings are read from their bytes: an index out of range is none, a binding with a field out of
range and a map entry with a base above 63 are disabled, levels, trims, depths, threshold and delay are brought into their ranges,
widths and rate to the nearest allowed value, the larger at a tie, and an empty trigger set is ORDER alone (R113, R115, R139, R140,
R157 to R160, R162). -/
def Obligations.TableAdoptions : Prop :=
  let tableEntry (s : State) (subject value : Nat) : Owner × JReport := (.adoption,
    { kind := .table, stamp := s.now, subject := subject, values := value * 2 ^ 24, dropped := false, clamped := false
      flagOf := .tableFlag, notice := .none })
  (∀ (s : State) (reason : Reason) (i : Nat), s.adopt.station.stage = .begun →
    stationFailure s.adopt.station.tables s.sup.defs (s.sup.links.map fun l => l.vis.state) = some (reason, i) →
    ∃ t, exec .stationAdoption s = .next (finish s t) ∧
      StationAdoptionEnds { result := .rejected, reason := reason, subject := some i, gen := s.adopt.station.status.gen } s t ∧
      t.jw.notice = s.jw.notice ||| 16 ∧ t.mail.reports = s.mail.reports ++ [tableEntry s i (4 + reason.toNat * 8)] ∧
      t = { s with
        adopt := t.adopt, jw := { s.jw with notice := t.jw.notice, line := t.jw.line }
        mail := { s.mail with reports := t.mail.reports } }) ∧
  (∀ s : State, s.adopt.station.stage = .begun →
    stationFailure s.adopt.station.tables s.sup.defs (s.sup.links.map fun l => l.vis.state) = none →
    let c := readStation s.adopt.station.tables
    ∃ t, exec .stationAdoption s = .next (finish s t) ∧
      t.adopt = { s.adopt with station.stage := .atController, copy := some c, barred := t.adopt.barred } ∧
      (∀ i, i ∈ t.adopt.barred ↔ i < 96 ∧ protectedChange (s.sup.defs.getD i none) (c.defs.getD i none) = true) ∧
      t.ctl.queue = s.ctl.queue ++ [.adopt c.rules] ∧
      t = { s with adopt := t.adopt, ctl := { s.ctl with queue := t.ctl.queue } }) ∧
  (∀ (s : State) (n : Nat), s.adopt.cue.stage = .begun → cueFailure s.adopt.cue.tables s.sup.defs = some n →
    ∃ t, exec .cueAdoption s = .next (finishLink s t) ∧
      AdoptionEnds s.lockC.flag cueRegion s.mem
        { result := .rejected, reason := .badReference, subject := some n, gen := s.adopt.cue.status.gen } s.adopt.cue t.adopt.cue ∧
      t.jw.notice = s.jw.notice ||| 16 ∧ t.mail.reports = s.mail.reports ++ [tableEntry s n (5 + 8 * 8)] ∧
      t = { s with
        adopt := { s.adopt with cue := t.adopt.cue }, jw := { s.jw with notice := t.jw.notice, line := t.jw.line }
        mail := { s.mail with reports := t.mail.reports } }) ∧
  (∀ s : State, s.adopt.cue.stage = .begun → cueFailure s.adopt.cue.tables s.sup.defs = none →
    let c := readCueSettings s.adopt.cue.tables
    let plan := readPlan s.adopt.cue.tables
    ∃ t, exec .cueAdoption s = .next (finishLinkPath (cueAdoptionPath s) s t) ∧
      AdoptionEnds s.lockC.flag cueRegion s.mem
        { result := .accepted, reason := .none, subject := none, gen := (s.adopt.cue.status.gen + 1) % 65536 } s.adopt.cue t.adopt.cue ∧
      t.adopt = { s.adopt with cue := t.adopt.cue } ∧
      t.tally.map = (List.range 64).map (readMapEntry s.adopt.cue.tables) ∧ t.tally.widths = c.widths ∧ t.router.plan = plan ∧
      (∀ (k : Nat) (x : KeyRec), t.router.keys[k]? = some (some x) ↔
        s.router.keys[k]? = some (some x) ∧ plan.usable x.source x.dest = true) ∧
      t.tb.lampSet = c.lampSet ∧ t.tb.xpSet = c.xpSet ∧ t.tb.takeWidth = c.takeWidth ∧
      t.tb.buffered = (if c.rate = s.tb.rate then none else some c.rate) ∧ t.jw.threshold = c.threshold ∧
      t.jw.delayFrames = c.delay ∧ tableEntry s 0xFFFFFF 3 ∈ t.mail.reports ∧ t.jw.notice.getLsbD 4 = true ∧
      t.mem = s.mem ∧ t.sup = s.sup ∧ t.ctl = s.ctl) ∧
  (∀ (m : List Host.Cell) (defs : List (Option LinkDef)),
    let fails (d : Nat) : Prop := 1 ≤ byteAt m (0x4380 + 16 * d) ∧ byteAt m (0x4380 + 16 * d) ≤ 3 ∧
      ¬(byteAt m (0x4381 + 16 * d) < 96 ∧ ∃ e, defs.getD (byteAt m (0x4381 + 16 * d)) none = some e ∧
        [LinkKind.iem, .beltpack, .camera][byteAt m (0x4380 + 16 * d) - 1]? = some e.kind)
    (cueFailure m defs = none ↔ ∀ d, d < 32 → ¬fails d) ∧
    (∀ n, cueFailure m defs = some n ↔ n < 32 ∧ fails n ∧ ∀ d, d < n → ¬fails d)) ∧
  (∀ (m : List Host.Cell),
    let p := readPlan m
    let c := readCueSettings m
    let at' (a : Nat) : Nat := byteAt m a
    let below (n v : Nat) : Option Nat := if v < n then some v else none
    let between (lo hi : Int) (a : Nat) : Int :=
      let v : Int := if fieldAt m a 2 < 32768 then fieldAt m a 2 else fieldAt m a 2 - 65536
      max lo (min hi v)
    let near (allowed : List Nat) (a r : Nat) : Prop := r ∈ allowed ∧ ∀ x ∈ allowed,
      |(r : Int) - at' a| < |(x : Int) - at' a| ∨ (|(r : Int) - at' a| = |(x : Int) - at' a| ∧ x ≤ r)
    let set (a : Nat) : Triggers :=
      if at' a % 16 = 0 then { frame := false, change := false, order := true, take := false }
      else { frame := (at' a).testBit 0, change := (at' a).testBit 1, order := (at' a).testBit 2, take := (at' a).testBit 3 }
    (∀ n, n < 24 → let a := 0x4200 + 16 * n
      p.source n =
        { kind := if at' a = 1 then .panel else if at' a = 2 then .beltpack else .unused, link := below 96 (at' (a + 1))
          trim := between (-40) 40 (a + 2) }) ∧
    (∀ d, d < 32 → let a := 0x4380 + 16 * d
      p.dest d =
        { kind := [DestKind.unused, .iem, .beltpack, .camera, .wired].getD (at' a) .unused, link := below 96 (at' (a + 1))
          bus := below 4 (at' (a + 2)), level := between (-160) 24 (a + 4), dim := between 0 80 (a + 6)
          trim := between (-40) 40 (a + 8) }) ∧
    (∀ g, g < 8 → let a := 0x4580 + 8 * g
      p.group g =
        { kind := [GroupKind.unused, .fixed, .programmeCameras, .previewCameras, .isoCameras].getD (at' a) .unused
          members := BitVec.ofNat 32 (fieldAt m (a + 4) 4) }) ∧
    (∀ b, b < 192 → let a := 0x4600 + 8 * b
      p.bindings[b]? = some
        { enable := (at' a).testBit 0 && decide (at' (a + 1) < 24 ∧ at' (a + 2) < 40 ∧ at' (a + 3) < 8 ∧ at' (a + 4) < 2)
          source := at' (a + 1), dest := at' (a + 2), priority := at' (a + 3), latch := decide (at' (a + 4) = 1)
          level := between (-40) 40 (a + 6) }) ∧
    (∀ e, let a := 0x4000 + 8 * e
      readMapEntry m e =
        { base := at' a, mask := at' (a + 1) % 64, camera := at' (a + 2)
          colour := [Colour.programme, .preview, .iso][at' (a + 3)]?
          spread := (at' (a + 4)).testBit 0, enable := (at' (a + 4)).testBit 1 && decide (at' a ≤ 63) }) ∧
    c.widths.length = 3 ∧ (∀ g, g < 3 → near [1, 2, 4, 8, 16, 32] (0x4C00 + g) (c.widths.getD g 0)) ∧
    near [1, 2, 4, 8, 16, 32] 0x4C03 c.takeWidth ∧ c.lampSet = set 0x4C04 ∧ c.xpSet = set 0x4C05 ∧
    near [24, 25, 30, 50, 60] 0x4C06 c.rate ∧ c.threshold = max 1 (min 16 (at' 0x4C07)) ∧
    c.delay = max 1 (min 250 (at' 0x4C08)))

/-- The tests of a station copy (R159, TABLE 10-4): the first link index, in ascending order, whose definition fails a test rejects
the copy, with the first test that it fails: BAD_DEFINITION, BAD_CLASS, BAD_WINDOW, BAD_STEP, DUPLICATE_UNIT, DUPLICATE_CAMERA,
LINK_IN_USE; an absent definition is tested for LINK_IN_USE alone. Which roles a kind requires and allows is TABLE 4-2 (R59). What the
adoption takes is read from the bytes of TABLE 12-6, every numeric field brought into its range: definitions (R58), classes (R2),
exclusion ranges (R4), product switches, settings (R159) and kill width (R143). -/
def Obligations.StationTests : Prop :=
  (∀ (m : List Host.Cell),
    let at' (a : Nat) : Nat := byteAt m a
    let code (a n : Nat) : Nat := min (fieldAt m a n) 131071
    let role (a : Nat) : RawRole :=
      { cls := if at' a = 255 then none else some (at' a), step := at' (a + 1), off := at' (a + 2), lo := code (a + 4) 4
        hi := code (a + 8) 4 }
    let c := readStation m
    (∀ i, let a := 0x2400 + 64 * i
      readDef m i =
        { present := decide (at' a ≠ 0), kind := at' (a + 1), unit := at' (a + 2), chan := at' (a + 3)
          camera := if 32 < at' (a + 4) then 0 else at' (a + 4), zone := at' (a + 5), auto := (at' (a + 6)).testBit 0
          attn := (at' (a + 6)).testBit 1, delayS := min (at' (a + 8)) 60, holdS := min (fieldAt m (a + 10) 2) 600
          outRole := role (a + 16), inRole := role (a + 32) }) ∧
    c.defs = (List.range 96).map (fun i => (readDef m i).toDef) ∧
    c.rules.classes.length = 8 ∧
    (∀ k, k < 8 → let a := 0x3C00 + 32 * k
      c.rules.cls k =
        { hw := min (fieldAt m a 2) 400, eg := min (fieldAt m (a + 2) 2) 400, g3 := min (at' (a + 4)) 100
          g5 := min (at' (a + 5)) 100, gx := min (at' (a + 6)) 100, emits := (at' (a + 7)).testBit 0
          sensitive := (at' (a + 7)).testBit 1
          floor := if at' (a + 8) < 128 then 0 else max (-120) ((at' (a + 8) : Int) - 256)
          ceiling := min (at' (a + 9)) 100, guardMs := at' (a + 10)
          settleMs := max 20 (min 1000 (fieldAt m (a + 12) 2)) }) ∧
    c.rules.exclusions.length = 48 ∧
    (∀ r, r < 48 → let a := 0x3D00 + 8 * r
      c.rules.exclusions[r]? = some
        { low := code a 3, high := code (a + 4) 4, zones := BitVec.ofNat 4 (at' (a + 3)) }) ∧
    c.rules.fifth = (at' 0x3E85).testBit 0 ∧ c.rules.three = (at' 0x3E85).testBit 1 ∧
    c.settings =
      { periodMs := max 100 (min 5000 (fieldAt m 0x3E80 2)), staleFactor := max 2 (min 8 (at' 0x3E82))
        missLimit := max 1 (min 8 (at' 0x3E83)), persistence := max 1 (min 8 (at' 0x3E84))
        pattern := (List.range 8).map fun i => BitVec.ofNat 32 (fieldAt m (0x3E88 + 4 * i) 4) } ∧
    c.killWidth = max 1 (min 64 (at' 0x3E86))) ∧
  (∀ (m : List Host.Cell) (working : List (Option LinkDef)) (states : List LinkState),
    let defs := (List.range 96).map fun i => (readDef m i).toDef
    let test (i : Nat) : Option Reason :=
      stationTest (readRules m) (readDef m i) (defs.take i) (working.getD i none) (states.getD i .vacant)
    (stationFailure m working states = none ↔ ∀ i, i < 96 → test i = none) ∧
    (∀ reason i, stationFailure m working states = some (reason, i) ↔
      i < 96 ∧ test i = some reason ∧ ∀ j, j < i → test j = none)) ∧
  (∀ (rules : PlanRules) (d : RawDef) (lower : List (Option LinkDef)) (working : Option LinkDef) (st : LinkState),
    let inUse : Prop := st ≠ .parked ∧ st ≠ .vacant
    (d.present = false →
      stationTest rules d lower working st = (if working.isSome ∧ inUse then some .linkInUse else none)) ∧
    (d.present = true → kindOf d.kind = none ∨ d.unit < 1 ∨ 126 < d.unit ∨ 3 < d.chan ∨ 3 < d.zone →
      stationTest rules d lower working st = some .badDefinition) ∧
    (∀ k, d.present = true → kindOf d.kind = some k → 1 ≤ d.unit → d.unit ≤ 126 → d.chan ≤ 3 → d.zone ≤ 3 →
      let x : LinkDef :=
        { kind := k, unit := d.unit, chan := d.chan, camera := d.camera, zone := d.zone
          outRole := d.outRole.declared k.allowed.1, inRole := d.inRole.declared k.allowed.2
          auto := d.auto, attn := d.attn, delayS := d.delayS, holdS := d.holdS }
      let declared (r : RoleDef) : Prop := some r = x.outRole ∨ some r = x.inRole
      let badClass : Prop := (k.required.1 = true ∧ x.outRole = none) ∨ (k.required.2 = true ∧ x.inRole = none) ∨
        ∃ r, declared r ∧ (7 < r.cls ∨ (rules.cls r.cls).hw = 0)
      let badWindow : Prop := ∃ r, declared r ∧ r.hi < r.lo
      let badStep : Prop := ∃ r, declared r ∧ (r.step < 1 ∨ 64 < r.step ∨ r.step ≤ r.off)
      let sameUnit : Prop := ∃ y, some y ∈ lower ∧ y.unit = x.unit ∧ y.chan = x.chan
      let sameCamera : Prop := k = .camera ∧ x.camera ≠ 0 ∧ ∃ y, some y ∈ lower ∧ y.kind = .camera ∧ y.camera = x.camera
      let changed : Prop := ∃ w, working = some w ∧ (w.kind ≠ x.kind ∨ w.unit ≠ x.unit ∨ w.chan ≠ x.chan ∨ w.zone ≠ x.zone ∨
        w.outRole.map (·.cls) ≠ x.outRole.map (·.cls) ∨ w.inRole.map (·.cls) ≠ x.inRole.map (·.cls))
      let answer := stationTest rules d lower working st
      (badClass → answer = some .badClass) ∧
      (¬badClass → badWindow → answer = some .badWindow) ∧
      (¬badClass → ¬badWindow → badStep → answer = some .badStep) ∧
      (¬badClass → ¬badWindow → ¬badStep → sameUnit → answer = some .duplicateUnit) ∧
      (¬badClass → ¬badWindow → ¬badStep → ¬sameUnit → sameCamera → answer = some .duplicateCamera) ∧
      (¬badClass → ¬badWindow → ¬badStep → ¬sameUnit → ¬sameCamera → changed → inUse → answer = some .linkInUse) ∧
      (¬badClass → ¬badWindow → ¬badStep → ¬sameUnit → ¬sameCamera → ¬(changed ∧ inUse) → answer = none))) ∧
  ([LinkKind.camera, .beltpack, .iem, .mic, .data].map (fun k => (k.required, k.allowed)) =
    [((true, true), (true, true)), ((true, true), (true, true)), ((true, false), (true, false)),
     ((false, true), (false, true)), ((true, false), (true, true))]) ∧
  (∀ (b : Bool) (r : RawRole) (x : RoleDef), r.declared b = some x ↔
    b = true ∧ r.cls = some x.cls ∧ x.lo = r.lo ∧ x.hi = r.hi ∧ x.step = r.step ∧ x.off = r.off)

/-- STATION_DEFINITIONS_TAKEN: the definitions and settings of the copy are in force, the unit list is rebuilt from them, kill
control has its width, the tally unit and the router are handed the definitions, and the adoption ends ACCEPTED with the
plan-rule generation: the group is IDLE, or a pending adoption begins with a copy of the tables as they then stand or is held while LOCK
P's flag is set, and that of RUN requests the cue adoption (R157, R158, R162). Of each link: a new definition makes a VACANT link LEARNING with the learning count 0, as a changed unit or channel
makes a PARKED one; a removed definition resets its record but for the pending flag and the order cell (the model's choice:
notes/assumptions/22); the ORDER hold of a link whose definition changed stays, under the new limit from its own start, while its camera
shows programme, is over where it shows none, and has expired where the limit has passed (27); a FAILOVER hold is over where the link fails
over no more. TALLY_STATION_ADOPTION: every camera is linked to the definition that names it. ROUTER_STATION_ADOPTION:
the router works with the new definitions, every route, row and call recomputed and what changed told, and a beltpack whose kind, unit or
channel changed has no key image (R77, R86, R107, R131, R132, R143, R159). -/
def Obligations.DefinitionsReachTheirOwners : Prop :=
  (∀ (s : State) (c : StationCopy), s.adopt.station.stage = .answered → s.adopt.copy = some c →
    ∃ t, exec .stationDefinitionsTaken s = .next (finishLink s t) ∧ t.sup.defs = c.defs ∧ t.sup.settings = c.settings ∧
      t.ul.units = unitList c.defs ∧ t.kc.width = c.killWidth ∧ t.mail.tallyDefs = s.mail.tallyDefs ++ [c.defs] ∧
      t.mail.routerDefs = s.mail.routerDefs ++ [c.defs] ∧
      StationAdoptionEnds { result := .accepted, reason := .none, subject := none, gen := s.ctl.ruleGen } s t ∧
      t.mem = s.mem ∧ t.ctl.table = s.ctl.table ∧ t.ctl.rules = s.ctl.rules ∧
      t.tally = s.tally ∧ t.router = s.router ∧ t.tb = s.tb ∧
      (s.sup.links.length = 96 → ∀ i, i < 96 →
        let old := s.sup.defs.getD i none
        let l := s.linkRec i
        let r := t.linkRec i
        let x := (t.link i).aux
        (∀ b, old = none → c.defs.getD i none = some b → l.state = .vacant → r = { l with state := .learning, learning := 0 }) ∧
        (∀ a, old = some a → c.defs.getD i none = none →
          r = { LinkRec.reset with pending := l.pending, orderCell := l.orderCell }) ∧
        (∀ a b, old = some a → c.defs.getD i none = some b →
          (l.state = .parked → r =
            if a.unit = b.unit ∧ a.chan = b.chan then l else { l with state := .learning, learning := 0 }) ∧
          (∀ o, l.state = .holding → l.hold = some .order → (s.link i).aux.order = some o → a ≠ b →
            let shown : Prop := ∃ k, b.camera = k + 1 ∧
              ((camOf s k).staged.programme = true ∨ (camOf s k).applied.programme = true)
            let passed : Prop := b.holdS ≠ 0 ∧ ∃ n, (s.link i).aux.holdAt = some n ∧ n + b.holdS * 768000 ≤ s.tb.elapsed
            (shown → ¬passed → r.state = .holding ∧ r.hold = some .order ∧ x.holdAt = (s.link i).aux.holdAt ∧
              x.holdTimer = decide (b.holdS ≠ 0)) ∧
            (¬shown → r.state = .retuning ∧ r.hold = none ∧ x.permitKept = false) ∧
            (shown → passed → r.state = .retuning ∧ r.hold = none ∧ x.permitKept = true ∧
              ∃ j : JReport, (.supervisor, j) ∈ t.mail.reports ∧ j.kind = .holdExpired ∧ j.subject = i)) ∧
          (l.state = .holding → l.hold = some .failover → a ≠ b → b.auto = false ∨ b.outRole = none →
            r.state = .active ∧ r.hold = none)))) ∧
  (∀ (defs : List (Option LinkDef)) (camera : Nat),
    let names (l : Nat) : Prop := ∃ e, defs[l]? = some (some e) ∧ e.kind = .camera ∧ e.camera = camera
    (linkedLink defs camera = none ↔ ∀ l, ¬names l) ∧
    (∀ l, linkedLink defs camera = some l ↔ names l ∧ ∀ j, j < l → ¬names j)) ∧
  (∀ defs : List (Option LinkDef), (unitList defs).Pairwise (· < ·) ∧
    ∀ u, u ∈ unitList defs ↔ u < 127 ∧ ∃ e, some e ∈ defs ∧ e.unit = u) ∧
  (∀ (s : State) (defs : List (Option LinkDef)) (rest : List (List (Option LinkDef))), s.tally.cams.length = 32 →
    s.mail.tallyDefs = defs :: rest →
    ∃ t, exec .tallyStationAdoption s = .next (finishLink s t) ∧ t.tally.defs = defs ∧ t.mail.tallyDefs = rest ∧
      (∀ c, c < 32 → (camOf t c).link = linkedLink defs (c + 1) ∧ (camOf t c).staged = (camOf s c).staged ∧
        (camOf t c).applied = (camOf s c).applied ∧
        ((camOf s c).link = linkedLink defs (c + 1) → camOf t c = camOf s c)) ∧
      t = { s with
        tally := { s.tally with cams := t.tally.cams, defs := defs, epochs := t.tally.epochs }
        ul := { s.ul with cueQ := t.ul.cueQ }, mail := { s.mail with tallyDefs := rest, reports := t.mail.reports } }) ∧
  (∀ (s : State) (defs : List (Option LinkDef)) (rest : List (List (Option LinkDef))), s.mail.routerDefs = defs :: rest →
    ∃ t, exec .routerStationAdoption s = .next (finish s t) ∧ t.router.defs = defs ∧ t.router.keys = s.router.keys ∧
      t.router.plan = s.router.plan ∧ t.mail.routerDefs = rest ∧
      (∀ k a b, k < s.router.images.length → s.router.defs.getD k none = some a → defs.getD k none = some b →
        t.router.images.getD k none =
          if a.kind = b.kind ∧ a.unit = b.unit ∧ a.chan = b.chan then s.router.images.getD k none else none) ∧
      (∀ k b, k < s.router.images.length → s.router.defs.getD k none = none → defs.getD k none = some b →
        t.router.images.getD k none = none) ∧
      t.router = ({ s.router with defs := defs, images := t.router.images } : Router).recompute ∧ RouterTold s t [] ∧
      t = { s with
        router := t.router
        mail := { s.mail with
          routerDefs := rest, reports := t.mail.reports, callChanges := t.mail.callChanges
          stagedChanges := t.mail.stagedChanges } })

/-- With the transaction machine IDLE in RUNNING, the oldest waiting request of the highest class that holds one begins: KILL,
CUE, CONTROL whose permit is held, ATTENTION, SWEEP. A CONTROL request that the permit withholds ends WITHHELD with no frame sent,
and the arbiter goes on with what else waits. The permit is consulted for TUNE and UNMUTE frames: the kill part withholds either
while the kill is ASSERTED, the programme part a TUNE of a RETUNE or FAILOVER sequence while the link's camera shows programme,
unless the sequence keeps its permit (a forced retune, or one whose hold limit has expired). Every command that ends in finishLink
arbitrates at its end, finish itself changes nothing but change counts, and after every step no request waits in RUNNING while the
machine is IDLE. Every step keeps the limits of the KILL class: one SILENCE, and one MUTE of a link (R72, R82, R84, R85; that requests placed by one step are taken after it is the model's choice: notes/assumptions/41). -/
def Obligations.ArbiterTakesHighestClass : Prop :=
  (∀ s : State, s.part = .running → s.ul.xact = none →
    let begun (t : State) (r : UlReq) (u : UnitLink) : Prop :=
      t.ul = { u with xact := some { req := r, second := false, sending := true, deadline := 0 } }
    (∀ r q, s.ul.killQ = r :: q → begun (arbitrate s) (.killReq r) { s.ul with killQ := q }) ∧
    (∀ r q, s.ul.killQ = [] → s.ul.cueQ = r :: q → begun (arbitrate s) (.cueReq r) { s.ul with cueQ := q }) ∧
    (∀ r q, s.ul.killQ = [] → s.ul.cueQ = [] → s.ul.controlQ = r :: q →
      let withheld (p : PermitPart) : Prop :=
        (p = .killPart ∧ (r.kind = .tune ∨ r.kind = .unmute) ∧ s.kc.asserted = true) ∨
        (p = .programmePart ∧ r.kind = .tune ∧ s.kc.asserted = false ∧ r.forRetune = true ∧ s.linkOnProgramme r.link = true)
      ((∀ p, ¬withheld p) → begun (arbitrate s) (.controlReq r) { s.ul with controlQ := q }) ∧
      (∀ p, withheld p → arbitrate s = arbitrate (noteBegun (.controlReq r)
        { s with
          ul.controlQ := q
          mail.controlOutcomes := s.mail.controlOutcomes ++
            [{ link := r.link, seq := r.seq, kind := r.kind, result := .withheld p }] }))) ∧
    (∀ a, s.ul.killQ = [] → s.ul.cueQ = [] → s.ul.controlQ = [] → s.ul.attnQ = some a →
      begun (arbitrate s) (.attentionPoll a) { s.ul with attnQ := none }) ∧
    (∀ r q, s.ul.killQ = [] → s.ul.cueQ = [] → s.ul.controlQ = [] → s.ul.attnQ = none → s.ul.sweepQ = r :: q →
      begun (arbitrate s) (.sweepReq r) { s.ul with sweepQ := q }) ∧
    (s.ul.killQ = [] → s.ul.cueQ = [] → s.ul.controlQ = [] → s.ul.attnQ = none → s.ul.sweepQ = [] → arbitrate s = s)) ∧
  (∀ s : State, s.part ≠ .running ∨ s.ul.xact.isSome = true → arbitrate s = s) ∧
  (∀ s t : State, finishLink s t = finish s (arbitrate t) ∧ finish s t = { t with counts := (finish s t).counts } ∧
    ∀ path, finishLinkPath path s t = finishPath path s (arbitrate t) ∧
      finishPath path s t = { t with counts := (finishPath path s t).counts }) ∧
  (∀ s t : State, ArbiterLaw s → step s = .next t → ArbiterLaw t) ∧
  (∀ s t : State, KillClassLaw s → step s = .next t → KillClassLaw t) ∧
  (∀ (s : State) (i c : Nat) (d : LinkDef) (kind : ControlKind) (o n : Bool),
    (controlReq s i d kind o n).kind = kind ∧ (controlReq s i d kind o n).link = i ∧
      (controlReq s i d kind o n).seq = (s.link i).aux.seq ∧
    ((controlReq s i d kind o n).forRetune = true ↔
      ((s.linkRec i).seqKind = .retune ∨ (s.linkRec i).seqKind = .failover) ∧ (s.link i).aux.permitKept = false) ∧
    (s.linkDef i = some d → d.camera = c + 1 →
      (s.linkOnProgramme i = true ↔ (camOf s c).staged.programme = true ∨ (camOf s c).applied.programme = true)) ∧
    (s.linkDef i = none ∨ (s.linkDef i = some d ∧ d.camera = 0) → s.linkOnProgramme i = false))

/-- The transaction machine. FRAME_TRANSMITTED starts the reply timeout of 2 ms, and ends a SILENCE. UNIT_FRAME_RECEIVED, where
any frame that comes while a reply is awaited counts as that reply (the model's choice for a late one: notes/assumptions/54): a good
reply to a CONTROL request ends it acknowledged; a good REPORT to a sweep poll goes to the three blocks that use it; a bad reply
to a FIRST frame, and the REPLY_TIMEOUT of one, send the frame a second time, a TUNE or an UNMUTE only while its permit is held:
withheld, the transaction ends WITHHELD; a frame that comes while the part sends, or with no transaction, changes nothing.
REPLY_TIMEOUT of a SECOND frame, or a bad reply to it, ends the transaction FAILED, and a failed poll is a miss. The owners of CUEs,
kill MUTEs, LOOPs and settle polls are told how they ended. After an attention poll the next address of the round follows, a unit with
every cause NONE having left it, an empty round refilled (that its walk begins at the lowest address is the model's choice:
notes/assumptions/30). A reply is good when it is the whole frame, with its check, that the request's address and kind ask for, and,
for a REPORT, 1 to 4 channels with every level, quality and code in range (R80 to R83, R91, R96, TABLE 12-11). -/
def Obligations.TransactionMachine : Prop :=
  ∀ (s : State) (bytes : List Byte),
    (∀ x, s.ul.xact = some x → x.sending = true →
      exec (.unitFrameReceived bytes) s = .next (finishLink s s) ∧
      (x.req = .killReq .silence → exec .frameTransmitted s = .next (finishLink s { s with ul.xact := none })) ∧
      (x.req ≠ .killReq .silence → exec .frameTransmitted s = .next (finishLink s
        { s with ul.xact := some { x with sending := false, deadline := s.tb.elapsed + 1536 } }))) ∧
    (s.ul.xact = none → exec (.unitFrameReceived bytes) s = .next (finishLink s s)) ∧
    (∀ x c, s.ul.xact = some x → x.sending = false → x.req = .controlReq c → c.kind ≠ .settlePoll →
      goodReply x.req bytes = some .ack →
      exec (.unitFrameReceived bytes) s = .next (finishLink s
        { s with
          ul.xact := none
          mail.controlOutcomes := s.mail.controlOutcomes ++ [{ link := c.link, seq := c.seq, kind := c.kind, result := .acked }] })) ∧
    (∀ x u r, s.ul.xact = some x → x.sending = false → x.req = .sweepReq (.poll u) → goodReply x.req bytes = some (.report r) →
      s.reached s.ul.sweepDue = false →
      ∃ t, exec (.unitFrameReceived bytes) s = .next (finishLink s t) ∧ t.ul.xact = none ∧ t.ul.sweepOut = false ∧
        t.ul.sweepCount = (if s.ul.units.getLast? = some u then (s.ul.sweepCount + 1) % 2 ^ 32 else s.ul.sweepCount) ∧
        t = { s with
          ul := { s.ul with xact := none, sweepOut := false, sweepCount := t.ul.sweepCount }
          mail := { s.mail with
            supervisorReports := s.mail.supervisorReports ++ [r], tallyReports := s.mail.tallyReports ++ [r]
            routerReports := s.mail.routerReports ++ [r] } }) ∧
    (∀ x e, s.ul.xact = some x → x.sending = false → x.second = false →
      (e = .unitFrameReceived bytes ∧ goodReply x.req bytes = none) ∨ (e = .replyTimeout ∧ x.deadline ≤ s.tb.elapsed) →
      let again : Prop := exec e s = .next (finishLink s
        { s with ul.xact := some { req := x.req, second := true, sending := true, deadline := 0 } })
      ((∀ c, x.req ≠ .controlReq c) → again) ∧
      (∀ c, x.req = .controlReq c →
        let withheld (p : PermitPart) : Prop :=
          (p = .killPart ∧ (c.kind = .tune ∨ c.kind = .unmute) ∧ s.kc.asserted = true) ∨
          (p = .programmePart ∧ c.kind = .tune ∧ s.kc.asserted = false ∧ c.forRetune = true ∧ s.linkOnProgramme c.link = true)
        ((∀ p, ¬withheld p) → again) ∧
        (∀ p, withheld p → exec e s = .next (finishLink s
          { s with
            ul.xact := none
            mail.controlOutcomes := s.mail.controlOutcomes ++
              [{ link := c.link, seq := c.seq, kind := c.kind, result := .withheld p }] })))) ∧
    (∀ x c, s.ul.xact = some x → x.sending = false → x.second = true → x.deadline ≤ s.tb.elapsed → x.req = .controlReq c →
      c.kind ≠ .settlePoll →
      exec .replyTimeout s = .next (finishLink s
        { s with
          ul.xact := none
          mail.controlOutcomes := s.mail.controlOutcomes ++ [{ link := c.link, seq := c.seq, kind := c.kind, result := .failed }] })) ∧
    (∀ x u, s.ul.xact = some x → x.sending = false → x.second = true → x.deadline ≤ s.tb.elapsed →
      x.req = .sweepReq (.poll u) →
      ∃ t, exec .replyTimeout s = .next (finishLink s t) ∧ t.ul.xact = none ∧ t.mail.missedUnits = s.mail.missedUnits ++ [u]) ∧
    (∀ (x : Transaction) (e : Instr), s.ul.xact = some x → x.sending = false →
      let good (r : Reply) : Prop := e = .unitFrameReceived bytes ∧ goodReply x.req bytes = some r
      let failed : Prop := x.second = true ∧ ((e = .unitFrameReceived bytes ∧ goodReply x.req bytes = none) ∨
        (e = .replyTimeout ∧ x.deadline ≤ s.tb.elapsed))
      let idle : State := { s with ul.xact := none }
      let ends (t : State) : Prop := exec e s = .next (finishLink s t)
      let shared (r : Report) : State := { idle with
        mail.supervisorReports := s.mail.supervisorReports ++ [r], mail.tallyReports := s.mail.tallyReports ++ [r]
        mail.routerReports := s.mail.routerReports ++ [r] }
      (∀ q, x.req = .cueReq q →
        (good .ack → ends { idle with mail.cueOutcomes := s.mail.cueOutcomes ++ [(q, true)] }) ∧
        (failed → ends { idle with mail.cueOutcomes := s.mail.cueOutcomes ++ [(q, false)] })) ∧
      (∀ l n m u k o i, x.req = .killReq (.mute l n m u k o i) →
        (good .ack → ends { idle with mail.killMuteOutcomes := s.mail.killMuteOutcomes ++ [(l, n, m, true)] }) ∧
        (failed → ends { idle with mail.killMuteOutcomes := s.mail.killMuteOutcomes ++ [(l, n, m, false)] })) ∧
      (∀ u p, x.req = .sweepReq (.loop u p) →
        (∀ w, good (.echo w) → ends
          { idle with mail.loopResults := s.mail.loopResults ++ [if w = p then LoopResult.right else .wrong] }) ∧
        (failed → ends { idle with mail.loopResults := s.mail.loopResults ++ [.noEcho] })) ∧
      (∀ c, x.req = .controlReq c → c.kind = .settlePoll →
        let told (r : ControlResult) : List ControlOutcome :=
          s.mail.controlOutcomes ++ [{ link := c.link, seq := c.seq, kind := .settlePoll, result := r }]
        (∀ r, good (.report r) → ends { shared r with mail.controlOutcomes := told .acked }) ∧
        (failed → ends { idle with
          mail.missedUnits := s.mail.missedUnits ++ [c.unit], mail.controlOutcomes := told .failed })) ∧
      (∀ u, x.req = .attentionPoll u → s.part = .running → s.ul.uatn = true →
        let goesOn (left : List Nat) (t : State) : Prop :=
          let round := if left = [] then attentionCapable s else left
          ∀ v, nextAddress round (if left = [] then none else s.ul.attnPos) = some v → ends
            { t with ul.roundSet := round, ul.attnPos := some v, ul.attnQ := some v, ul.attnOut := true }
        (∀ r, good (.report r) →
          goesOn (if ∀ y ∈ r.channels, y.cause = 0 then s.ul.roundSet.filter (· ≠ u) else s.ul.roundSet) (shared r)) ∧
        (failed → goesOn s.ul.roundSet { idle with mail.missedUnits := s.mail.missedUnits ++ [u] }))) ∧
    (∀ (q : UlReq) (r : Reply), goodReply q bytes = some r ↔ q.address < 256 ∧ ∃ (kind : Nat) (payload : List Byte),
      payload.length < 256 ∧ bytes = frameOf q.address kind payload ∧
      match q.reply with
      | none => False
      | some .ack => kind = 0x82 ∧ payload = [] ∧ r = .ack
      | some .echo => kind = 0x87 ∧ payload.length = 32 ∧ r = .echo ((List.range 8).map fun k =>
          BitVec.ofNat 32 (beNat ((payload.drop (4 * k)).take 4)))
      | some .report => kind = 0x81 ∧ ∃ n, 1 ≤ n ∧ n ≤ 4 ∧ payload.length = 1 + 16 * n ∧ payload.headD 0 = BitVec.ofNat 8 n ∧
          let b (j k : Nat) : Nat := (payload.getD (1 + 16 * j + k) 0).toNat
          let role (j k : Nat) : RoleReport :=
            { level := if b j k < 128 then b j k else b j k - 256, quality := b j (k + 1), on := (b j (k + 2)).testBit 0
              settled := (b j (k + 2)).testBit 1, code := b j (k + 3) * 65536 + b j (k + 4) * 256 + b j (k + 5) }
          let ranged (y : RoleReport) : Prop := -120 ≤ y.level ∧ y.level ≤ 0 ∧ y.quality ≤ 100 ∧ y.code ≤ 131071
          (∀ j, j < n → ranged (role j 4) ∧ ranged (role j 10)) ∧
          r = .report
            { unit := q.address
              channels := (List.range n).map fun j =>
                { echo := { programme := (b j 0).testBit 0, preview := (b j 0).testBit 1, iso := (b j 0).testBit 2 }
                  key0 := (b j 1).testBit 0, key1 := (b j 1).testBit 1, cause := b j 2, outRep := role j 4
                  inRep := role j 10 } })

/-- SWEEP_SPACING_EXPIRY when due, with the previous poll ended: a poll of the next address, the lowest again after the highest.
UATN_ASSERTED in RUNNING begins a round over the attention-capable units; UATN_DEASSERTED ends it and withdraws a waiting poll. A rebuild
of the unit list keeps the units of the round still capable, and fills an empty round at once while UATN is asserted, a poll out or not (that
a poll that waits is left waiting: notes/assumptions/30).
LINE_TEST: BUSY while one is in service, else the cell is WORKING and the first LOOP is placed, address 127 testing every unit of the
list, none of an empty list; LOOP_OUTCOME counts the unit and a failure and places the LOOP of the next unit, and after the last the
order completes OK, or FAULTED with the first 32 failures. A unit is capable of attention when a definition on it has the flag (R86 to
R88, R96, R97; the subject of a LINE_TEST refused BUSY is the model's choice: notes/assumptions/25). -/
def Obligations.SweepAttentionAndLineTest : Prop :=
  (∀ (s : State) (u : Nat), s.part = .running → s.ul.sweepOut = false → s.ul.sweepDue ≤ s.tb.elapsed →
    nextAddress s.ul.units s.ul.sweepPos = some u →
    exec .sweepSpacingExpiry s = .next (finishLink s
      { s with
        ul.sweepQ := s.ul.sweepQ ++ [.poll u], ul.sweepPos := some u, ul.sweepOut := true
        ul.sweepDue := s.tb.elapsed + max 2 (s.sup.settings.periodMs / max 1 s.ul.units.length) * 768 })) ∧
  (∀ (s : State) (u : Nat) (l : List Nat), s.part = .running → s.ul.uatn = false → s.ul.attnOut = false →
    attentionCapable s = u :: l →
    exec .uatnAsserted s = .next (finishLink s
      { s with
        ul.uatn := true, ul.roundSet := u :: l, ul.attnPos := some u, ul.attnQ := some u, ul.attnOut := true })) ∧
  (∀ s : State, ∃ t, exec .uatnDeasserted s = .next (finishLink s t) ∧
    t = { s with
      ul.uatn := false, ul.attnQ := none, ul.roundSet := [], ul.attnOut := if s.ul.attnQ.isSome then false else s.ul.attnOut }) ∧
  (∀ (s : State) (g : OrderTag) (a : Nat) (rest : List Order), Memory.wf s.mem → a < 128 →
    s.mail.lineTests = .lineTest g a :: rest →
    (∀ x, s.ul.lineTest = some x →
      ∃ t, exec .lineTest s = .next (finishLink s t) ∧ OrderEnds g 5 .busy a s t ∧ t.ul = s.ul ∧ t.mail.lineTests = rest) ∧
    (s.ul.lineTest = none → 1 ≤ a → a ≤ 126 →
      ∃ t, exec .lineTest s = .next (finishLink s t) ∧ OrderWorks g s t ∧
        t = { s with
          mem := t.mem, mail.lineTests := rest
          ul := { s.ul with
            sweepQ := s.ul.sweepQ ++ [.loop a s.sup.settings.pattern]
            lineTest := some { tag := g, address := a, pattern := s.sup.settings.pattern, units := [a], tested := 0
                               failures := [] } } }) ∧
    (s.ul.lineTest = none → a = 127 → s.ul.units = [] →
      ∃ t, exec .lineTest s = .next (finishLink s t) ∧ OrderEnds g 4 .ok 127 s t ∧ resultByte t.mem g.cell 0 = 0 ∧
        resultByte t.mem g.cell 1 = 0 ∧
        t = { s with
          mem := t.mem, disp := { s.disp with service := t.disp.service }
          mail := { s.mail with lineTests := rest, reports := t.mail.reports } }) ∧
    (∀ u us, s.ul.lineTest = none → a = 127 → s.ul.units = u :: us →
      ∃ t, exec .lineTest s = .next (finishLink s t) ∧ OrderWorks g s t ∧
        t = { s with
          mem := t.mem, mail.lineTests := rest
          ul := { s.ul with
            sweepQ := s.ul.sweepQ ++ [.loop u s.sup.settings.pattern]
            lineTest := some { tag := g, address := 127, pattern := s.sup.settings.pattern, units := u :: us, tested := 0
                               failures := [] } } })) ∧
  (∀ (s : State) (r : LoopResult) (rest : List LoopResult) (x : LineTest) (u : Nat) (us : List Nat), Memory.wf s.mem →
    s.mail.loopResults = r :: rest → s.ul.lineTest = some x → x.units = u :: us →
    let failures := x.failures ++ if r = .right then [] else [(u, decide (r = .wrong))]
    (us = [] → x.address < 128 →
      ∃ t, exec .loopOutcome s = .next (finishLink s t) ∧
        OrderEnds x.tag 4 (if failures = [] then .ok else .faulted) x.address s t ∧
        resultByte t.mem x.tag.cell 0 = (x.tested + 1) % 256 ∧ resultByte t.mem x.tag.cell 1 = failures.length % 256 ∧
        (∀ k y, k < 32 → failures[k]? = some y → y.1 < 128 →
          resultByte t.mem x.tag.cell (4 + k) = y.1 + if y.2 then 128 else 0) ∧
        t = { s with
          mem := t.mem, disp := { s.disp with service := t.disp.service }, ul := { s.ul with lineTest := none }
          mail := { s.mail with loopResults := rest, reports := t.mail.reports } }) ∧
    (∀ v vs, us = v :: vs → exec .loopOutcome s = .next (finishLink s
      { s with
        mail.loopResults := rest, ul.sweepQ := s.ul.sweepQ ++ [.loop v x.pattern]
        ul.lineTest := some { x with units := us, tested := x.tested + 1, failures := failures } }))) ∧
  (∀ s : State,
    let units := unitList s.sup.defs
    let capable := attentionCapable { s with ul.units := units }
    let kept := s.ul.roundSet.filter fun u => capable.contains u
    let fresh : Prop := kept = [] ∧ s.ul.uatn = true
    let t := rebuildUnits s
    t.ul.units = units ∧ (fresh → t.ul.roundSet = capable) ∧ (¬fresh → t.ul.roundSet = kept) ∧
      (s.ul.uatn = false ∨ s.ul.attnOut = true ∨ s.part ≠ .running → t.ul.attnQ = s.ul.attnQ ∧ t.ul.attnOut = s.ul.attnOut ∧
        (fresh → t.ul.attnPos = none) ∧ (¬fresh → t.ul.attnPos = s.ul.attnPos)) ∧
      (∀ u, s.ul.uatn = true → s.ul.attnOut = false → s.part = .running →
        (fresh → nextAddress capable none = some u → t.ul.attnQ = some u ∧ t.ul.attnOut = true ∧ t.ul.attnPos = some u) ∧
        (¬fresh → nextAddress kept s.ul.attnPos = some u → t.ul.attnQ = some u ∧ t.ul.attnOut = true ∧ t.ul.attnPos = some u))) ∧
  (∀ s : State, (attentionCapable s).Sublist s.ul.units ∧
    ∀ u, u ∈ attentionCapable s ↔ u ∈ s.ul.units ∧ ∃ d, some d ∈ s.sup.defs ∧ d.unit = u ∧ d.attn = true) ∧
  (∀ (l : List Nat) (pos : Option Nat), l.Pairwise (· < ·) →
    let above (v : Nat) : Prop := ∀ p, pos = some p → p < v
    (nextAddress l pos = none ↔ l = []) ∧
    (∀ u, nextAddress l pos = some u ↔ u ∈ l ∧
      (((∃ v ∈ l, above v) ∧ above u ∧ ∀ v ∈ l, above v → u ≤ v) ∨ ((∀ v ∈ l, ¬above v) ∧ ∀ v ∈ l, u ≤ v))))

/-- KILL and RELEASE_KILL: KILL in CLEAR asserts the kill with cause ORDER, queues one SILENCE and hands the state to the three
blocks; in ASSERTED it changes nothing; RELEASE_KILL is refused LINE_ACTIVE while the filtered line is asserted, clears an
ASSERTED kill and withdraws the waiting kill requests, and changes nothing in CLEAR; the results are the state before and after
and the cause. KILL_INPUT_CHANGE in RUNNING starts or ends a run of the filter; KILL_FILTER_RUN_COMPLETE after the width takes the
raw level, and an asserted line asserts a CLEAR kill with cause LINE (R143, R144, R145, R149). -/
def Obligations.KillControlSteps : Prop :=
  (∀ (s : State) (g : OrderTag) (rest : List Order), Memory.wf s.mem → s.mail.killOrders = .kill g :: rest →
    ∃ t, exec .kill s = .next (finishLink s t) ∧ OrderEnds g 4 .ok 65535 s t ∧ t.kc.asserted = true ∧
      resultByte t.mem g.cell 0 = (if s.kc.asserted then 1 else 0) ∧ resultByte t.mem g.cell 1 = 1 ∧
      resultByte t.mem g.cell 2 = t.kc.cause.toNat ∧
      (s.kc.asserted = true → t.kc = s.kc ∧ t.ul = s.ul ∧ t.mail.killToLinks = s.mail.killToLinks) ∧
      (s.kc.asserted = false → t.kc.cause = .order ∧ t.kc.mutes = List.replicate 96 MuteRec.reset ∧ .silence ∈ t.ul.killQ ∧
        (.silence ∉ s.ul.killQ → t.ul.killQ = s.ul.killQ ++ [.silence]) ∧
        t.mail.killToLinks = s.mail.killToLinks ++ [true] ∧ t.mail.killToTally = s.mail.killToTally ++ [true] ∧
        t.mail.killToRouter = s.mail.killToRouter ++ [true] ∧ t.kc.filter = s.kc.filter ∧ t.kc.width = s.kc.width) ∧
      t.sup = s.sup ∧ t.ctl = s.ctl ∧ t.tally = s.tally ∧ t.router = s.router ∧ t.mail.killOrders = rest) ∧
  (∀ (s : State) (g : OrderTag) (rest : List Order), Memory.wf s.mem → s.mail.killOrders = .releaseKill g :: rest →
    (s.kc.filter.accepted = true →
      ∃ t, exec .releaseKill s = .next (finishLink s t) ∧ OrderEnds g 5 .lineActive 65535 s t ∧
        t = { s with
          mem := t.mem, disp := { s.disp with service := t.disp.service }
          mail := { s.mail with killOrders := rest, reports := t.mail.reports } }) ∧
    (s.kc.filter.accepted = false → s.kc.asserted = true →
      ∃ t, exec .releaseKill s = .next (finishLink s t) ∧ OrderEnds g 4 .ok 65535 s t ∧
        t.kc = { s.kc with asserted := false, cause := .none, mutes := List.replicate 96 MuteRec.reset } ∧
        t.ul = { s.ul with killQ := [] } ∧ t.mail.killToLinks = s.mail.killToLinks ++ [false] ∧
        resultByte t.mem g.cell 0 = 1 ∧ resultByte t.mem g.cell 1 = 0 ∧ resultByte t.mem g.cell 2 = 0 ∧ t.sup = s.sup) ∧
    (s.kc.filter.accepted = false → s.kc.asserted = false →
      ∃ t, exec .releaseKill s = .next (finishLink s t) ∧ OrderEnds g 4 .ok 65535 s t ∧
        t = { s with
          mem := t.mem, disp := { s.disp with service := t.disp.service }
          mail := { s.mail with killOrders := rest, reports := t.mail.reports } })) ∧
  (∀ (s : State) (b : Bool), s.part = .running → b ≠ s.kc.filter.raw →
    exec (.killInputChange b) s = .next (finish s
      { s with kc.filter := { s.kc.filter with
          raw := b, runStart := if b = s.kc.filter.accepted then none else some (s.now, s.tb.elapsed) } })) ∧
  (∀ (s : State) (x : Timestamp) (n : Nat), s.part = .running → s.kc.filter.runStart = some (x, n) →
    n + s.kc.width * 768 ≤ s.tb.elapsed →
    ∃ t, exec .killFilterRunComplete s = .next (finishLink s t) ∧
      t.kc.filter = { raw := s.kc.filter.raw, accepted := s.kc.filter.raw, runStart := none } ∧
      t.kc.asserted = (s.kc.asserted || s.kc.filter.raw) ∧
      t.kc.cause = (if s.kc.asserted = false ∧ s.kc.filter.raw = true then .line else s.kc.cause) ∧ t.mem = s.mem ∧
      t.sup = s.sup ∧ t.ctl = s.ctl)

/-- KILL_MUTE_LIST while ASSERTED: one by one, the MUTE that the list names for each link waits, and kill control keeps what it names;
that a MUTE already waiting stays, that a new one takes the place of any other, and that the state then follows the newest alone, is the
model's choice (notes/assumptions/50). In CLEAR the list is dropped. KILL_MUTE_OUTCOME of the present assertion: an answer ends the MUTE,
reported when the link had failed before; a failure starts the retry timer of one supervision period, and the first of a link is reported
with the ALARM notice. KILL_MUTE_RETRY_EXPIRY: the same MUTE waits again, whatever has
become of the link and of its definition. TALLY_KILL_STATE and ROUTER_KILL_STATE: the two blocks take
the state, a linked camera is SUSPENDED while it is ASSERTED, and no wireless destination is heard; at the release a destination is
heard as R124 gives, by the router's own view of its link. At the release every linked
camera is decided afresh: live, it has a new-content CUE and keeps its delivery state; otherwise it is NO_LINK; a camera without a
linked link is as before (R112, R124, R146). -/
def Obligations.KillMutesAndViews : Prop :=
  (∀ (s : State) (l : List MuteTarget) (rest : List (List MuteTarget)), s.kc.asserted = true → s.mail.muteLists = l :: rest →
    let one (s : State) (x : MuteTarget) : State :=
      let m := s.kc.mutes.getD x.link MuteRec.reset
      if m.state = .waiting then s
      else { s with
        kc.mutes := s.kc.mutes.set x.link { m with state := .waiting, target := some x, serial := m.serial + 1 }
        ul.killQ := s.ul.killQ ++ [.mute x.link s.kc.epoch (m.serial + 1) x.unit x.chan x.roleOut x.roleIn] }
    exec .killMuteList s = .next (finishLink s (l.foldl one { s with mail.muteLists := rest })) ∧
    (∀ x, s.kc.mutes.getD x.link MuteRec.reset = MuteRec.reset → x.link < s.kc.mutes.length → l = [x] →
      ∃ t, exec .killMuteList s = .next (finishLink s t) ∧
        t.ul.killQ = s.ul.killQ ++ [.mute x.link s.kc.epoch 1 x.unit x.chan x.roleOut x.roleIn])) ∧
  (∀ (s : State) (l : List MuteTarget) (rest : List (List MuteTarget)), s.kc.asserted = false → s.mail.muteLists = l :: rest →
    exec .killMuteList s = .next (finishLink s { s with mail.muteLists := rest })) ∧
  (∀ (s : State) (i n : Nat) (ok : Bool) (rest : List (Nat × Nat × Nat × Bool)), s.kc.asserted = true →
    s.mail.killMuteOutcomes = (i, s.kc.epoch, n, ok) :: rest → i < s.kc.mutes.length →
    let old := s.kc.mutes.getD i MuteRec.reset
    let ended : MuteState := if ok then .answered else .retry (s.tb.elapsed + s.sup.settings.periodMs * 768)
    let m : MuteRec := { old with
      state := if old.state = .inProgress ∧ n = old.serial then ended else old.state, failedBefore := old.failedBefore || !ok }
    ∃ t, exec .killMuteOutcome s = .next (finishLink s t) ∧ t.kc = { s.kc with mutes := s.kc.mutes.set i m } ∧
      (ok = false → (s.kc.mutes.getD i MuteRec.reset).failedBefore = false →
        t.jw.notice = s.jw.notice ||| 4 ∧ ∃ r, t.mail.reports = s.mail.reports ++ [(.killControl, r)] ∧ r.kind = .kill ∧
          r.subject = i) ∧
      (ok = true → (s.kc.mutes.getD i MuteRec.reset).failedBefore = true →
        t.jw = s.jw ∧ ∃ r, t.mail.reports = s.mail.reports ++ [(.killControl, r)] ∧ r.kind = .kill ∧ r.subject = i ∧
          r.values = 2 ^ 24) ∧
      ((s.kc.mutes.getD i MuteRec.reset).failedBefore ≠ ok → t.jw = s.jw ∧ t.mail.reports = s.mail.reports) ∧
      t = { s with
        kc := t.kc, jw := { s.jw with notice := t.jw.notice, line := t.jw.line }
        mail := { s.mail with killMuteOutcomes := rest, reports := t.mail.reports } }) ∧
  (∀ (s : State) (x : MuteTarget) (n : Nat), s.part = .running → s.kc.asserted = true →
    let m := s.kc.mutes.getD x.link MuteRec.reset
    m.state = .retry n → m.target = some x → n ≤ s.tb.elapsed →
    exec (.killMuteRetryExpiry x.link) s = .next (finishLink s
      { s with
        kc.mutes := s.kc.mutes.set x.link { m with state := .waiting, serial := m.serial + 1 }
        ul.killQ := s.ul.killQ ++ [.mute x.link s.kc.epoch (m.serial + 1) x.unit x.chan x.roleOut x.roleIn] })) ∧
  (∀ (s : State) (rest : List Bool), s.tally.cams.length = 32 → s.mail.killToTally = true :: rest →
    ∃ t, exec .tallyKillState s = .next (finishLink s t) ∧ t.tally.killed = true ∧
      (∀ c, c < 32 → camOf t c = if (camOf s c).link.isSome
        then { camOf s c with delivery := .suspended, cueOut := false, reports := 0 } else camOf s c) ∧
      (∀ x ∈ t.ul.cueQ, x ∈ s.ul.cueQ ∧ (x.camera < 32 → (camOf s x.camera).link = none)) ∧
      t = { s with
        tally := { s.tally with killed := true, cams := t.tally.cams, epochs := t.tally.epochs }
        ul := { s.ul with cueQ := t.ul.cueQ }, mail := { s.mail with killToTally := rest, reports := t.mail.reports } }) ∧
  (∀ (s : State) (rest : List Bool), s.tally.cams.length = 32 → s.mail.killToTally = false :: rest →
    let live (l : Nat) : Prop := s.tally.linkStates.getD l .vacant ∈ [LinkState.active, .holding, .retuning]
    ∃ t, exec .tallyKillState s = .next (finishLink s t) ∧ t.tally.killed = false ∧
      (∀ c, c < 32 → (camOf s c).link = none → camOf t c = camOf s c) ∧
      (∀ c l, c < 32 → (camOf s c).link = some l → ¬live l →
        camOf t c = { camOf s c with delivery := .noLink, cueOut := false, reports := 0 } ∧ ∀ x ∈ t.ul.cueQ, x.camera ≠ c) ∧
      (∀ c l d, c < 32 → (camOf s c).link = some l → live l → s.tally.defs.getD l none = some d →
        let cue : CueReq :=
          { camera := c, epoch := t.tally.epochs.getD c 0, unit := d.unit, chan := d.chan, colours := (camOf s c).applied
            call := (camOf s c).call, resend := false }
        camOf t c = { camOf s c with cueOut := true, reports := 0 } ∧ cue ∈ t.ul.cueQ ∧
          ∀ x ∈ t.ul.cueQ, x.camera = c → x = cue) ∧
      t = { s with
        tally := { s.tally with killed := false, cams := t.tally.cams, epochs := t.tally.epochs }
        ul := { s.ul with cueQ := t.ul.cueQ }, mail := { s.mail with killToTally := rest, reports := t.mail.reports } }) ∧
  (∀ (s : State) (rest : List Bool), s.mail.killToRouter = true :: rest →
    ∃ t, exec .routerKillState s = .next (finish s t) ∧ t.router.killed = true ∧ t.router.keys = s.router.keys ∧
      t.router.plan = s.router.plan ∧ t.router.staged = (List.range 32).map (stagedRow { s.router with killed := true }) ∧
      (∀ n, n < 32 → (DestRec.at t.router.dests n).heard = decide ((s.router.plan.dest n).kind = .wired)) ∧
      RouterTold s t [] ∧
      t = { s with
        router := t.router
        mail := { s.mail with
          killToRouter := rest, reports := t.mail.reports, callChanges := t.mail.callChanges
          stagedChanges := t.mail.stagedChanges } }) ∧
  (∀ (s : State) (rest : List Bool), s.mail.killToRouter = false :: rest →
    ∃ t, exec .routerKillState s = .next (finish s t) ∧ t.router.killed = false ∧ t.router.keys = s.router.keys ∧
      t.router.plan = s.router.plan ∧ t.router.links = s.router.links ∧ t.router.defs = s.router.defs ∧
      t.router.staged = (List.range 32).map (stagedRow { s.router with killed := false }) ∧
      (∀ n, n < 32 →
        ((s.router.plan.dest n).kind = .wired → (DestRec.at t.router.dests n).heard = true) ∧
        ((s.router.plan.dest n).kind = .unused → (DestRec.at t.router.dests n).heard = false) ∧
        ((s.router.plan.dest n).kind ≠ .wired → effectiveLink s.router.defs (s.router.plan.dest n) = none →
          (DestRec.at t.router.dests n).heard = false) ∧
        (∀ l, (s.router.plan.dest n).kind ≠ .wired → effectiveLink s.router.defs (s.router.plan.dest n) = some l →
          (DestRec.at t.router.dests n).heard = decide (
            ((s.router.links.getD l (.vacant, none)).1 = .active ∨ (s.router.links.getD l (.vacant, none)).1 = .holding) ∧
            ((s.router.links.getD l (.vacant, none)).2 = some .good ∨ (s.router.links.getD l (.vacant, none)).2 = some .degraded)))) ∧
      RouterTold s t [] ∧
      t = { s with
        router := t.router
        mail := { s.mail with
          killToRouter := rest, reports := t.mail.reports, callChanges := t.mail.callChanges
          stagedChanges := t.mail.stagedChanges } })

/-- A colour of a camera is on when an enabled entry of that colour has a matching source that is on and drives that camera; a
source matches where the mask is clear; the lamp is red, green or yellow for programme, preview, iso, in that order (that a spread
entry with camera field 0 drives cameras is the model's choice: notes/assumptions/37).
CONTACT_INPUT_CHANGE in RUNNING: a departure from the accepted level starts a run, a return ends it.
CONTACT_FILTER_RUN_COMPLETE after the group's width: the accepted level takes the raw level and every camera's staged colours are
resolved with the run start as edge timestamp. SET_TALLY: the named virtual sources take their states, colours are resolved, and
the order completes OK with the states and the count of cameras changed. LAMP_APPLY: every camera's applied colours and lamp
take the staged ones, a camera whose colours change and whose delivery is live has a CUE with them queued, the lamp port shows the
applied lamps when some lamp changed, and the count goes to the timebase (R100 to R104, R106, R108; that the cameras of one step
come in ascending order is the model's choice: notes/assumptions/37). -/
def Obligations.TallySources : Prop :=
  (∀ (u : TallyUnit) (camera : Nat), (∀ e ∈ u.map, e.mask < 64) →
    let on (n : Nat) : Prop := (n < 48 ∧ (u.inputs.getD n Filter.reset).accepted = true) ∨
      (48 ≤ n ∧ n < 64 ∧ u.virtuals.getD (n - 48) false = true)
    let drives (k : Colour) : Prop := ∃ e ∈ u.map, e.enable = true ∧ e.colour = some k ∧ ∃ n, on n ∧
      (∀ b, b < 6 → e.mask.testBit b = false → n.testBit b = e.base.testBit b) ∧
      camera = if e.spread then e.camera + (n &&& e.mask) else e.camera
    let k := resolvedColours u camera
    (k.programme = true ↔ drives .programme) ∧ (k.preview = true ↔ drives .preview) ∧ (k.iso = true ↔ drives .iso)) ∧
  (∀ k : Colours, (k.programme = true → k.lamp = .red) ∧ (k.programme = false → k.preview = true → k.lamp = .green) ∧
    (k.programme = false → k.preview = false → k.lamp = if k.iso then .yellow else .off)) ∧
  (∀ (s : State) (n : Nat) (b : Bool), s.part = .running → n < s.tally.inputs.length →
    let f := s.tally.inputs.getD n Filter.reset
    let f' : Filter := { f with raw := b, runStart := if b = f.accepted then none else some (s.now, s.tb.elapsed) }
    b ≠ f.raw → exec (.contactInputChange n b) s = .next (finish s { s with tally.inputs := s.tally.inputs.set n f' })) ∧
  (∀ (s : State) (n e : Nat) (x : Timestamp), s.part = .running → n < s.tally.inputs.length → s.tally.cams.length = 32 →
    let f := s.tally.inputs.getD n Filter.reset
    f.runStart = some (x, e) → e + s.tally.widths.getD (n / 16) 4 * 768 ≤ s.tb.elapsed →
    let f' : Filter := { raw := f.raw, accepted := f.raw, runStart := none }
    let inputs := s.tally.inputs.set n f'
    ∃ t, exec (.contactFilterRunComplete n) s = .next (finishLink s t) ∧ t.tally.inputs = inputs ∧
      (∀ c, c < 32 →
        let k := resolvedColours { s.tally with inputs := inputs } (c + 1)
        camOf t c = if k = (camOf s c).staged then camOf s c
          else { camOf s c with staged := k, stagedLamp := k.lamp, edge := some x }) ∧
      t.mail.tallyChanges = s.mail.tallyChanges ++ (((List.range 32).filter fun c =>
        resolvedColours { s.tally with inputs := inputs } (c + 1) ≠ (camOf s c).staged).map (· + 1)) ∧
      t = { s with
        tally := { s.tally with inputs := inputs, cams := t.tally.cams }
        mail := { s.mail with
          tallyChanges := t.mail.tallyChanges, stagedChanges := t.mail.stagedChanges, reports := t.mail.reports } }) ∧
  (∀ (s : State) (g : OrderTag) (states masks : BitVec 16) (rest : List Order), Memory.wf s.mem →
    s.mail.tallyOrders = .setTally g states masks :: rest → s.tally.virtuals.length = 16 → s.tally.cams.length = 32 →
    ∃ t, exec .setTally s = .next (finishLink s t) ∧ OrderEnds g 4 .ok 65535 s t ∧
      (∀ k, k < 16 → t.tally.virtuals.getD k false =
        if masks.getLsbD k then states.getLsbD k else s.tally.virtuals.getD k false) ∧
      fieldAt t.mem (cellResults g.cell) 2 = virtualWord t.tally.virtuals ∧
      resultByte t.mem g.cell 2 = ((List.range 32).countP fun c => (camOf t c).staged ≠ (camOf s c).staged) ∧
      (t.tally.virtuals ≠ s.tally.virtuals → ∀ c, c < 32 → (camOf t c).staged = resolvedColours t.tally (c + 1)) ∧
      t = { s with
        mem := t.mem, disp := { s.disp with service := t.disp.service }
        tally := { s.tally with virtuals := t.tally.virtuals, cams := t.tally.cams }
        mail := { s.mail with
          tallyOrders := rest, tallyChanges := t.mail.tallyChanges, stagedChanges := t.mail.stagedChanges
          reports := t.mail.reports } }) ∧
  (∀ s : State, s.mail.lampApplySent = true → s.tally.cams.length = 32 →
    ∃ t, exec .lampApply s = .next (finishLink s t) ∧ t.mail.lampApplySent = false ∧
      (∀ c, c < 32 → (camOf t c).applied = (camOf s c).staged ∧ (camOf t c).staged = (camOf s c).staged ∧
        ((camOf s c).staged = (camOf s c).applied → camOf t c = camOf s c) ∧
        ((camOf s c).staged ≠ (camOf s c).applied → (camOf t c).appliedLamp = (camOf s c).stagedLamp)) ∧
      (let live (l : Nat) : Prop := s.tally.killed = false ∧
          s.tally.linkStates.getD l .vacant ∈ [LinkState.active, .holding, .retuning];
        (∀ c l d, c < 32 → (camOf s c).staged ≠ (camOf s c).applied → (camOf s c).link = some l → live l →
          s.tally.defs.getD l none = some d →
          camOf t c = { camOf s c with
            applied := (camOf s c).staged, appliedLamp := (camOf s c).stagedLamp, cueOut := true, reports := 0 } ∧
          { camera := c, epoch := s.tally.epochs.getD c 0, unit := d.unit, chan := d.chan, colours := (camOf s c).staged
            call := (camOf s c).call, resend := false } ∈ t.ul.cueQ) ∧
        (∀ c, c < 32 → (camOf s c).staged ≠ (camOf s c).applied → (∀ l, (camOf s c).link = some l → ¬live l) →
          camOf t c = { camOf s c with applied := (camOf s c).staged, appliedLamp := (camOf s c).stagedLamp }) ∧
        (∀ x ∈ t.ul.cueQ, x ∈ s.ul.cueQ ∨ ((camOf s x.camera).staged ≠ (camOf s x.camera).applied ∧
          ∃ l, (camOf s x.camera).link = some l ∧ live l))) ∧
      t.tally.lampPort = (if appliedLamps t = appliedLamps s then s.tally.lampPort else appliedLamps t) ∧
      t.mail.applyAnswers = s.mail.applyAnswers ++ [(.lamps, (differing s).length)] ∧
      t.mail.tallyChanges = s.mail.tallyChanges ++ (differing s).map (· + 1) ∧
      t = { s with
        tally := { s.tally with cams := t.tally.cams, lampPort := t.tally.lampPort }, ul := { s.ul with cueQ := t.ul.cueQ }
        mail := { s.mail with
          lampApplySent := false, tallyChanges := t.mail.tallyChanges, colourChanges := t.mail.colourChanges
          applyAnswers := t.mail.applyAnswers, reports := t.mail.reports } })

/-- Delivery to the camera c whose linked link is l, the only one linked to it. CALL_CHANGE: the record takes the call, and a
changed call queues a new-content CUE while delivery is live.
LINK_STATE_TO_TALLY: entering ACTIVE, HOLDING or RETUNING queues a CUE with the applied colours, leaving them makes the delivery
NO_LINK. CUE_OUTCOME of a new-content CUE: answered is SENT with the report count 0, failed is UNCONFIRMED; of a resend: CONFIRMED
stays so, an answer leaves the delivery state, and a failure is UNCONFIRMED with the alarm test; a stale outcome is discarded.
TALLY_ECHO_REPORT in SENT with no CUE outstanding: an equal echo is CONFIRMED, the first unequal one is counted, and the second is
UNCONFIRMED with the ALARM notice when programme is applied; in UNCONFIRMED an equal echo is CONFIRMED, and an unequal one queues a
resend while no CUE is outstanding; otherwise it changes nothing (R108 to R111; what makes an outcome stale beyond a waiting CUE, and
the alarm test of a failed resend in UNCONFIRMED, are the model's: notes/assumptions/28; that a resend keeps the report count: 44).
-/
def Obligations.TallyDelivery : Prop :=
  ∀ (s : State) (c l : Nat) (d : LinkDef), s.tally.cams.length = 32 → c < 32 → (camOf s c).link = some l →
    (∀ k, k ≠ c → (camOf s k).link ≠ some l) → s.tally.defs.getD l none = some d → s.tally.killed = false →
    let r := camOf s c
    let others (t : State) : Prop := ∀ k, k ≠ c → camOf t k = camOf s k
    (∀ rest b, s.mail.callChanges = (l, b) :: rest → l < s.tally.calls.length →
      let live : Prop := s.tally.linkStates.getD l .vacant ∈ [LinkState.active, .holding, .retuning]
      ∃ t, exec .callChange s = .next (finishLink s t) ∧ others t ∧ t.tally.calls = s.tally.calls.set l b ∧
        t.mail.callChanges = rest ∧ (r.call = b → camOf t c = r ∧ t.ul = s.ul) ∧
        (r.call ≠ b → ¬live → camOf t c = { r with call := b } ∧ t.ul = s.ul) ∧
        (r.call ≠ b → live → camOf t c = { r with call := b, cueOut := true, reports := 0 } ∧
          { camera := c, epoch := s.tally.epochs.getD c 0, unit := d.unit, chan := d.chan, colours := r.applied, call := b
            resend := false } ∈ t.ul.cueQ)) ∧
    (∀ rest st, s.mail.linkToTally = (l, st) :: rest → l < s.tally.linkStates.length →
      let old := s.tally.linkStates.getD l .vacant
      (liveState old = false → liveState st = true →
        ∃ t x, exec .linkStateToTally s = .next (finishLink s t) ∧ others t ∧ (camOf t c).cueOut = true ∧ (camOf t c).reports = 0 ∧
          x ∈ t.ul.cueQ ∧ x.camera = c ∧ x.unit = d.unit ∧ x.chan = d.chan ∧ x.colours = r.applied ∧ x.call = r.call ∧
          x.resend = false) ∧
      (liveState old = true → liveState st = false →
        ∃ t, exec .linkStateToTally s = .next (finishLink s t) ∧ others t ∧ (camOf t c).delivery = .noLink ∧
          (camOf t c).cueOut = false ∧ (camOf t c).reports = 0 ∧ ∀ x ∈ t.ul.cueQ, x.camera ≠ c)) ∧
    (∀ q ok rest, s.mail.cueOutcomes = (q, ok) :: rest → q.camera = c →
      let newer : Prop := (∃ x ∈ s.ul.cueQ, x.camera = c) ∨ (∃ x ∈ rest, x.1.camera = c) ∨
        ∃ x y, s.ul.xact = some x ∧ x.req = .cueReq y ∧ y.camera = c
      let stale : Prop := newer ∨ r.cueOut = false ∨ q.epoch ≠ s.tally.epochs.getD c 0
      let tested (t : State) : Prop := t.jw.notice = if r.applied.programme then s.jw.notice ||| 4 else s.jw.notice
      (stale → exec .cueOutcome s = .next (finishLink s { s with mail.cueOutcomes := rest })) ∧
      (¬stale →
        ∃ t, exec .cueOutcome s = .next (finishLink s t) ∧ others t ∧ t.ul = s.ul ∧
          (q.resend = false → ok = true →
            camOf t c = { r with cueOut := false, delivery := .sent, reports := 0 } ∧ t.jw = s.jw) ∧
          (q.resend = false → ok = false → camOf t c = { r with cueOut := false, delivery := .unconfirmed } ∧ tested t) ∧
          (q.resend = true → r.delivery = .confirmed ∨ ok = true → camOf t c = { r with cueOut := false } ∧ t.jw = s.jw) ∧
          (q.resend = true → r.delivery ≠ .confirmed → ok = false →
            camOf t c = { r with cueOut := false, delivery := .unconfirmed } ∧ tested t))) ∧
    (∀ p rest, s.mail.tallyReports = p :: rest → p.unit = d.unit →
      (∀ k m e, k ≠ c → (camOf s k).link = some m → s.tally.defs.getD m none = some e → e.unit ≠ d.unit) →
      let same : Prop := p.echoOn d.chan = r.applied
      let nothing : Prop := exec .tallyEchoReport s = .next (finishLink s { s with mail.tallyReports := rest })
      (p.channels.length ≤ d.chan → p.echoOn d.chan = Colours.off) ∧
      (∀ x, p.channels[d.chan]? = some x → p.echoOn d.chan = x.echo) ∧
      (r.delivery = .sent → r.cueOut = false →
        ∃ t, exec .tallyEchoReport s = .next (finishLink s t) ∧ others t ∧ t.ul = s.ul ∧
          (same → camOf t c = { r with delivery := .confirmed } ∧ t.jw = s.jw) ∧
          (¬same → r.reports = 0 → camOf t c = { r with reports := 1 } ∧ t.jw = s.jw) ∧
          (¬same → r.reports = 1 → camOf t c = { r with delivery := .unconfirmed, reports := 2 } ∧
            t.jw.notice = if r.applied.programme then s.jw.notice ||| 4 else s.jw.notice)) ∧
      (r.delivery = .unconfirmed → same →
        ∃ t, exec .tallyEchoReport s = .next (finishLink s t) ∧ others t ∧ camOf t c = { r with delivery := .confirmed } ∧
          t.jw = s.jw ∧ t.ul = s.ul) ∧
      (r.delivery = .unconfirmed → ¬same → r.cueOut = false →
        ∃ t, exec .tallyEchoReport s = .next (finishLink s t) ∧ others t ∧ camOf t c = { r with cueOut := true } ∧ t.jw = s.jw ∧
          { camera := c, epoch := s.tally.epochs.getD c 0, unit := d.unit, chan := d.chan, colours := r.applied, call := r.call
            resend := true } ∈ t.ul.cueQ) ∧
      (r.delivery = .unconfirmed → ¬same → r.cueOut = true → nothing) ∧
      (r.delivery = .sent → r.cueOut = true → nothing) ∧
      (r.delivery ∈ [.confirmed, .noLink, .suspended] → nothing))

/-- CLEAR_KEYS: every key of the source, or every key, of either origin, leaves the key table in one step, the others keep their
records; no destination keeps a route of a removed key; the order completes DONE with OK and the count removed; and the key
images of the beltpacks are unchanged, so that a key still held gives no press until it is released and pressed again: the same
bits in its next REPORT change nothing; the routes, calls and rows that changed are told, and then the ORDER entry (R121, R125, R127,
R132; that the completion names no subject is the model's choice: notes/assumptions/26).
-/
def Obligations.ClearKeysRemovesBySource : Prop :=
  (∀ (s : State) (g : OrderTag) (f : Option Nat) (rest : List Order), Memory.wf s.mem →
    s.mail.routerOrders = .clearKeys g f :: rest → s.router.keys.length = 64 →
    ∃ t, exec .clearKeys s = .next (finish s t) ∧ OrderEnds g 4 .ok 65535 s t ∧
      (∀ k, t.router.keys.getD k none = (s.router.keys.getD k none).bind fun x =>
        if f.all (fun n => x.source = n) then none else some x) ∧
      resultByte t.mem g.cell 0 = (s.router.keys.countP fun x => x.any fun y => f.all fun n => y.source = n) ∧
      (∀ n k st, n < 32 → (k, st) ∈ (DestRec.at t.router.dests n).routes →
        ∃ x, t.router.keys.getD k none = some x ∧ f.all (fun n => x.source = n) = false) ∧
      t.router.images = s.router.images ∧ RouterTold s t [(.router, orderReport g .ok 4 s)] ∧
      t = { s with
        mem := t.mem, disp := { s.disp with service := t.disp.service }, router := t.router
        mail := { s.mail with
          routerOrders := rest, reports := t.mail.reports, callChanges := t.mail.callChanges
          stagedChanges := t.mail.stagedChanges } }) ∧
  (∀ (s : State) (r : Report) (rest : List Report), s.mail.routerReports = r :: rest →
    (∀ (l : Nat) (d : LinkDef) (x : ChanReport), s.router.defs.getD l none = some d → d.kind = .beltpack → d.unit = r.unit →
      r.channels[d.chan]? = some x → s.router.images.getD l none = some (x.key0, x.key1)) →
    exec .beltpackKeyReport s = .next (finish s { s with mail.routerReports := rest }))

/-- The talkback router. KEY of an unusable pair: WRONG_STATE; otherwise TABLE 7-3: a PRESS of a pair without a key creates it in
the lowest free record, stamped now and with a level below -20.0 dB raised to it, or ends TABLE_FULL with none free; a LATCH PRESS of a pair with a key, and a MOMENTARY RELEASE
of one with a MOMENTARY key, remove it; every other press or release leaves the keys as they are; the results carry the record, the
outcome and the number of destinations the key reaches (of a refused KEY: FFh, UNCHANGED and 0, notes/assumptions/25). Each change tells
the ROUTE entries, the calls and the staged rows that changed, and then the ORDER entry. BELTPACK_KEY_REPORT of an unknown
image sets it and makes no edge; a known image takes the new bits, and each that differs is an edge, key 0 before key 1; an edge of
an enabled and usable binding acts by TABLE 7-3 with origin BELTPACK, any other does nothing, and a PRESS with no free record is
reported DROPPED; the edges of several links on the unit come in ascending link index, each acting by itself (the model's choice,
as the values 0 of a DROPPED entry: notes/assumptions/42). ROUTER_TALLY_COLOURS and LINK_STATE_TO_ROUTER: the router's view takes
them and every row is recomputed. CROSSPOINT_APPLY: the applied image takes the staged one, the differing words (all of them at the
first apply) are placed in ascending order, one that waits for the same crosspoint being replaced in its place, and their number is
answered; an idle port begins the oldest. CROSSPOINT_WORD_SENT: the oldest waiting word is begun (R119, R120, R124, R125, R127 to R129, R132; the
order of the entries of deleted routes, and of the calls, is the model's: notes/assumptions/34 and 45). -/
def Obligations.RouterSteps : Prop :=
  let seenWith (a b : State) (router : Router) (more : List (Owner × JReport)) : Prop :=
    b.router = router.recompute ∧ RouterTold a b more ∧ b = { a with
      router := b.router
      mail := { a.mail with
        reports := b.mail.reports, callChanges := b.mail.callChanges, stagedChanges := b.mail.stagedChanges } }
  let seen (a b : State) (router : Router) : Prop := seenWith a b router []
  let free (r : Router) (k : Nat) : Prop := r.keys[k]? = some none ∧ ∀ j, j < k → r.keys[j]? ≠ some none
  let noKey (r : Router) (n m k : Nat) : Prop := ∀ (j : Nat) (z : KeyRec), j < k → r.keys[j]? = some (some z) →
    ¬(z.source = n ∧ z.dest = m)
  let standing (r : Router) (n m k : Nat) (y : KeyRec) : Prop :=
    r.keys[k]? = some (some y) ∧ y.source = n ∧ y.dest = m ∧ noKey r n m k
  let removes (latch press : Bool) (y : KeyRec) : Prop :=
    (press = true ∧ latch = true) ∨ (press = false ∧ latch = false ∧ y.latch = false)
  (∀ (s : State) (g : OrderTag) (n m p : Nat) (latch press : Bool) (v : Int) (rest : List Order), Memory.wf s.mem → m < 40 →
    s.router.keys.length = 64 → s.mail.routerOrders = .key g n m p latch press v :: rest →
    let key : KeyRec := { source := n, dest := m, priority := p, latch := latch, level := if v < -40 then -40 else v
                          byBeltpack := false, keyed := s.now }
    let wrote (t : State) (index outcome routes : Nat) : Prop := resultByte t.mem g.cell 0 = index ∧
      resultByte t.mem g.cell 1 = outcome ∧ resultByte t.mem g.cell 2 = routes
    let reached (y : KeyRec) : Nat := (List.range 32).countP (keyReaches s.router y)
    let taken (t : State) : State := { s with
      mem := t.mem, disp := { s.disp with service := t.disp.service }, mail.routerOrders := rest }
    let ended (t : State) (index outcome routes : Nat) : Prop := exec .key s = .next (finish s t) ∧ OrderEnds g 4 .ok m s t ∧
      wrote t index outcome routes
    let recomputed (t : State) (r : Router) : Prop := seenWith (taken t) t r [(.router, orderReport g .ok 4 s)]
    let same (t : State) : Prop := t = { taken t with mail.reports := s.mail.reports ++ [(.router, orderReport g .ok 4 s)] }
    let refused (code : ResultCode) : Prop :=
      ∃ t, exec .key s = .next (finish s t) ∧ OrderEnds g 5 code m s t ∧ wrote t 255 2 0 ∧
        t = { taken t with mail.reports := s.mail.reports ++ [(.router, orderReport g code 5 s)] }
    (s.router.plan.usable n m = false → refused .wrongState) ∧
    (s.router.plan.usable n m = true → noKey s.router n m 64 → press = true →
      (∀ k, free s.router k →
        ∃ t, ended t k 0 (reached key) ∧ recomputed t { s.router with keys := s.router.keys.set k (some key) }) ∧
      ((∀ x ∈ s.router.keys, x ≠ none) → refused .tableFull)) ∧
    (s.router.plan.usable n m = true → noKey s.router n m 64 → press = false → ∃ t, ended t 255 2 0 ∧ same t) ∧
    (∀ k y, s.router.plan.usable n m = true → standing s.router n m k y →
      (removes latch press y → ∃ t, ended t k 1 (reached y) ∧
        recomputed t { s.router with keys := s.router.keys.set k none }) ∧
      (¬removes latch press y → ∃ t, ended t k 2 0 ∧ same t))) ∧
  (∀ (s : State) (i k : Nat) (press : Bool) (b : Binding), s.router.keys.length = 64 →
    s.router.plan.bindings[2 * i + k]? = some b →
    let key : KeyRec := { source := b.source, dest := b.dest, priority := b.priority, latch := b.latch, level := b.level
                          byBeltpack := true, keyed := s.now }
    let e : Edge := { link := i, key := k, press := press }
    (b.enable = false ∨ s.router.plan.usable b.source b.dest = false → keyEdge s e = s) ∧
    (b.enable = true → s.router.plan.usable b.source b.dest = true →
      (noKey s.router b.source b.dest 64 → press = true →
        (∀ j, free s.router j → seen s (keyEdge s e) { s.router with keys := s.router.keys.set j (some key) }) ∧
        ((∀ x ∈ s.router.keys, x ≠ none) → keyEdge s e = { s with mail.reports := s.mail.reports ++ [(.router,
          { kind := .route, stamp := s.now, subject := b.dest, values := 0, dropped := true, clamped := false
            flagOf := if b.dest < 32 then .dest b.dest else .nowhere, notice := .none })] })) ∧
      (noKey s.router b.source b.dest 64 → press = false → keyEdge s e = s) ∧
      (∀ j y, standing s.router b.source b.dest j y →
        (removes b.latch press y → seen s (keyEdge s e) { s.router with keys := s.router.keys.set j none }) ∧
        (¬removes b.latch press y → keyEdge s e = s)))) ∧
  (∀ (s : State) (r : Report) (rest : List Report) (i : Nat) (d : LinkDef) (x : ChanReport), i < 96 →
    s.mail.routerReports = r :: rest → s.router.defs.getD i none = some d → d.kind = .beltpack → d.unit = r.unit →
    r.channels[d.chan]? = some x → (∀ j e, j ≠ i → s.router.defs.getD j none = some e → e.unit ≠ r.unit) →
    let taken : State := { s with mail.routerReports := rest, router.images := s.router.images.set i (some (x.key0, x.key1)) }
    (s.router.images.getD i none = none → exec .beltpackKeyReport s = .next (finish s taken)) ∧
    (∀ o0 o1, s.router.images.getD i none = some (o0, o1) →
      let first := if o0 = x.key0 then taken else keyEdge taken { link := i, key := 0, press := x.key0 }
      exec .beltpackKeyReport s = .next (finishPath (beltpackKeyPath s) s
        (if o1 = x.key1 then first else keyEdge first { link := i, key := 1, press := x.key1 })))) ∧
  (∀ (s : State) (r : Report) (rest : List Report), s.mail.routerReports = r :: rest →
    let shows (l : Nat) (x : ChanReport) : Prop := ∃ d, s.router.defs.getD l none = some d ∧ d.kind = .beltpack ∧
      d.unit = r.unit ∧ r.channels[d.chan]? = some x
    let edges := edgesOf r s.router
    (∀ e, e ∈ edges ↔ e.link < 96 ∧ ∃ x o, shows e.link x ∧ s.router.images.getD e.link none = some o ∧
      ((e.key = 0 ∧ e.press = x.key0 ∧ o.1 ≠ x.key0) ∨ (e.key = 1 ∧ e.press = x.key1 ∧ o.2 ≠ x.key1))) ∧
    edges.Pairwise (fun a b => a.link < b.link ∨ (a.link = b.link ∧ a.key < b.key)) ∧
    ∃ images : List (Option (Bool × Bool)), images.length = s.router.images.length ∧
      (∀ l, l < images.length → (∀ x, shows l x → images.getD l none = some (x.key0, x.key1)) ∧
        ((∀ x, ¬shows l x) → images.getD l none = s.router.images.getD l none)) ∧
      let taken : State := { s with mail.routerReports := rest, router.images := images }
      (∀ n, n < edges.length → (beltpackKeyPath s)[n]? = some ((edges.take (n + 1)).foldl keyEdge taken)) ∧
      (beltpackKeyPath s).length = edges.length ∧
      exec .beltpackKeyReport s = .next (finishPath (beltpackKeyPath s) s (edges.foldl keyEdge taken))) ∧
  (∀ (s : State) (cams : List (Nat × Colours)) (rest : List (List (Nat × Colours))), s.mail.colourChanges = cams :: rest →
    ∃ t, exec .routerTallyColours s = .next (finish s t) ∧ seen { s with mail.colourChanges := rest } t
      { s.router with colours := cams.foldl (fun l c => l.set c.1 c.2) s.router.colours }) ∧
  (∀ (s : State) (i : Nat) (st : LinkState) (h : Option Health) (rest : List (Nat × LinkState × Option Health)),
    s.mail.linkToRouter = (i, st, h) :: rest →
    ∃ t, exec .linkStateToRouter s = .next (finish s t) ∧ seen { s with mail.linkToRouter := rest } t
      { s.router with links := s.router.links.set i (st, h) }) ∧
  (∀ s : State, s.mail.xpApplySent = true →
    let staged (d i : Nat) : Nat := (s.router.staged.getD d []).getD i 0
    let words : List XWord := (List.range 32).flatMap fun d => ((List.range 28).filter fun i =>
      s.router.imageSent = false ∨ staged d i ≠ (s.router.applied.getD d []).getD i 0).map fun i =>
        { output := d, input := i, code := staged d i }
    let queue := words.foldl placeWord s.router.portQueue
    exec .crosspointApply s = .next (finish s
      { s with
        router := { s.router with
          applied := s.router.staged, imageSent := true
          portQueue := if s.router.portSending = none then queue.tail else queue
          portSending := if s.router.portSending = none then queue.head? else s.router.portSending }
        mail := { s.mail with
          xpApplySent := false, applyAnswers := s.mail.applyAnswers ++ [(.crosspoints, words.length)] } })) ∧
  (∀ (q : List XWord) (w : XWord),
    let same (x : XWord) : Prop := x.output = w.output ∧ x.input = w.input
    ((∀ x ∈ q, ¬same x) → placeWord q w = q ++ [w]) ∧
    ((∃ x ∈ q, same x) → (placeWord q w).length = q.length ∧
      ∀ (n : Nat) (x : XWord), q[n]? = some x → (same x → (placeWord q w)[n]? = some w) ∧ (¬same x → (placeWord q w)[n]? = some x))) ∧
  (∀ k : Nat, routeValue k none = k ∧ routeValue k (some .slotted) = k + 256 ∧ routeValue k (some .waiting) = k + 512 ∧
    routeValue k (some .merged) = k + 768 ∧ routeValue k (some .excludedSelf) = k + 1024 ∧
    heardValue true = 2 ^ 23 + 1 ∧ heardValue false = 2 ^ 23) ∧
  (∀ (s : State) (w : XWord), s.router.portSending = some w →
    exec .crosspointWordSent s = .next (finish s
      { s with router := { s.router with portSending := s.router.portQueue.head?, portQueue := s.router.portQueue.tail } }))

/-- What the router computes for a destination. A key reaches the destination it names, or the members of its group (R116). Each
such key is a route: EXCLUDED_SELF when source and destination are one beltpack, MERGED when a route of the same source precedes
it, and otherwise in the list, which is kept by priority, then keyed time, then key index: its first four SLOTTED, the rest WAITING
(R122, R123; that the routes outside the list come after it in the record, and that an older time is the lesser reading, also across
midnight or a SET_CLOCK, are the model's choices: notes/assumptions/42 and 43). The heard state (R124), the call of a camera link (R125), and the codes of the staged row by the sum-law attenuation
and the gain rules (R126, TABLE 7-4). -/
def Obligations.RoutesAndGains : Prop :=
  (∀ (r : Router) (d : Nat), d < 32 →
    let q := r.recompute
    let x := DestRec.at q.dests d
    let dest := r.plan.dest d
    let inList (st : RouteState) : Prop := st = .slotted ∨ st = .waiting
    let route (k : Nat) (y : KeyRec) : Prop := r.keys[k]? = some (some y) ∧ keyReaches r y d = true
    let older (a b : Timestamp) : Prop :=
      a.sec < b.sec ∨ (a.sec = b.sec ∧ (a.frame < b.frame ∨ (a.frame = b.frame ∧ a.tick < b.tick)))
    let before (j : Nat) (z : KeyRec) (k : Nat) (y : KeyRec) : Prop :=
      y.priority < z.priority ∨ (z.priority = y.priority ∧ (older z.keyed y.keyed ∨ (z.keyed = y.keyed ∧ j < k)))
    let self (y : KeyRec) : Prop := (r.plan.source y.source).kind = .beltpack ∧ dest.kind = .beltpack ∧
      ∃ l, (r.plan.source y.source).link = some l ∧ dest.link = some l
    let n := x.routes.countP fun y => y.2 = .slotted
    x.kind = dest.kind ∧ x.link = effectiveLink r.defs dest ∧ (x.routes.map (·.1)).Nodup ∧
    (∀ k, (∃ st, (k, st) ∈ x.routes) ↔ ∃ y, route k y) ∧
    (∀ k y st, route k y → (k, st) ∈ x.routes →
      (st = .excludedSelf ↔ self y) ∧
      (st = .merged ↔ ¬self y ∧ ∃ j z, route j z ∧ z.source = y.source ∧ before j z k y)) ∧
    (∀ (a j : Nat) (st : RouteState), x.routes[a]? = some (j, st) → (st = .slotted → a < 4) ∧ (st = .waiting → 4 ≤ a)) ∧
    (∀ (a b j k : Nat) (st st' : RouteState) (z y : KeyRec), x.routes[a]? = some (j, st) → x.routes[b]? = some (k, st') → route j z → route k y → inList st →
      (inList st' → a < b → before j z k y) ∧ (¬inList st' → a < b)) ∧
    (x.heard = true ↔ dest.kind = .wired ∨ (dest.kind ≠ .unused ∧ r.killed = false ∧
      ∃ l st h, effectiveLink r.defs dest = some l ∧ r.links.getD l (.vacant, none) = (st, h) ∧
        (st = .active ∨ st = .holding) ∧ (h = some .good ∨ h = some .degraded))) ∧
    (dest.kind = .unused → ∀ i, (q.staged.getD d []).getD i 0 = 0) ∧
    (dest.kind ≠ .unused → ∀ i, i < 24 →
      (∀ k y, (k, .slotted) ∈ x.routes → route k y → y.source = i →
        (q.staged.getD d []).getD i 0 = gainCode ((r.plan.source i).trim + y.level + dest.trim - attenuation n)) ∧
      ((∀ k y, (k, .slotted) ∈ x.routes → route k y → y.source ≠ i) → (q.staged.getD d []).getD i 0 = 0)) ∧
    (dest.kind ≠ .unused → ∀ b, b < 4 → (q.staged.getD d []).getD (24 + b) 0 =
      if dest.bus = some b then gainCode (dest.level + dest.trim - if 1 ≤ n then dest.dim else 0) else 0)) ∧
  (∀ (r : Router) (y : KeyRec) (d : Nat),
    let dest := r.plan.dest d
    let shows (has : Colours → Bool) : Prop := dest.kind = .camera ∧
      ∃ l e c, effectiveLink r.defs dest = some l ∧ r.defs.getD l none = some e ∧ e.camera = c + 1 ∧
        has (r.colours.getD c Colours.off) = true
    (y.dest < 32 → (keyReaches r y d = true ↔ y.dest = d)) ∧
    (32 ≤ y.dest →
      let g := r.plan.group (y.dest - 32)
      (g.kind = .unused → keyReaches r y d = false) ∧
      (g.kind = .fixed → (keyReaches r y d = true ↔ g.members.getLsbD d = true ∧ dest.kind ≠ .unused)) ∧
      (g.kind = .programmeCameras → (keyReaches r y d = true ↔ shows (·.programme))) ∧
      (g.kind = .previewCameras → (keyReaches r y d = true ↔ shows (·.preview))) ∧
      (g.kind = .isoCameras → (keyReaches r y d = true ↔ shows (·.iso))))) ∧
  (∀ (r : Router) (l : Nat), l < 96 →
    (r.recompute.calls.getD l false = true ↔ (∃ e, r.defs.getD l none = some e ∧ e.kind = .camera) ∧
      ∃ d k, d < 32 ∧ effectiveLink r.defs (r.plan.dest d) = some l ∧ (k, .slotted) ∈ (DestRec.at r.recompute.dests d).routes)) ∧
  (List.range 5).map attenuation = [0, 0, 6, 10, 12] ∧
  (∀ g : Int, (24 < g → gainCode g = 185) ∧ (g < -160 → gainCode g = 0) ∧
    (-160 ≤ g → g ≤ 24 → (gainCode g : Int) = g + 161))

/-- The timebase. FRAME_BOUNDARY in RUNNING with nothing waiting: the frame counts, wrapping at the rate, and the seconds of day
wrap at 86,400, and elapsed time goes on by the ticks that were left of the frame, in units of 1/768,000 s (the model's choice:
notes/assumptions/4, as is that a pulse adds nothing). FRAME_PULSE below tick 192 is ignored; from 192 on it makes the boundary and the
reference LOCKED. Either boundary requests an apply of each output whose set has FRAME. TAKE input and
its filter as a contact's; its edge requests an apply of each output whose set has TAKE. STAGED_CHANGE requests one where the set
has CHANGE. APPLY: WRONG_STATE when a named output's set lacks ORDER, else WORKING with a request for each; APPLY_ANSWER clears
the output's flag and completes the orders that waited for it last. SET_CLOCK: BUSY while one waits, else it waits for the next
boundary, of a tick or of a pulse, which sets the reading, reports it with the counted one, and completes it with both readings, the cell's
flags staying as they are (that its frame brought to rate - 1 sets no CLAMPED, where TABLE 10-3 lists it as clamped: notes/assumptions/18).
A boundary adds one to a running delay count of the JOURNAL notice, up to the
delay (R134 to R137, R139 to R142, R168; that a SET_CLOCK names no subject, and that its
completion carries the set reading, are the model's choices: notes/assumptions/26 and 47). -/
def Obligations.TimebaseSteps : Prop :=
  let counted (s t : State) : Prop :=
    (s.jw.delayCount = none → t.jw = s.jw) ∧
    (∀ n, s.jw.delayCount = some n → t.jw = { s.jw with delayCount := some (if n < s.jw.delayFrames then n + 1 else n) })
  let requested (s t : State) : Prop :=
    t.tb.lampFlag = (s.tb.lampFlag || s.tb.lampSet.frame) ∧ t.tb.xpFlag = (s.tb.xpFlag || s.tb.xpSet.frame) ∧
    t.mail.lampApplySent = (s.mail.lampApplySent || (s.tb.lampSet.frame && !s.tb.lampFlag)) ∧
    t.mail.xpApplySent = (s.mail.xpApplySent || (s.tb.xpSet.frame && !s.tb.xpFlag))
  (∀ s : State, s.part = .running → s.tb.clockWait = none → s.tb.buffered = none → s.tb.locked = false →
    ∃ t, exec .frameBoundary s = .next (finish s t) ∧ t.tb.tick = 0 ∧
      t.tb.elapsed = s.tb.elapsed + (256 - s.tb.tick) * (3000 / s.tb.rate) ∧
      t.tb.frame = (if s.tb.rate ≤ s.tb.frame + 1 then 0 else s.tb.frame + 1) ∧
      t.tb.sec = (if s.tb.rate ≤ s.tb.frame + 1 then (s.tb.sec + 1) % 86400 else s.tb.sec) ∧ t.tb.rate = s.tb.rate ∧
      requested s t ∧ counted s t ∧ t.mem = s.mem ∧ t.sup = s.sup ∧
      t.tally = s.tally) ∧
  (∀ s : State, s.tb.tick < 192 → exec .framePulse s = .next (finish s s)) ∧
  (∀ s : State, s.part = .running → 192 ≤ s.tb.tick → s.tb.clockWait = none → s.tb.buffered = none →
    ∃ t, exec .framePulse s = .next (finish s t) ∧ t.tb.tick = 0 ∧ t.tb.locked = true ∧ t.tb.misses = 0 ∧
      t.tb.elapsed = s.tb.elapsed ∧ counted s t ∧ requested s t ∧
      t.tb.frame = (if s.tb.rate ≤ s.tb.frame + 1 then 0 else s.tb.frame + 1)) ∧
  (∀ (s : State) (b : Bool), s.part = .running → b ≠ s.tb.takeFilter.raw →
    exec (.takeInputChange b) s = .next (finish s
      { s with tb.takeFilter := { s.tb.takeFilter with
          raw := b, runStart := if b = s.tb.takeFilter.accepted then none else some (s.now, s.tb.elapsed) } })) ∧
  (∀ (s : State) (x : Timestamp) (n : Nat), s.part = .running → s.tb.takeFilter.runStart = some (x, n) →
    n + s.tb.takeWidth * 768 ≤ s.tb.elapsed →
    ∃ t, exec .takeFilterRunComplete s = .next (finish s t) ∧
      t.tb.takeFilter = { raw := s.tb.takeFilter.raw, accepted := s.tb.takeFilter.raw, runStart := none } ∧
      (t.tb.lampFlag = true ↔ s.tb.lampFlag = true ∨ (s.tb.takeFilter.raw = true ∧ s.tb.lampSet.take = true)) ∧
      (t.tb.xpFlag = true ↔ s.tb.xpFlag = true ∨ (s.tb.takeFilter.raw = true ∧ s.tb.xpSet.take = true)) ∧
      t = { s with
        tb := { s.tb with takeFilter := t.tb.takeFilter, lampFlag := t.tb.lampFlag, xpFlag := t.tb.xpFlag }
        mail := { s.mail with lampApplySent := t.mail.lampApplySent, xpApplySent := t.mail.xpApplySent } }) ∧
  (∀ (s : State) (rest : List Output), s.mail.stagedChanges = .crosspoints :: rest →
    exec .stagedChange s = .next (finish s
      (if s.tb.xpSet.change = true ∧ s.tb.xpFlag = false then
        { s with mail.stagedChanges := rest, tb.xpFlag := true, mail.xpApplySent := true }
       else { s with mail.stagedChanges := rest }))) ∧
  (∀ (s : State) (g : OrderTag) (rest : List Order), Memory.wf s.mem → s.mail.timebaseOrders = .apply g true false :: rest →
    (s.tb.lampSet.order = false →
      ∃ t, exec .apply s = .next (finish s t) ∧ OrderEnds g 5 .wrongState 65535 s t ∧ t.tb = s.tb ∧
        t.mail.timebaseOrders = rest ∧ t.mail.lampApplySent = s.mail.lampApplySent) ∧
    (s.tb.lampSet.order = true →
      ∃ t, exec .apply s = .next (finish s t) ∧ OrderWorks g s t ∧ t.tb.lampFlag = true ∧
        t.mail.lampApplySent = (s.mail.lampApplySent || !s.tb.lampFlag) ∧
        t = { s with
          mem := t.mem
          tb := { s.tb with
            lampFlag := true, applies := s.tb.applies ++ [{ tag := g, lampWait := .waiting, xpWait := .notNamed }] }
          mail := { s.mail with timebaseOrders := rest, lampApplySent := t.mail.lampApplySent } })) ∧
  (∀ (s : State) (n : Nat) (rest : List (Output × Nat)) (a : ApplyOrder), Memory.wf s.mem →
    s.mail.applyAnswers = (.lamps, n) :: rest → s.tb.applies = [a] → a.lampWait = .waiting → a.xpWait = .notNamed →
    ∃ t, exec .applyAnswer s = .next (finish s t) ∧ OrderEnds a.tag 4 .ok 65535 s t ∧
      fieldAt t.mem (cellResults a.tag.cell) 2 = n % 65536 ∧
      t = { s with
        mem := t.mem, disp := { s.disp with service := t.disp.service }, tb := { s.tb with lampFlag := false, applies := [] }
        mail := { s.mail with applyAnswers := rest, reports := t.mail.reports } }) ∧
  (∀ (s : State) (g : OrderTag) (sec frame : Nat) (rest : List Order), Memory.wf s.mem →
    s.mail.timebaseOrders = .setClock g sec frame :: rest →
    (s.tb.clockWait.isSome = true →
      ∃ t, exec .setClock s = .next (finish s t) ∧ OrderEnds g 5 .busy 65535 s t ∧ t.tb = s.tb) ∧
    (s.tb.clockWait = none →
      ∃ t, exec .setClock s = .next (finish s t) ∧ OrderWorks g s t ∧
        t = { s with
          mem := t.mem, tb.clockWait := some (g, sec, min frame (s.tb.rate - 1)), mail.timebaseOrders := rest })) ∧
  (∀ (s : State) (c : Instr) (g : OrderTag) (sec frame : Nat), Memory.wf s.mem → s.part = .running →
    s.tb.clockWait = some (g, sec, frame) → c = .frameBoundary ∨ (c = .framePulse ∧ 192 ≤ s.tb.tick) →
    let wraps : Prop := s.tb.rate ≤ s.tb.frame + 1
    let was : Timestamp := { sec := if wraps then (s.tb.sec + 1) % 86400 else s.tb.sec
                             frame := if wraps then 0 else s.tb.frame + 1, tick := 0 }
    let is : Timestamp := { sec := sec, frame := frame, tick := 0 }
    ∃ t more, exec c s = .next (finish s t) ∧ t.tb.sec = sec ∧ t.tb.frame = frame ∧ t.tb.tick = 0 ∧
      t.tb.clockWait = none ∧ OrderEnds g 4 .ok 65535 s t ∧ requested s t ∧
      fieldAt t.mem (cellResults g.cell) 4 = was.word % 2 ^ 32 ∧ fieldAt t.mem (cellResults g.cell + 4) 4 = is.word % 2 ^ 32 ∧
      byteAt t.mem (cellBase g.cell + 5) = byteAt s.mem (cellBase g.cell + 5) ∧
      t.mail.reports = s.mail.reports ++ ([
        (.timebase, { kind := .timebase, stamp := is, subject := 2
                      values := was.frame + was.sec * 64 + (frame + sec * 64) * 2 ^ 24, dropped := false, clamped := false
                      flagOf := .referenceFlag, notice := .none }),
        (.timebase, { kind := .order, stamp := is, subject := g.cell, values := g.kind + (ResultCode.ok.toNat + 4 * 256) * 2 ^ 24
                      dropped := false, clamped := g.clamped, flagOf := .cell g.cell, notice := .order })] ++ more) ∧
      (s.tb.buffered = none → (s.tb.locked = true ↔ c = .framePulse) → more = []))

/-- The reference, the rate and the orders of both outputs. An internal boundary while LOCKED counts a miss, and the second makes the
reference FREE, reported and with the ALARM notice; while FREE no miss is counted. A pulse that locks reports the change and raises
nothing. A buffered rate comes into force, and is reported, at a boundary whose frame is 0, counted or set by a SET_CLOCK, and waits
at any other. With no command waiting, a tick at 255 is such a boundary. STAGED_CHANGE of the lamps requests an apply where their set
has CHANGE. APPLY of both outputs: WRONG_STATE with counts of 0 when either set lacks ORDER, else one request for each; the order
completes at the second of its answers with both counts, whichever comes first; APPLY of the crosspoints alone acts on them alone; two
APPLY orders that wait for one request complete at its answer with the same count (R134 to R137, R140 to R142; the tick of an empty queue,
the counts of 0 and the absent subject of a refused APPLY, and that the older of two orders ends first, are the model's choice:
notes/assumptions/4, 25, 26 and 45). -/
def Obligations.TimebaseReference : Prop :=
  let counted (s t : State) : Prop := t.tb.tick = 0 ∧
    t.tb.frame = (if s.tb.rate ≤ s.tb.frame + 1 then 0 else s.tb.frame + 1) ∧
    t.tb.sec = (if s.tb.rate ≤ s.tb.frame + 1 then (s.tb.sec + 1) % 86400 else s.tb.sec)
  let told (s t : State) (subject old new : Nat) : Prop := ∃ r : JReport, t.mail.reports = s.mail.reports ++ [(.timebase, r)] ∧
    r.kind = .timebase ∧ r.subject = subject ∧ r.values = old + new * 2 ^ 24 ∧ r.flagOf = .referenceFlag
  (∀ s : State, s.part = .running → s.tb.clockWait = none → s.tb.buffered = none →
    ∃ t, exec .frameBoundary s = .next (finish s t) ∧ counted s t ∧ t.tb.rate = s.tb.rate ∧
      (s.tb.locked = true → s.tb.misses + 1 < 2 → t.tb.locked = true ∧ t.tb.misses = s.tb.misses + 1 ∧
        t.jw.notice = s.jw.notice ∧ t.mail.reports = s.mail.reports) ∧
      (s.tb.locked = true → 2 ≤ s.tb.misses + 1 → t.tb.locked = false ∧ t.jw.notice = s.jw.notice ||| 4 ∧ told s t 0 1 0) ∧
      (s.tb.locked = false → t.tb.locked = false ∧ t.tb.misses = s.tb.misses ∧ t.jw.notice = s.jw.notice ∧
        t.mail.reports = s.mail.reports)) ∧
  (∀ s : State, s.part = .running → 192 ≤ s.tb.tick → s.tb.clockWait = none → s.tb.buffered = none →
    ∃ t, exec .framePulse s = .next (finish s t) ∧ counted s t ∧ t.tb.locked = true ∧ t.tb.misses = 0 ∧
      t.jw.notice = s.jw.notice ∧
      (s.tb.locked = false → told s t 0 0 1) ∧ (s.tb.locked = true → t.mail.reports = s.mail.reports)) ∧
  (∀ (s : State) (n : Nat), s.part = .running → s.tb.clockWait = none → s.tb.buffered = some n → s.tb.locked = false →
    ∃ t, exec .frameBoundary s = .next (finish s t) ∧ counted s t ∧
      (s.tb.rate ≤ s.tb.frame + 1 → t.tb.rate = n ∧ t.tb.buffered = none ∧ told s t 1 s.tb.rate n) ∧
      (s.tb.frame + 1 < s.tb.rate → t.tb.rate = s.tb.rate ∧ t.tb.buffered = some n ∧ t.mail.reports = s.mail.reports)) ∧
  (∀ (s : State) (g : OrderTag) (sec frame n : Nat), s.part = .running → s.tb.clockWait = some (g, sec, frame) →
    s.tb.buffered = some n → s.tb.locked = false →
    ∃ t, exec .frameBoundary s = .next (finish s t) ∧ t.tb.sec = sec ∧ t.tb.frame = frame ∧ t.tb.tick = 0 ∧
      (frame = 0 → t.tb.rate = n ∧ t.tb.buffered = none) ∧ (frame ≠ 0 → t.tb.rate = s.tb.rate ∧ t.tb.buffered = some n)) ∧
  (∀ s : State, s.pending = [] → s.part = .running → 255 ≤ s.tb.tick → s.jw.walking = false → s.tb.clockWait = none →
    s.tb.buffered = none → s.tb.locked = false → ∃ t, step s = .next t ∧ counted s t ∧
      t.tb.elapsed = s.tb.elapsed + 3000 / s.tb.rate ∧ t.mem = s.mem ∧ t.sup = s.sup ∧ t.ctl = s.ctl) ∧
  (∀ (s : State) (rest : List Output), s.mail.stagedChanges = .lamps :: rest →
    exec .stagedChange s = .next (finish s
      (if s.tb.lampSet.change = true ∧ s.tb.lampFlag = false then
        { s with mail.stagedChanges := rest, tb.lampFlag := true, mail.lampApplySent := true }
       else { s with mail.stagedChanges := rest }))) ∧
  (∀ (s : State) (g : OrderTag) (lamps : Bool) (rest : List Order), Memory.wf s.mem →
    s.mail.timebaseOrders = .apply g lamps true :: rest →
    ((lamps = true ∧ s.tb.lampSet.order = false) ∨ s.tb.xpSet.order = false →
      ∃ t, exec .apply s = .next (finish s t) ∧ OrderEnds g 5 .wrongState 65535 s t ∧ t.tb = s.tb ∧
        (lamps = true → fieldAt t.mem (cellResults g.cell) 2 = 0) ∧ fieldAt t.mem (cellResults g.cell + 2) 2 = 0 ∧
        t.mail.lampApplySent = s.mail.lampApplySent ∧ t.mail.xpApplySent = s.mail.xpApplySent) ∧
    ((lamps = true → s.tb.lampSet.order = true) → s.tb.xpSet.order = true →
      ∃ t, exec .apply s = .next (finish s t) ∧ OrderWorks g s t ∧
        t = { s with
          mem := t.mem
          tb := { s.tb with
            lampFlag := s.tb.lampFlag || lamps, xpFlag := true
            applies := s.tb.applies ++ [{ tag := g, lampWait := if lamps then .waiting else .notNamed, xpWait := .waiting }] }
          mail := { s.mail with
            timebaseOrders := rest, lampApplySent := s.mail.lampApplySent || (lamps && !s.tb.lampFlag)
            xpApplySent := s.mail.xpApplySent || !s.tb.xpFlag } })) ∧
  (∀ (s : State) (n : Nat) (rest : List (Output × Nat)) (a : ApplyOrder), Memory.wf s.mem → s.tb.applies = [a] →
    (s.mail.applyAnswers = (.lamps, n) :: rest → a.lampWait = .waiting → a.xpWait = .waiting →
      exec .applyAnswer s = .next (finish s
        { s with mail.applyAnswers := rest, tb.lampFlag := false, tb.applies := [{ a with lampWait := .answered n }] })) ∧
    (s.mail.applyAnswers = (.crosspoints, n) :: rest → a.lampWait = .waiting → a.xpWait = .waiting →
      exec .applyAnswer s = .next (finish s
        { s with mail.applyAnswers := rest, tb.xpFlag := false, tb.applies := [{ a with xpWait := .answered n }] })) ∧
    (∀ m, s.mail.applyAnswers = (.lamps, n) :: rest → a.lampWait = .waiting → a.xpWait = .answered m →
      ∃ t, exec .applyAnswer s = .next (finish s t) ∧ OrderEnds a.tag 4 .ok 65535 s t ∧
        fieldAt t.mem (cellResults a.tag.cell) 2 = n % 65536 ∧ fieldAt t.mem (cellResults a.tag.cell + 2) 2 = m % 65536 ∧
        t = { s with
          mem := t.mem, disp := { s.disp with service := t.disp.service }, tb := { s.tb with lampFlag := false, applies := [] }
          mail := { s.mail with applyAnswers := rest, reports := t.mail.reports } }) ∧
    (∀ w, s.mail.applyAnswers = (.crosspoints, n) :: rest → a.lampWait = w → w ≠ .waiting → a.xpWait = .waiting →
      ∃ t, exec .applyAnswer s = .next (finish s t) ∧ OrderEnds a.tag 4 .ok 65535 s t ∧
        (∀ m, w = .answered m → fieldAt t.mem (cellResults a.tag.cell) 2 = m % 65536) ∧
        fieldAt t.mem (cellResults a.tag.cell + 2) 2 = n % 65536 ∧
        t = { s with
          mem := t.mem, disp := { s.disp with service := t.disp.service }, tb := { s.tb with xpFlag := false, applies := [] }
          mail := { s.mail with applyAnswers := rest, reports := t.mail.reports } })) ∧
  (∀ (s : State) (o : Output) (n : Nat) (rest : List (Output × Nat)) (a b : ApplyOrder), Memory.wf s.mem →
    s.tb.applies = [a, b] → s.mail.applyAnswers = (o, n) :: rest → a.tag.cell ≠ b.tag.cell →
    let waits (x : ApplyOrder) : Prop := match o with
      | .lamps => x.lampWait = .waiting ∧ x.xpWait = .notNamed
      | .crosspoints => x.lampWait = .notNamed ∧ x.xpWait = .waiting
    waits a → waits b →
    ∃ t, exec .applyAnswer s = .next (finish s t) ∧
      (∀ x ∈ [a, b], CellShows t.mem x.tag.cell 4 ResultCode.ok.toNat 65535 ∧
        fieldAt t.mem (cellResults x.tag.cell + if o = .lamps then 0 else 2) 2 = n % 65536) ∧
      (∀ y, (∀ x ∈ [a, b], y < cellBase x.tag.cell ∨ cellBase x.tag.cell + 128 ≤ y) →
        Memory.read t.mem y = Memory.read s.mem y) ∧
      t = { s with
        mem := t.mem
        disp := { s.disp with service := s.disp.service.filter fun c => c ≠ a.tag.cell ∧ c ≠ b.tag.cell }
        tb := { s.tb with
          lampFlag := if o = .lamps then false else s.tb.lampFlag
          xpFlag := if o = .crosspoints then false else s.tb.xpFlag, applies := [] }
        mail := { s.mail with
          applyAnswers := rest
          reports := s.mail.reports ++
            [(.timebase, orderReport a.tag .ok 4 s), (.timebase, orderReport b.tag .ok 4 s)] } })

/-- JOURNAL_REPORT with room, nothing pending and no walk going on: the entry is written at its place with the head count as
sequence, the head count goes up by one, and the report's own notice is raised. At the threshold the JOURNAL notice is set and the
delay count stops; below it a stopped count starts at 0 while JOURNAL is clear, and every other notice bit stays as it is. With 128 unread: nothing is appended, the pending
flag of the report's record is set, whichever record it is, and the notice that goes with a report taken is raised (ORDER for an
order, KILL for a kill). With no report of the owner waiting nothing changes. JOURNAL_DELAY_EXPIRY: the JOURNAL notice is set and
the delay count stops (R163, R165, R167, R168; that a walk is a state of its own, which a full journal ends, is the model's choice:
notes/assumptions/29; that a command without its occasion changes nothing: 2). -/
def Obligations.JournalSteps : Prop :=
  (∀ (s : State) (o : Owner) (r : JReport) (a b : List (Owner × JReport)), s.mail.reports = a ++ (o, r) :: b →
    (∀ x ∈ a, x.1 ≠ o) → firstPending s = none → s.jw.walking = false → s.jw.head < 65536 → s.jw.entries.length = 128 →
    (s.jw.head + 65536 - takenWord s) % 65536 < 128 →
    ∃ t, exec (.journalReport o) s = .next (finish s t) ∧ t.mail = { s.mail with reports := a ++ b } ∧
      t.jw.head = (s.jw.head + 1) % 65536 ∧ t.jw.taken = takenWord s ∧
      t.jw.entries = s.jw.entries.set (s.jw.head % 128) (some
        { sequence := s.jw.head, kind := r.kind, stamp := r.stamp, subject := r.subject, values := r.values, resync := false
          dropped := r.dropped, clamped := r.clamped }) ∧
      t.jw.notice = (s.jw.notice |||
        (if s.jw.threshold ≤ (s.jw.head + 65536 - takenWord s) % 65536 + 1 then 2 else 0) |||
        match r.notice with
        | .none => 0
        | .order => 1
        | .orderIfAppended => 1
        | .kill => 8) ∧
      (NoticeLaw s → NoticeLaw t) ∧
      t.jw.delayCount = (if s.jw.threshold ≤ (s.jw.head + 65536 - takenWord s) % 65536 + 1 then none
        else if s.jw.notice.getLsbD 1 = false ∧ s.jw.delayCount = none then some 0 else s.jw.delayCount) ∧
      t = { s with
        jw := { s.jw with
          head := t.jw.head, taken := t.jw.taken, entries := t.jw.entries, notice := t.jw.notice, line := t.jw.line
          delayCount := t.jw.delayCount }
        mail := t.mail }) ∧
  (∀ (s : State) (o : Owner) (r : JReport) (a b : List (Owner × JReport)), s.mail.reports = a ++ (o, r) :: b →
    (∀ x ∈ a, x.1 ≠ o) → s.jw.head < 65536 → (s.jw.head + 65536 - takenWord s) % 65536 = 128 →
    let notice := match r.notice with
      | .order => s.jw.notice ||| 1
      | .kill => s.jw.notice ||| 8
      | _ => s.jw.notice
    let base : State := { s with
      mail.reports := a ++ b, jw.taken := takenWord s, jw.walking := false, jw.notice := notice
      jw.line := if r.notice = .order ∨ r.notice = .kill then decide (notice &&& s.jw.enable ≠ 0) else s.jw.line }
    let marked : State := match r.flagOf with
      | .killFlag => { base with jw.killPending := true }
      | .referenceFlag => { base with jw.referencePending := true }
      | .tableFlag => { base with jw.tablePending := true }
      | .linkRec i => { base with
          sup.links := s.sup.links.set i { s.link i with vis := { s.linkRec i with pending := true } } }
      | .camera c => { base with tally.cams := s.tally.cams.set c { camOf s c with pending := true } }
      | .dest d => { base with router.dests := s.router.dests.set d { DestRec.at s.router.dests d with pending := true } }
      | .cell n => { base with jw.cellPending := s.jw.cellPending.set n true }
      | .nowhere => base
    exec (.journalReport o) s = .next (finish s marked)) ∧
  (∀ (s : State) (n : Nat), s.jw.delayCount = some n → s.jw.delayFrames ≤ n →
    exec .journalDelayExpiry s = .next (finish s
      { s with
        jw.delayCount := none, jw.notice := s.jw.notice ||| 2
        jw.line := decide ((s.jw.notice ||| 2) &&& s.jw.enable ≠ 0) })) ∧
  (∀ (s : State) (o : Owner), (∀ x ∈ s.mail.reports, x.1 ≠ o) → s.jw.walking = false →
    exec (.journalReport o) s = .next (finish s s))

/-- The resynchronising walk. The first pending record is that of the directory flags (kill, reference, table), then of links,
cameras, destinations and cells, ascending. One entry of the walk: the writer reads the taken count; a full journal ends the walk;
with room, the RESYNC entry of the first pending record, with its content and the present reading, is appended and that record's
flag, and no other, cleared in the same step; the walk ends with the last flag. It begins at a read that finds room while a flag is
pending: at a NOTICE_CLEAR of JOURNAL, whose read is followed by one entry at once, and at a JOURNAL_REPORT, whose own report is
not appended: the flag of its record, if it has one, is set beside those already set, and the notice that goes with a report marked is
raised (ORDER for a completion, KILL), while the delay count stays. A host word more than 128 behind the head, at
either read: the taken count is the head count and every flag is set, the KILL entry coming first. It goes on at the model's free pace, after such a command and as time passes, one entry after another, each ended with its
own change counts (R166, R165, TABLE 11-3; the pace, the flag `walking` and the entry at NOTICE_CLEAR are the model's choices:
notes/assumptions/29; so is the TABLE entry's lack of a subject: 51). -/
def Obligations.ResyncWalk : Prop :=
  let flag (s : State) (p : PendingRec) : Bool := match p with
    | .kill => s.jw.killPending
    | .reference => s.jw.referencePending
    | .table => s.jw.tablePending
    | .link i => (s.linkRec i).pending
    | .camera c => (camOf s c).pending
    | .dest d => (DestRec.at s.router.dests d).pending
    | .cell n => s.jw.cellPending.getD n false
  let rank : PendingRec → Nat × Nat
    | .kill => (0, 0)
    | .reference => (1, 0)
    | .table => (2, 0)
    | .link i => (3, i)
    | .camera c => (4, c)
    | .dest d => (5, d)
    | .cell n => (6, n)
  let own : PendingOf → Option PendingRec
    | .killFlag => some .kill
    | .referenceFlag => some .reference
    | .tableFlag => some .table
    | .linkRec i => some (.link i)
    | .camera c => some (.camera c)
    | .dest d => some (.dest d)
    | .cell n => some (.cell n)
    | .nowhere => none
  let exists' (s : State) : PendingRec → Prop
    | .link i => i < s.sup.links.length
    | .camera c => c < s.tally.cams.length
    | .dest d => d < s.router.dests.length
    | .cell n => n < s.jw.cellPending.length
    | _ => True
  let word (s : State) : Nat := (s.jw.head + 65536 - takenWord s) % 65536
  let noticed (s t : State) (r : JReport) : Prop :=
    t.jw.notice = s.jw.notice ||| (match r.notice with | .order => 1 | .kill => 8 | _ => 0) ∧
      (NoticeLaw s → NoticeLaw t) ∧ t.jw.delayCount = s.jw.delayCount
  (∀ s : State, (firstPending s = none ↔ ∀ p, flag s p = false) ∧
    (∀ p, firstPending s = some p ↔ flag s p = true ∧ ∀ q, flag s q = true → q = p ∨ (rank p).1 < (rank q).1 ∨
      ((rank p).1 = (rank q).1 ∧ (rank p).2 < (rank q).2))) ∧
  (∀ s : State, word s = 128 → resyncStep s = { s with jw.taken := takenWord s, jw.walking := false }) ∧
  (∀ s : State, word s < 128 → firstPending s = none →
    resyncStep s = { s with jw.taken := takenWord s, jw.walking := false }) ∧
  (∀ s : State, 128 < word s → s.jw.head < 65536 → s.jw.entries.length = 128 →
    let t := resyncStep s
    let c := resyncContent .kill s
    t.jw.head = (s.jw.head + 1) % 65536 ∧ t.jw.taken = s.jw.head ∧
    t.jw.entries = s.jw.entries.set (s.jw.head % 128) (some
      { sequence := s.jw.head, kind := c.1, stamp := s.now, subject := c.2.1, values := c.2.2, resync := true, dropped := false
        clamped := false }) ∧
    (∀ q, exists' s q → (flag t q = true ↔ q ≠ .kill)) ∧ t.jw.walking = true) ∧
  (∀ (s : State) (p : PendingRec), word s < 128 → firstPending s = some p → s.jw.head < 65536 → s.jw.entries.length = 128 →
    let t := resyncStep s
    let c := resyncContent p s
    t.jw.head = (s.jw.head + 1) % 65536 ∧ t.jw.taken = takenWord s ∧
    t.jw.entries = s.jw.entries.set (s.jw.head % 128) (some
      { sequence := s.jw.head, kind := c.1, stamp := s.now, subject := c.2.1, values := c.2.2, resync := true, dropped := false
        clamped := false }) ∧
    (∀ q, flag t q = if q = p then false else flag s q) ∧
    (t.jw.walking = true ↔ ∃ q, q ≠ p ∧ flag s q = true) ∧
    (∀ i, t.linkRec i = { s.linkRec i with pending := flag t (.link i) } ∧ (t.link i).aux = (s.link i).aux) ∧
    (∀ i, camOf t i = { camOf s i with pending := flag t (.camera i) }) ∧
    (∀ i, DestRec.at t.router.dests i = { DestRec.at s.router.dests i with pending := flag t (.dest i) }) ∧
    t = { s with
      jw := t.jw, sup := { s.sup with links := t.sup.links }, tally := { s.tally with cams := t.tally.cams }
      router := { s.router with dests := t.router.dests } }) ∧
  (∀ (s : State) (b : Word), b.getLsbD 1 = true → (firstPending s).isSome = true →
    let c := finish s (clearNotice b s)
    (word s < 128 → c.jw.walking = true ∧ exec (.noticeClear b) s = .next (walkOn (finish c (resyncStep c)))) ∧
    (word s = 128 → c.jw.walking = false ∧ exec (.noticeClear b) s = .next c)) ∧
  (∀ (s : State) (o : Owner) (r : JReport) (a b : List (Owner × JReport)), s.mail.reports = a ++ (o, r) :: b →
    (∀ x ∈ a, x.1 ≠ o) → word s < 128 → s.jw.head < 65536 → (firstPending s).isSome = true →
    ∃ t, exec (.journalReport o) s = .next (walkOn (finish s t)) ∧ t.jw.walking = true ∧ t.jw.entries = s.jw.entries ∧
      t.jw.head = s.jw.head ∧ t.mail.reports = a ++ b ∧ noticed s t r ∧
      ((∀ q, own r.flagOf = some q → exists' s q) → ∀ q, flag t q = true ↔ flag s q = true ∨ own r.flagOf = some q)) ∧
  (∀ (s : State) (o : Owner) (r : JReport) (a b : List (Owner × JReport)), s.mail.reports = a ++ (o, r) :: b →
    (∀ x ∈ a, x.1 ≠ o) → 128 < word s → s.jw.head < 65536 →
    ∃ t, exec (.journalReport o) s = .next (walkOn (finish s t)) ∧ AllPending t ∧ t.jw.walking = true ∧
      t.jw.taken = s.jw.head ∧ t.jw.entries = s.jw.entries ∧ t.jw.head = s.jw.head ∧ t.mail = { s.mail with reports := a ++ b } ∧
      noticed s t r) ∧
  (∀ s : State, resyncContent .kill s =
      (.kill, 0xFFFFFF, killValue s.kc.asserted s.kc.cause + if s.kc.filter.accepted then 16 else 0) ∧
    resyncContent .table s = (.table, 0xFFFFFF,
      s.adopt.station.status.result.toNat + s.adopt.station.status.reason.toNat * 4 + s.adopt.station.status.gen * 64
        + s.adopt.cue.status.result.toNat * 2 ^ 24 + s.adopt.cue.status.reason.toNat * 2 ^ 26
        + s.adopt.cue.status.gen * 2 ^ 30) ∧
    resyncContent .reference s = (.timebase, 0,
      (if s.tb.locked then 1 else 0) + s.tb.rate * 2 ^ 8 + (s.tb.frame + s.tb.sec * 64) * 2 ^ 16) ∧
    (∀ i, let l := s.linkRec i
      resyncContent (.link i) s = (.link,
        i + (if l.outRec.present.isSome then 2 ^ 16 else 0) + (if l.inRec.present.isSome then 2 ^ 17 else 0),
        l.state.toNat + healthNat l.outRec.health * 2 ^ 4 + healthNat l.inRec.health * 2 ^ 7
          + (if l.untracked then 2 ^ 10 else 0) + (if l.unsilenceable then 2 ^ 11 else 0)
          + (if l.retuneNeeded then 2 ^ 12 else 0) + l.outRec.present.getD 0 * 2 ^ 13 + l.inRec.present.getD 0 * 2 ^ 30)) ∧
    (∀ c, let x := camOf s c
      let colours (k : Colours) : Nat :=
        (if k.programme then 1 else 0) + (if k.preview then 2 else 0) + if k.iso then 4 else 0
      resyncContent (.camera c) s = (.tally, c + 1, colours x.staged + colours x.applied * 8 + x.delivery.toNat * 64)) ∧
    (∀ d, let l := (DestRec.at s.router.dests d).routes
      resyncContent (.dest d) s = (.route, d, (if (DestRec.at s.router.dests d).heard then 1 else 0)
        + ((l.filter fun k => k.2 = .slotted).length + (l.filter fun k => k.2 = .waiting).length) * 2 ^ 8
        + (l.filter fun k => k.2 = .slotted).length * 2 ^ 16)) ∧
    (∀ n, resyncContent (.cell n) s = (.order, n, byteAt s.mem (cellBase n) + byteAt s.mem (cellBase n + 1) * 2 ^ 8
      + byteAt s.mem (cellBase n + 4) * 2 ^ 16 + fieldAt s.mem (cellBase n + 2) 2 * 2 ^ 24))) ∧
  (∀ s : State, s.pending = [] → s.part = .running →
    step s = .next (walkOn (finish s (engineTick (tickTimebase s))))) ∧
  (∀ s : State, (s.jw.walking = false → walkOn s = s) ∧
    (s.jw.walking = true → ∃ n t, t = walkN n s ∧ walkOn s = { t with jw.walkCount := s.jw.walkCount + 1 })) ∧
  (∀ (n : Nat) (s : State), walkN 0 s = s ∧ (s.jw.walking = false → walkN n s = s) ∧
    (s.jw.walking = true → walkN (n + 1) s = walkN n (finish s (resyncStep s))))

/-- After power-on reset and part reset: both counts and the host's journal-taken word are 0, every entry reads 0, no record is
pending, the delay count is stopped, T is 8 and D 25, both notice registers are clear and the line is de-asserted, and no report
is in flight (R169). -/
def Obligations.JournalWriterAfterReset : Prop :=
  ∀ (s : State), Memory.wf s.mem → ∃ p t : State, exec .powerOnReset s = .next p ∧ exec .partReset s = .next t ∧
    ∀ x ∈ [p, t], x.jw.head = 0 ∧ x.jw.taken = 0 ∧ takenWord x = 0 ∧
      (∀ a, 0xA000 ≤ a → a < 0xA800 → hostRead x a = 0) ∧ firstPending x = none ∧ x.jw.delayCount = none ∧
      x.jw.walking = false ∧ x.jw.threshold = 8 ∧ x.jw.delayFrames = 25 ∧ x.jw.notice = 0 ∧ x.jw.enable = 0 ∧ x.jw.line = false ∧ x.mail.reports = []
end

