-- ==== Sys2Proof/Laws/Memory.lean ====
section
/-! SUPPORT. The laws of memory: a read after a write, a write leaves every other byte alone, and every memory operation keeps
the canonical form. -/

namespace Sys2Proof.Machine

theorem Memory.wf_nil : Memory.wf [] := ⟨List.Pairwise.nil, by simp⟩

theorem Memory.wf_cons {k : Nat} {c : Byte} {m : List Host.Cell} :
    Memory.wf ((k, c) :: m) ↔ (∀ x ∈ m, k < x.1) ∧ c ≠ unwrittenByte ∧ Memory.wf m := by
  simp only [Memory.wf, List.pairwise_cons, List.mem_cons, forall_eq_or_imp]
  tauto

/-- Entries of a written memory are the byte written or entries of before. -/
theorem Memory.mem_write {m : List Host.Cell} {a : Nat} {b : Byte} {x : Host.Cell} (h : x ∈ Memory.write m a b) :
    x = (a, b) ∧ b ≠ unwrittenByte ∨ x ∈ m := by
  induction m with
  | nil => unfold Memory.write at h; split at h <;> simp_all
  | cons y ys ih =>
    obtain ⟨k, c⟩ := y
    unfold Memory.write at h
    split at h
    · split at h <;> simp_all
    · split at h
      · split at h <;> simp_all; tauto
      · simp only [List.mem_cons] at h
        rcases h with rfl | h
        · simp
        · rcases ih h with h | h
          · exact Or.inl h
          · exact Or.inr (List.mem_cons_of_mem _ h)

theorem Memory.wf_write {m : List Host.Cell} (h : Memory.wf m) (a : Nat) (b : Byte) : Memory.wf (Memory.write m a b) := by
  induction m with
  | nil =>
    unfold Memory.write
    split
    · exact Memory.wf_nil
    · exact Memory.wf_cons.2 ⟨by simp, by assumption, Memory.wf_nil⟩
  | cons y ys ih =>
    obtain ⟨k, c⟩ := y
    obtain ⟨h1, h2, h3⟩ := Memory.wf_cons.1 h
    unfold Memory.write
    split
    · rename_i hlt
      split
      · exact h
      · refine Memory.wf_cons.2 ⟨?_, by assumption, h⟩
        intro x hx
        rcases List.mem_cons.1 hx with rfl | hx
        · exact hlt
        · exact lt_trans hlt (h1 x hx)
    · split
      · rename_i heq
        subst heq
        split
        · exact h3
        · exact Memory.wf_cons.2 ⟨h1, by assumption, h3⟩
      · refine Memory.wf_cons.2 ⟨?_, h2, ih h3⟩
        intro x hx
        rcases Memory.mem_write hx with ⟨rfl, _⟩ | hx
        · show k < a
          omega
        · exact h1 x hx

theorem Memory.read_of_lt {m : List Host.Cell} {a : Nat} (h : ∀ x ∈ m, a < x.1) : Memory.read m a = unwrittenByte := by
  induction m with
  | nil => rfl
  | cons y ys ih =>
    obtain ⟨k, c⟩ := y
    have hk : a < k := h (k, c) (by simp)
    unfold Memory.read
    rw [if_neg (by omega)]
    exact ih fun x hx => h x (List.mem_cons_of_mem _ hx)

/-- Read after write. -/
theorem Memory.read_write {m : List Host.Cell} (h : Memory.wf m) (a a' : Nat) (b : Byte) :
    Memory.read (Memory.write m a b) a' = if a' = a then b else Memory.read m a' := by
  induction m with
  | nil =>
    unfold Memory.write
    split <;> rename_i hb
    · subst hb; simp [Memory.read]
    · simp only [Memory.read]; split <;> split <;> simp_all
  | cons y ys ih =>
    obtain ⟨k, c⟩ := y
    obtain ⟨h1, h2, h3⟩ := Memory.wf_cons.1 h
    unfold Memory.write
    split
    · rename_i hlt
      split <;> rename_i hb
      · subst hb
        split
        · rename_i he; subst he
          exact Memory.read_of_lt fun x hx => by
            rcases List.mem_cons.1 hx with rfl | hx
            · exact hlt
            · exact lt_trans hlt (h1 x hx)
        · rfl
      · simp only [Memory.read]
        by_cases he : a' = a
        · subst he; simp
        · simp [he, Ne.symm he]
    · split
      · rename_i heq; subst heq
        split <;> rename_i hb
        · subst hb
          by_cases he : a' = a
          · subst he
            simp only [if_true]
            exact Memory.read_of_lt h1
          · simp [Memory.read, he, Ne.symm he]
        · by_cases he : a' = a
          · subst he; simp [Memory.read]
          · simp [Memory.read, he, Ne.symm he]
      · rename_i hlt hne
        simp only [Memory.read]
        by_cases he : k = a'
        · subst he
          simp [Ne.symm hne]
        · simp only [he, if_false]
          exact ih h3

theorem Memory.wf_writeBytes {m : List Host.Cell} (h : Memory.wf m) (a : Nat) (bs : List Byte) :
    Memory.wf (Memory.writeBytes m a bs) := by
  induction bs generalizing m a with
  | nil => exact h
  | cons b bs ih => exact ih (Memory.wf_write h a b) (a + 1)

/-- Bytes written from an address upward: those of the list, and every other byte as before. -/
theorem Memory.read_writeBytes {m : List Host.Cell} (h : Memory.wf m) (a a' : Nat) (bs : List Byte) :
    Memory.read (Memory.writeBytes m a bs) a' =
      if a ≤ a' ∧ a' < a + bs.length then bs.getD (a' - a) 0 else Memory.read m a' := by
  induction bs generalizing m a with
  | nil => simp only [Memory.writeBytes, List.length_nil, Nat.add_zero]; rw [if_neg (by omega)]
  | cons b bs ih =>
    rw [Memory.writeBytes, ih (Memory.wf_write h a b) (a + 1), Memory.read_write h]
    simp only [List.length_cons]
    by_cases h1 : a' = a
    · subst h1
      rw [if_neg (by omega), if_pos rfl, if_pos (by omega)]
      simp
    · rw [if_neg h1]
      by_cases h2 : a + 1 ≤ a' ∧ a' < a + 1 + bs.length
      · rw [if_pos h2, if_pos (by omega)]
        obtain ⟨j, hj⟩ : ∃ j, a' - a = j + 1 := ⟨a' - a - 1, by omega⟩
        rw [hj]
        have : a' - (a + 1) = j := by omega
        rw [this]
        simp
      · rw [if_neg h2, if_neg (by omega)]

theorem writeResults_wf {c : Nat} {res : Results} {s : State} (h : Memory.wf s.mem) :
    Memory.wf (writeResults c res s).mem := by
  induction res generalizing s with
  | nil => exact h
  | cons x xs ih => obtain ⟨off, bs⟩ := x; exact ih (Memory.wf_writeBytes h _ _)

theorem writeHeader_wf {c : Nat} {k : ResultCode} {x : Option Nat} {s : State} (h : Memory.wf s.mem) :
    Memory.wf (writeHeader c k x s).mem :=
  Memory.wf_writeBytes (Memory.wf_writeBytes (Memory.wf_write h _ _) _ _) _ _

theorem writeCellState_wf {c v : Nat} {s : State} (h : Memory.wf s.mem) : Memory.wf (writeCellState c v s).mem :=
  Memory.wf_write h _ _

theorem completeOrder_wf {o : Owner} {g : OrderTag} {res : Results} {k : ResultCode} {x : Option Nat} {st : Nat} {s : State}
    (h : Memory.wf s.mem) : Memory.wf (completeOrder o g res k x st s).mem :=
  Memory.wf_write (writeHeader_wf (writeResults_wf h)) _ _

theorem writeEnabled_wf {w : Nat} {d : Word} {en : BitVec 4} {m : List Host.Cell} {k : Nat} (h : Memory.wf m) :
    Memory.wf (writeEnabled w d en m k) := by
  unfold writeEnabled
  simp only
  split
  · exact Memory.wf_write h _ _
  · exact h

theorem markClamped_wf {c : Nat} {b : Bool} {s : State} (h : Memory.wf s.mem) : Memory.wf (markClamped c b s).mem := by
  unfold markClamped
  split
  · exact Memory.wf_write h _ _
  · exact h

end Sys2Proof.Machine
end

