-- ==== Sys2Proof/Laws/State.lean ====
section
/-! SUPPORT. For each small update of State and each field, what the field reads after it: the field itself where the update
does not write it. All true by rfl; tagged for simp, so that no later proof unfolds a record update. -/

namespace Sys2Proof.Machine

@[simp] theorem finish_part (a s : State) : (finish a s).part = s.part := rfl
@[simp] theorem finish_mem (a s : State) : (finish a s).mem = s.mem := rfl
@[simp] theorem finish_lockP (a s : State) : (finish a s).lockP = s.lockP := rfl
@[simp] theorem finish_lockC (a s : State) : (finish a s).lockC = s.lockC := rfl
@[simp] theorem finish_disp (a s : State) : (finish a s).disp = s.disp := rfl
@[simp] theorem finish_adopt (a s : State) : (finish a s).adopt = s.adopt := rfl
@[simp] theorem finish_ctl (a s : State) : (finish a s).ctl = s.ctl := rfl
@[simp] theorem finish_eng (a s : State) : (finish a s).eng = s.eng := rfl
@[simp] theorem finish_sup (a s : State) : (finish a s).sup = s.sup := rfl
@[simp] theorem finish_ul (a s : State) : (finish a s).ul = s.ul := rfl
@[simp] theorem finish_tally (a s : State) : (finish a s).tally = s.tally := rfl
@[simp] theorem finish_router (a s : State) : (finish a s).router = s.router := rfl
@[simp] theorem finish_tb (a s : State) : (finish a s).tb = s.tb := rfl
@[simp] theorem finish_kc (a s : State) : (finish a s).kc = s.kc := rfl
@[simp] theorem finish_jw (a s : State) : (finish a s).jw = s.jw := rfl
@[simp] theorem finish_mail (a s : State) : (finish a s).mail = s.mail := rfl
@[simp] theorem finish_openCount (a s : State) : (finish a s).openCount = s.openCount := rfl
@[simp] theorem finish_pending (a s : State) : (finish a s).pending = s.pending := rfl
@[simp] theorem finish_link (a s : State) (i : Nat) : (finish a s).link i = s.link i := rfl
@[simp] theorem finish_linkRec (a s : State) (i : Nat) : (finish a s).linkRec i = s.linkRec i := rfl
@[simp] theorem finish_linkDef (a s : State) (i : Nat) : (finish a s).linkDef i = s.linkDef i := rfl
@[simp] theorem finish_now (a s : State) : (finish a s).now = s.now := rfl
@[simp] theorem finish_running (a s : State) : (finish a s).running = s.running := rfl
@[simp] theorem finish_camOf (a s : State) (cam : Nat) : camOf (finish a s) cam = camOf s cam := rfl

@[simp] theorem finishPath_part (path : List State) (a s : State) : (finishPath path a s).part = s.part := rfl
@[simp] theorem finishPath_mem (path : List State) (a s : State) : (finishPath path a s).mem = s.mem := rfl
@[simp] theorem finishPath_lockP (path : List State) (a s : State) : (finishPath path a s).lockP = s.lockP := rfl
@[simp] theorem finishPath_lockC (path : List State) (a s : State) : (finishPath path a s).lockC = s.lockC := rfl
@[simp] theorem finishPath_disp (path : List State) (a s : State) : (finishPath path a s).disp = s.disp := rfl
@[simp] theorem finishPath_adopt (path : List State) (a s : State) : (finishPath path a s).adopt = s.adopt := rfl
@[simp] theorem finishPath_ctl (path : List State) (a s : State) : (finishPath path a s).ctl = s.ctl := rfl
@[simp] theorem finishPath_eng (path : List State) (a s : State) : (finishPath path a s).eng = s.eng := rfl
@[simp] theorem finishPath_sup (path : List State) (a s : State) : (finishPath path a s).sup = s.sup := rfl
@[simp] theorem finishPath_ul (path : List State) (a s : State) : (finishPath path a s).ul = s.ul := rfl
@[simp] theorem finishPath_tally (path : List State) (a s : State) : (finishPath path a s).tally = s.tally := rfl
@[simp] theorem finishPath_router (path : List State) (a s : State) : (finishPath path a s).router = s.router := rfl
@[simp] theorem finishPath_tb (path : List State) (a s : State) : (finishPath path a s).tb = s.tb := rfl
@[simp] theorem finishPath_kc (path : List State) (a s : State) : (finishPath path a s).kc = s.kc := rfl
@[simp] theorem finishPath_jw (path : List State) (a s : State) : (finishPath path a s).jw = s.jw := rfl
@[simp] theorem finishPath_mail (path : List State) (a s : State) : (finishPath path a s).mail = s.mail := rfl
@[simp] theorem finishPath_openCount (path : List State) (a s : State) : (finishPath path a s).openCount = s.openCount := rfl
@[simp] theorem finishPath_pending (path : List State) (a s : State) : (finishPath path a s).pending = s.pending := rfl
@[simp] theorem finishPath_link (path : List State) (a s : State) (i : Nat) : (finishPath path a s).link i = s.link i := rfl
@[simp] theorem finishPath_linkRec (path : List State) (a s : State) (i : Nat) : (finishPath path a s).linkRec i = s.linkRec i := rfl
@[simp] theorem finishPath_linkDef (path : List State) (a s : State) (i : Nat) : (finishPath path a s).linkDef i = s.linkDef i := rfl
@[simp] theorem finishPath_now (path : List State) (a s : State) : (finishPath path a s).now = s.now := rfl
@[simp] theorem finishPath_running (path : List State) (a s : State) : (finishPath path a s).running = s.running := rfl
@[simp] theorem finishPath_camOf (path : List State) (a s : State) (cam : Nat) : camOf (finishPath path a s) cam = camOf s cam := rfl

@[simp] theorem report_part (o : Owner) (r : JReport) (s : State) : (report o r s).part = s.part := rfl
@[simp] theorem report_mem (o : Owner) (r : JReport) (s : State) : (report o r s).mem = s.mem := rfl
@[simp] theorem report_lockP (o : Owner) (r : JReport) (s : State) : (report o r s).lockP = s.lockP := rfl
@[simp] theorem report_lockC (o : Owner) (r : JReport) (s : State) : (report o r s).lockC = s.lockC := rfl
@[simp] theorem report_disp (o : Owner) (r : JReport) (s : State) : (report o r s).disp = s.disp := rfl
@[simp] theorem report_adopt (o : Owner) (r : JReport) (s : State) : (report o r s).adopt = s.adopt := rfl
@[simp] theorem report_ctl (o : Owner) (r : JReport) (s : State) : (report o r s).ctl = s.ctl := rfl
@[simp] theorem report_eng (o : Owner) (r : JReport) (s : State) : (report o r s).eng = s.eng := rfl
@[simp] theorem report_sup (o : Owner) (r : JReport) (s : State) : (report o r s).sup = s.sup := rfl
@[simp] theorem report_ul (o : Owner) (r : JReport) (s : State) : (report o r s).ul = s.ul := rfl
@[simp] theorem report_tally (o : Owner) (r : JReport) (s : State) : (report o r s).tally = s.tally := rfl
@[simp] theorem report_router (o : Owner) (r : JReport) (s : State) : (report o r s).router = s.router := rfl
@[simp] theorem report_tb (o : Owner) (r : JReport) (s : State) : (report o r s).tb = s.tb := rfl
@[simp] theorem report_kc (o : Owner) (r : JReport) (s : State) : (report o r s).kc = s.kc := rfl
@[simp] theorem report_jw (o : Owner) (r : JReport) (s : State) : (report o r s).jw = s.jw := rfl
@[simp] theorem report_counts (o : Owner) (r : JReport) (s : State) : (report o r s).counts = s.counts := rfl
@[simp] theorem report_openCount (o : Owner) (r : JReport) (s : State) : (report o r s).openCount = s.openCount := rfl
@[simp] theorem report_pending (o : Owner) (r : JReport) (s : State) : (report o r s).pending = s.pending := rfl
@[simp] theorem report_link (o : Owner) (r : JReport) (s : State) (i : Nat) : (report o r s).link i = s.link i := rfl
@[simp] theorem report_linkRec (o : Owner) (r : JReport) (s : State) (i : Nat) : (report o r s).linkRec i = s.linkRec i := rfl
@[simp] theorem report_linkDef (o : Owner) (r : JReport) (s : State) (i : Nat) : (report o r s).linkDef i = s.linkDef i := rfl
@[simp] theorem report_now (o : Owner) (r : JReport) (s : State) : (report o r s).now = s.now := rfl
@[simp] theorem report_running (o : Owner) (r : JReport) (s : State) : (report o r s).running = s.running := rfl
@[simp] theorem report_camOf (o : Owner) (r : JReport) (s : State) (cam : Nat) : camOf (report o r s) cam = camOf s cam := rfl

@[simp] theorem raise_part (b : BitVec 5) (s : State) : (raise b s).part = s.part := rfl
@[simp] theorem raise_mem (b : BitVec 5) (s : State) : (raise b s).mem = s.mem := rfl
@[simp] theorem raise_lockP (b : BitVec 5) (s : State) : (raise b s).lockP = s.lockP := rfl
@[simp] theorem raise_lockC (b : BitVec 5) (s : State) : (raise b s).lockC = s.lockC := rfl
@[simp] theorem raise_disp (b : BitVec 5) (s : State) : (raise b s).disp = s.disp := rfl
@[simp] theorem raise_adopt (b : BitVec 5) (s : State) : (raise b s).adopt = s.adopt := rfl
@[simp] theorem raise_ctl (b : BitVec 5) (s : State) : (raise b s).ctl = s.ctl := rfl
@[simp] theorem raise_eng (b : BitVec 5) (s : State) : (raise b s).eng = s.eng := rfl
@[simp] theorem raise_sup (b : BitVec 5) (s : State) : (raise b s).sup = s.sup := rfl
@[simp] theorem raise_ul (b : BitVec 5) (s : State) : (raise b s).ul = s.ul := rfl
@[simp] theorem raise_tally (b : BitVec 5) (s : State) : (raise b s).tally = s.tally := rfl
@[simp] theorem raise_router (b : BitVec 5) (s : State) : (raise b s).router = s.router := rfl
@[simp] theorem raise_tb (b : BitVec 5) (s : State) : (raise b s).tb = s.tb := rfl
@[simp] theorem raise_kc (b : BitVec 5) (s : State) : (raise b s).kc = s.kc := rfl
@[simp] theorem raise_mail (b : BitVec 5) (s : State) : (raise b s).mail = s.mail := rfl
@[simp] theorem raise_counts (b : BitVec 5) (s : State) : (raise b s).counts = s.counts := rfl
@[simp] theorem raise_openCount (b : BitVec 5) (s : State) : (raise b s).openCount = s.openCount := rfl
@[simp] theorem raise_pending (b : BitVec 5) (s : State) : (raise b s).pending = s.pending := rfl
@[simp] theorem raise_link (b : BitVec 5) (s : State) (i : Nat) : (raise b s).link i = s.link i := rfl
@[simp] theorem raise_linkRec (b : BitVec 5) (s : State) (i : Nat) : (raise b s).linkRec i = s.linkRec i := rfl
@[simp] theorem raise_linkDef (b : BitVec 5) (s : State) (i : Nat) : (raise b s).linkDef i = s.linkDef i := rfl
@[simp] theorem raise_now (b : BitVec 5) (s : State) : (raise b s).now = s.now := rfl
@[simp] theorem raise_running (b : BitVec 5) (s : State) : (raise b s).running = s.running := rfl
@[simp] theorem raise_camOf (b : BitVec 5) (s : State) (cam : Nat) : camOf (raise b s) cam = camOf s cam := rfl

@[simp] theorem alarm_part (s : State) : (alarm s).part = s.part := rfl
@[simp] theorem alarm_mem (s : State) : (alarm s).mem = s.mem := rfl
@[simp] theorem alarm_lockP (s : State) : (alarm s).lockP = s.lockP := rfl
@[simp] theorem alarm_lockC (s : State) : (alarm s).lockC = s.lockC := rfl
@[simp] theorem alarm_disp (s : State) : (alarm s).disp = s.disp := rfl
@[simp] theorem alarm_adopt (s : State) : (alarm s).adopt = s.adopt := rfl
@[simp] theorem alarm_ctl (s : State) : (alarm s).ctl = s.ctl := rfl
@[simp] theorem alarm_eng (s : State) : (alarm s).eng = s.eng := rfl
@[simp] theorem alarm_sup (s : State) : (alarm s).sup = s.sup := rfl
@[simp] theorem alarm_ul (s : State) : (alarm s).ul = s.ul := rfl
@[simp] theorem alarm_tally (s : State) : (alarm s).tally = s.tally := rfl
@[simp] theorem alarm_router (s : State) : (alarm s).router = s.router := rfl
@[simp] theorem alarm_tb (s : State) : (alarm s).tb = s.tb := rfl
@[simp] theorem alarm_kc (s : State) : (alarm s).kc = s.kc := rfl
@[simp] theorem alarm_mail (s : State) : (alarm s).mail = s.mail := rfl
@[simp] theorem alarm_counts (s : State) : (alarm s).counts = s.counts := rfl
@[simp] theorem alarm_openCount (s : State) : (alarm s).openCount = s.openCount := rfl
@[simp] theorem alarm_pending (s : State) : (alarm s).pending = s.pending := rfl
@[simp] theorem alarm_link (s : State) (i : Nat) : (alarm s).link i = s.link i := rfl
@[simp] theorem alarm_linkRec (s : State) (i : Nat) : (alarm s).linkRec i = s.linkRec i := rfl
@[simp] theorem alarm_linkDef (s : State) (i : Nat) : (alarm s).linkDef i = s.linkDef i := rfl
@[simp] theorem alarm_now (s : State) : (alarm s).now = s.now := rfl
@[simp] theorem alarm_running (s : State) : (alarm s).running = s.running := rfl
@[simp] theorem alarm_camOf (s : State) (cam : Nat) : camOf (alarm s) cam = camOf s cam := rfl

@[simp] theorem writeCellState_part (c v : Nat) (s : State) : (writeCellState c v s).part = s.part := rfl
@[simp] theorem writeCellState_lockP (c v : Nat) (s : State) : (writeCellState c v s).lockP = s.lockP := rfl
@[simp] theorem writeCellState_lockC (c v : Nat) (s : State) : (writeCellState c v s).lockC = s.lockC := rfl
@[simp] theorem writeCellState_disp (c v : Nat) (s : State) : (writeCellState c v s).disp = s.disp := rfl
@[simp] theorem writeCellState_adopt (c v : Nat) (s : State) : (writeCellState c v s).adopt = s.adopt := rfl
@[simp] theorem writeCellState_ctl (c v : Nat) (s : State) : (writeCellState c v s).ctl = s.ctl := rfl
@[simp] theorem writeCellState_eng (c v : Nat) (s : State) : (writeCellState c v s).eng = s.eng := rfl
@[simp] theorem writeCellState_sup (c v : Nat) (s : State) : (writeCellState c v s).sup = s.sup := rfl
@[simp] theorem writeCellState_ul (c v : Nat) (s : State) : (writeCellState c v s).ul = s.ul := rfl
@[simp] theorem writeCellState_tally (c v : Nat) (s : State) : (writeCellState c v s).tally = s.tally := rfl
@[simp] theorem writeCellState_router (c v : Nat) (s : State) : (writeCellState c v s).router = s.router := rfl
@[simp] theorem writeCellState_tb (c v : Nat) (s : State) : (writeCellState c v s).tb = s.tb := rfl
@[simp] theorem writeCellState_kc (c v : Nat) (s : State) : (writeCellState c v s).kc = s.kc := rfl
@[simp] theorem writeCellState_jw (c v : Nat) (s : State) : (writeCellState c v s).jw = s.jw := rfl
@[simp] theorem writeCellState_mail (c v : Nat) (s : State) : (writeCellState c v s).mail = s.mail := rfl
@[simp] theorem writeCellState_counts (c v : Nat) (s : State) : (writeCellState c v s).counts = s.counts := rfl
@[simp] theorem writeCellState_openCount (c v : Nat) (s : State) : (writeCellState c v s).openCount = s.openCount := rfl
@[simp] theorem writeCellState_pending (c v : Nat) (s : State) : (writeCellState c v s).pending = s.pending := rfl
@[simp] theorem writeCellState_link (c v : Nat) (s : State) (i : Nat) : (writeCellState c v s).link i = s.link i := rfl
@[simp] theorem writeCellState_linkRec (c v : Nat) (s : State) (i : Nat) : (writeCellState c v s).linkRec i = s.linkRec i := rfl
@[simp] theorem writeCellState_linkDef (c v : Nat) (s : State) (i : Nat) : (writeCellState c v s).linkDef i = s.linkDef i := rfl
@[simp] theorem writeCellState_now (c v : Nat) (s : State) : (writeCellState c v s).now = s.now := rfl
@[simp] theorem writeCellState_running (c v : Nat) (s : State) : (writeCellState c v s).running = s.running := rfl
@[simp] theorem writeCellState_camOf (c v : Nat) (s : State) (cam : Nat) : camOf (writeCellState c v s) cam = camOf s cam := rfl

@[simp] theorem writeHeader_part (c : Nat) (k : ResultCode) (x : Option Nat) (s : State) : (writeHeader c k x s).part = s.part := rfl
@[simp] theorem writeHeader_lockP (c : Nat) (k : ResultCode) (x : Option Nat) (s : State) : (writeHeader c k x s).lockP = s.lockP := rfl
@[simp] theorem writeHeader_lockC (c : Nat) (k : ResultCode) (x : Option Nat) (s : State) : (writeHeader c k x s).lockC = s.lockC := rfl
@[simp] theorem writeHeader_disp (c : Nat) (k : ResultCode) (x : Option Nat) (s : State) : (writeHeader c k x s).disp = s.disp := rfl
@[simp] theorem writeHeader_adopt (c : Nat) (k : ResultCode) (x : Option Nat) (s : State) : (writeHeader c k x s).adopt = s.adopt := rfl
@[simp] theorem writeHeader_ctl (c : Nat) (k : ResultCode) (x : Option Nat) (s : State) : (writeHeader c k x s).ctl = s.ctl := rfl
@[simp] theorem writeHeader_eng (c : Nat) (k : ResultCode) (x : Option Nat) (s : State) : (writeHeader c k x s).eng = s.eng := rfl
@[simp] theorem writeHeader_sup (c : Nat) (k : ResultCode) (x : Option Nat) (s : State) : (writeHeader c k x s).sup = s.sup := rfl
@[simp] theorem writeHeader_ul (c : Nat) (k : ResultCode) (x : Option Nat) (s : State) : (writeHeader c k x s).ul = s.ul := rfl
@[simp] theorem writeHeader_tally (c : Nat) (k : ResultCode) (x : Option Nat) (s : State) : (writeHeader c k x s).tally = s.tally := rfl
@[simp] theorem writeHeader_router (c : Nat) (k : ResultCode) (x : Option Nat) (s : State) : (writeHeader c k x s).router = s.router := rfl
@[simp] theorem writeHeader_tb (c : Nat) (k : ResultCode) (x : Option Nat) (s : State) : (writeHeader c k x s).tb = s.tb := rfl
@[simp] theorem writeHeader_kc (c : Nat) (k : ResultCode) (x : Option Nat) (s : State) : (writeHeader c k x s).kc = s.kc := rfl
@[simp] theorem writeHeader_jw (c : Nat) (k : ResultCode) (x : Option Nat) (s : State) : (writeHeader c k x s).jw = s.jw := rfl
@[simp] theorem writeHeader_mail (c : Nat) (k : ResultCode) (x : Option Nat) (s : State) : (writeHeader c k x s).mail = s.mail := rfl
@[simp] theorem writeHeader_counts (c : Nat) (k : ResultCode) (x : Option Nat) (s : State) : (writeHeader c k x s).counts = s.counts := rfl
@[simp] theorem writeHeader_openCount (c : Nat) (k : ResultCode) (x : Option Nat) (s : State) : (writeHeader c k x s).openCount = s.openCount := rfl
@[simp] theorem writeHeader_pending (c : Nat) (k : ResultCode) (x : Option Nat) (s : State) : (writeHeader c k x s).pending = s.pending := rfl
@[simp] theorem writeHeader_link (c : Nat) (k : ResultCode) (x : Option Nat) (s : State) (i : Nat) : (writeHeader c k x s).link i = s.link i := rfl
@[simp] theorem writeHeader_linkRec (c : Nat) (k : ResultCode) (x : Option Nat) (s : State) (i : Nat) : (writeHeader c k x s).linkRec i = s.linkRec i := rfl
@[simp] theorem writeHeader_linkDef (c : Nat) (k : ResultCode) (x : Option Nat) (s : State) (i : Nat) : (writeHeader c k x s).linkDef i = s.linkDef i := rfl
@[simp] theorem writeHeader_now (c : Nat) (k : ResultCode) (x : Option Nat) (s : State) : (writeHeader c k x s).now = s.now := rfl
@[simp] theorem writeHeader_running (c : Nat) (k : ResultCode) (x : Option Nat) (s : State) : (writeHeader c k x s).running = s.running := rfl
@[simp] theorem writeHeader_camOf (c : Nat) (k : ResultCode) (x : Option Nat) (s : State) (cam : Nat) : camOf (writeHeader c k x s) cam = camOf s cam := rfl

@[simp] theorem beginWork_part (g : OrderTag) (s : State) : (beginWork g s).part = s.part := rfl
@[simp] theorem beginWork_lockP (g : OrderTag) (s : State) : (beginWork g s).lockP = s.lockP := rfl
@[simp] theorem beginWork_lockC (g : OrderTag) (s : State) : (beginWork g s).lockC = s.lockC := rfl
@[simp] theorem beginWork_disp (g : OrderTag) (s : State) : (beginWork g s).disp = s.disp := rfl
@[simp] theorem beginWork_adopt (g : OrderTag) (s : State) : (beginWork g s).adopt = s.adopt := rfl
@[simp] theorem beginWork_ctl (g : OrderTag) (s : State) : (beginWork g s).ctl = s.ctl := rfl
@[simp] theorem beginWork_eng (g : OrderTag) (s : State) : (beginWork g s).eng = s.eng := rfl
@[simp] theorem beginWork_sup (g : OrderTag) (s : State) : (beginWork g s).sup = s.sup := rfl
@[simp] theorem beginWork_ul (g : OrderTag) (s : State) : (beginWork g s).ul = s.ul := rfl
@[simp] theorem beginWork_tally (g : OrderTag) (s : State) : (beginWork g s).tally = s.tally := rfl
@[simp] theorem beginWork_router (g : OrderTag) (s : State) : (beginWork g s).router = s.router := rfl
@[simp] theorem beginWork_tb (g : OrderTag) (s : State) : (beginWork g s).tb = s.tb := rfl
@[simp] theorem beginWork_kc (g : OrderTag) (s : State) : (beginWork g s).kc = s.kc := rfl
@[simp] theorem beginWork_jw (g : OrderTag) (s : State) : (beginWork g s).jw = s.jw := rfl
@[simp] theorem beginWork_mail (g : OrderTag) (s : State) : (beginWork g s).mail = s.mail := rfl
@[simp] theorem beginWork_counts (g : OrderTag) (s : State) : (beginWork g s).counts = s.counts := rfl
@[simp] theorem beginWork_openCount (g : OrderTag) (s : State) : (beginWork g s).openCount = s.openCount := rfl
@[simp] theorem beginWork_pending (g : OrderTag) (s : State) : (beginWork g s).pending = s.pending := rfl
@[simp] theorem beginWork_link (g : OrderTag) (s : State) (i : Nat) : (beginWork g s).link i = s.link i := rfl
@[simp] theorem beginWork_linkRec (g : OrderTag) (s : State) (i : Nat) : (beginWork g s).linkRec i = s.linkRec i := rfl
@[simp] theorem beginWork_linkDef (g : OrderTag) (s : State) (i : Nat) : (beginWork g s).linkDef i = s.linkDef i := rfl
@[simp] theorem beginWork_now (g : OrderTag) (s : State) : (beginWork g s).now = s.now := rfl
@[simp] theorem beginWork_running (g : OrderTag) (s : State) : (beginWork g s).running = s.running := rfl
@[simp] theorem beginWork_camOf (g : OrderTag) (s : State) (cam : Nat) : camOf (beginWork g s) cam = camOf s cam := rfl

@[simp] theorem pushRequest_part (r : CtlReq) (s : State) : (pushRequest r s).part = s.part := rfl
@[simp] theorem pushRequest_mem (r : CtlReq) (s : State) : (pushRequest r s).mem = s.mem := rfl
@[simp] theorem pushRequest_lockP (r : CtlReq) (s : State) : (pushRequest r s).lockP = s.lockP := rfl
@[simp] theorem pushRequest_lockC (r : CtlReq) (s : State) : (pushRequest r s).lockC = s.lockC := rfl
@[simp] theorem pushRequest_disp (r : CtlReq) (s : State) : (pushRequest r s).disp = s.disp := rfl
@[simp] theorem pushRequest_adopt (r : CtlReq) (s : State) : (pushRequest r s).adopt = s.adopt := rfl
@[simp] theorem pushRequest_eng (r : CtlReq) (s : State) : (pushRequest r s).eng = s.eng := rfl
@[simp] theorem pushRequest_sup (r : CtlReq) (s : State) : (pushRequest r s).sup = s.sup := rfl
@[simp] theorem pushRequest_ul (r : CtlReq) (s : State) : (pushRequest r s).ul = s.ul := rfl
@[simp] theorem pushRequest_tally (r : CtlReq) (s : State) : (pushRequest r s).tally = s.tally := rfl
@[simp] theorem pushRequest_router (r : CtlReq) (s : State) : (pushRequest r s).router = s.router := rfl
@[simp] theorem pushRequest_tb (r : CtlReq) (s : State) : (pushRequest r s).tb = s.tb := rfl
@[simp] theorem pushRequest_kc (r : CtlReq) (s : State) : (pushRequest r s).kc = s.kc := rfl
@[simp] theorem pushRequest_jw (r : CtlReq) (s : State) : (pushRequest r s).jw = s.jw := rfl
@[simp] theorem pushRequest_mail (r : CtlReq) (s : State) : (pushRequest r s).mail = s.mail := rfl
@[simp] theorem pushRequest_counts (r : CtlReq) (s : State) : (pushRequest r s).counts = s.counts := rfl
@[simp] theorem pushRequest_openCount (r : CtlReq) (s : State) : (pushRequest r s).openCount = s.openCount := rfl
@[simp] theorem pushRequest_pending (r : CtlReq) (s : State) : (pushRequest r s).pending = s.pending := rfl
@[simp] theorem pushRequest_link (r : CtlReq) (s : State) (i : Nat) : (pushRequest r s).link i = s.link i := rfl
@[simp] theorem pushRequest_linkRec (r : CtlReq) (s : State) (i : Nat) : (pushRequest r s).linkRec i = s.linkRec i := rfl
@[simp] theorem pushRequest_linkDef (r : CtlReq) (s : State) (i : Nat) : (pushRequest r s).linkDef i = s.linkDef i := rfl
@[simp] theorem pushRequest_now (r : CtlReq) (s : State) : (pushRequest r s).now = s.now := rfl
@[simp] theorem pushRequest_running (r : CtlReq) (s : State) : (pushRequest r s).running = s.running := rfl
@[simp] theorem pushRequest_camOf (r : CtlReq) (s : State) (cam : Nat) : camOf (pushRequest r s) cam = camOf s cam := rfl

@[simp] theorem modAux_part (i : Nat) (f : LinkAux → LinkAux) (s : State) : (modAux i f s).part = s.part := rfl
@[simp] theorem modAux_mem (i : Nat) (f : LinkAux → LinkAux) (s : State) : (modAux i f s).mem = s.mem := rfl
@[simp] theorem modAux_lockP (i : Nat) (f : LinkAux → LinkAux) (s : State) : (modAux i f s).lockP = s.lockP := rfl
@[simp] theorem modAux_lockC (i : Nat) (f : LinkAux → LinkAux) (s : State) : (modAux i f s).lockC = s.lockC := rfl
@[simp] theorem modAux_disp (i : Nat) (f : LinkAux → LinkAux) (s : State) : (modAux i f s).disp = s.disp := rfl
@[simp] theorem modAux_adopt (i : Nat) (f : LinkAux → LinkAux) (s : State) : (modAux i f s).adopt = s.adopt := rfl
@[simp] theorem modAux_ctl (i : Nat) (f : LinkAux → LinkAux) (s : State) : (modAux i f s).ctl = s.ctl := rfl
@[simp] theorem modAux_eng (i : Nat) (f : LinkAux → LinkAux) (s : State) : (modAux i f s).eng = s.eng := rfl
@[simp] theorem modAux_ul (i : Nat) (f : LinkAux → LinkAux) (s : State) : (modAux i f s).ul = s.ul := rfl
@[simp] theorem modAux_tally (i : Nat) (f : LinkAux → LinkAux) (s : State) : (modAux i f s).tally = s.tally := rfl
@[simp] theorem modAux_router (i : Nat) (f : LinkAux → LinkAux) (s : State) : (modAux i f s).router = s.router := rfl
@[simp] theorem modAux_tb (i : Nat) (f : LinkAux → LinkAux) (s : State) : (modAux i f s).tb = s.tb := rfl
@[simp] theorem modAux_kc (i : Nat) (f : LinkAux → LinkAux) (s : State) : (modAux i f s).kc = s.kc := rfl
@[simp] theorem modAux_jw (i : Nat) (f : LinkAux → LinkAux) (s : State) : (modAux i f s).jw = s.jw := rfl
@[simp] theorem modAux_mail (i : Nat) (f : LinkAux → LinkAux) (s : State) : (modAux i f s).mail = s.mail := rfl
@[simp] theorem modAux_counts (i : Nat) (f : LinkAux → LinkAux) (s : State) : (modAux i f s).counts = s.counts := rfl
@[simp] theorem modAux_openCount (i : Nat) (f : LinkAux → LinkAux) (s : State) : (modAux i f s).openCount = s.openCount := rfl
@[simp] theorem modAux_pending (i : Nat) (f : LinkAux → LinkAux) (s : State) : (modAux i f s).pending = s.pending := rfl
@[simp] theorem modAux_now (i : Nat) (f : LinkAux → LinkAux) (s : State) : (modAux i f s).now = s.now := rfl
@[simp] theorem modAux_running (i : Nat) (f : LinkAux → LinkAux) (s : State) : (modAux i f s).running = s.running := rfl
@[simp] theorem modAux_camOf (i : Nat) (f : LinkAux → LinkAux) (s : State) (cam : Nat) : camOf (modAux i f s) cam = camOf s cam := rfl

@[simp] theorem placeControl_part (r : ControlReq) (s : State) : (placeControl r s).part = s.part := rfl
@[simp] theorem placeControl_mem (r : ControlReq) (s : State) : (placeControl r s).mem = s.mem := rfl
@[simp] theorem placeControl_lockP (r : ControlReq) (s : State) : (placeControl r s).lockP = s.lockP := rfl
@[simp] theorem placeControl_lockC (r : ControlReq) (s : State) : (placeControl r s).lockC = s.lockC := rfl
@[simp] theorem placeControl_disp (r : ControlReq) (s : State) : (placeControl r s).disp = s.disp := rfl
@[simp] theorem placeControl_adopt (r : ControlReq) (s : State) : (placeControl r s).adopt = s.adopt := rfl
@[simp] theorem placeControl_ctl (r : ControlReq) (s : State) : (placeControl r s).ctl = s.ctl := rfl
@[simp] theorem placeControl_eng (r : ControlReq) (s : State) : (placeControl r s).eng = s.eng := rfl
@[simp] theorem placeControl_sup (r : ControlReq) (s : State) : (placeControl r s).sup = s.sup := rfl
@[simp] theorem placeControl_tally (r : ControlReq) (s : State) : (placeControl r s).tally = s.tally := rfl
@[simp] theorem placeControl_router (r : ControlReq) (s : State) : (placeControl r s).router = s.router := rfl
@[simp] theorem placeControl_tb (r : ControlReq) (s : State) : (placeControl r s).tb = s.tb := rfl
@[simp] theorem placeControl_kc (r : ControlReq) (s : State) : (placeControl r s).kc = s.kc := rfl
@[simp] theorem placeControl_jw (r : ControlReq) (s : State) : (placeControl r s).jw = s.jw := rfl
@[simp] theorem placeControl_mail (r : ControlReq) (s : State) : (placeControl r s).mail = s.mail := rfl
@[simp] theorem placeControl_counts (r : ControlReq) (s : State) : (placeControl r s).counts = s.counts := rfl
@[simp] theorem placeControl_openCount (r : ControlReq) (s : State) : (placeControl r s).openCount = s.openCount := rfl
@[simp] theorem placeControl_pending (r : ControlReq) (s : State) : (placeControl r s).pending = s.pending := rfl
@[simp] theorem placeControl_link (r : ControlReq) (s : State) (i : Nat) : (placeControl r s).link i = s.link i := rfl
@[simp] theorem placeControl_linkRec (r : ControlReq) (s : State) (i : Nat) : (placeControl r s).linkRec i = s.linkRec i := rfl
@[simp] theorem placeControl_linkDef (r : ControlReq) (s : State) (i : Nat) : (placeControl r s).linkDef i = s.linkDef i := rfl
@[simp] theorem placeControl_now (r : ControlReq) (s : State) : (placeControl r s).now = s.now := rfl
@[simp] theorem placeControl_running (r : ControlReq) (s : State) : (placeControl r s).running = s.running := rfl
@[simp] theorem placeControl_camOf (r : ControlReq) (s : State) (cam : Nat) : camOf (placeControl r s) cam = camOf s cam := rfl

@[simp] theorem withdrawControl_part (l : Nat) (s : State) : (withdrawControl l s).part = s.part := rfl
@[simp] theorem withdrawControl_mem (l : Nat) (s : State) : (withdrawControl l s).mem = s.mem := rfl
@[simp] theorem withdrawControl_lockP (l : Nat) (s : State) : (withdrawControl l s).lockP = s.lockP := rfl
@[simp] theorem withdrawControl_lockC (l : Nat) (s : State) : (withdrawControl l s).lockC = s.lockC := rfl
@[simp] theorem withdrawControl_disp (l : Nat) (s : State) : (withdrawControl l s).disp = s.disp := rfl
@[simp] theorem withdrawControl_adopt (l : Nat) (s : State) : (withdrawControl l s).adopt = s.adopt := rfl
@[simp] theorem withdrawControl_ctl (l : Nat) (s : State) : (withdrawControl l s).ctl = s.ctl := rfl
@[simp] theorem withdrawControl_eng (l : Nat) (s : State) : (withdrawControl l s).eng = s.eng := rfl
@[simp] theorem withdrawControl_sup (l : Nat) (s : State) : (withdrawControl l s).sup = s.sup := rfl
@[simp] theorem withdrawControl_tally (l : Nat) (s : State) : (withdrawControl l s).tally = s.tally := rfl
@[simp] theorem withdrawControl_router (l : Nat) (s : State) : (withdrawControl l s).router = s.router := rfl
@[simp] theorem withdrawControl_tb (l : Nat) (s : State) : (withdrawControl l s).tb = s.tb := rfl
@[simp] theorem withdrawControl_kc (l : Nat) (s : State) : (withdrawControl l s).kc = s.kc := rfl
@[simp] theorem withdrawControl_jw (l : Nat) (s : State) : (withdrawControl l s).jw = s.jw := rfl
@[simp] theorem withdrawControl_mail (l : Nat) (s : State) : (withdrawControl l s).mail = s.mail := rfl
@[simp] theorem withdrawControl_counts (l : Nat) (s : State) : (withdrawControl l s).counts = s.counts := rfl
@[simp] theorem withdrawControl_openCount (l : Nat) (s : State) : (withdrawControl l s).openCount = s.openCount := rfl
@[simp] theorem withdrawControl_pending (l : Nat) (s : State) : (withdrawControl l s).pending = s.pending := rfl
@[simp] theorem withdrawControl_link (l : Nat) (s : State) (i : Nat) : (withdrawControl l s).link i = s.link i := rfl
@[simp] theorem withdrawControl_linkRec (l : Nat) (s : State) (i : Nat) : (withdrawControl l s).linkRec i = s.linkRec i := rfl
@[simp] theorem withdrawControl_linkDef (l : Nat) (s : State) (i : Nat) : (withdrawControl l s).linkDef i = s.linkDef i := rfl
@[simp] theorem withdrawControl_now (l : Nat) (s : State) : (withdrawControl l s).now = s.now := rfl
@[simp] theorem withdrawControl_running (l : Nat) (s : State) : (withdrawControl l s).running = s.running := rfl
@[simp] theorem withdrawControl_camOf (l : Nat) (s : State) (cam : Nat) : camOf (withdrawControl l s) cam = camOf s cam := rfl

@[simp] theorem withdrawForKill_part (l : Nat) (s : State) : (withdrawForKill l s).part = s.part := rfl
@[simp] theorem withdrawForKill_mem (l : Nat) (s : State) : (withdrawForKill l s).mem = s.mem := rfl
@[simp] theorem withdrawForKill_lockP (l : Nat) (s : State) : (withdrawForKill l s).lockP = s.lockP := rfl
@[simp] theorem withdrawForKill_lockC (l : Nat) (s : State) : (withdrawForKill l s).lockC = s.lockC := rfl
@[simp] theorem withdrawForKill_disp (l : Nat) (s : State) : (withdrawForKill l s).disp = s.disp := rfl
@[simp] theorem withdrawForKill_adopt (l : Nat) (s : State) : (withdrawForKill l s).adopt = s.adopt := rfl
@[simp] theorem withdrawForKill_ctl (l : Nat) (s : State) : (withdrawForKill l s).ctl = s.ctl := rfl
@[simp] theorem withdrawForKill_eng (l : Nat) (s : State) : (withdrawForKill l s).eng = s.eng := rfl
@[simp] theorem withdrawForKill_sup (l : Nat) (s : State) : (withdrawForKill l s).sup = s.sup := rfl
@[simp] theorem withdrawForKill_tally (l : Nat) (s : State) : (withdrawForKill l s).tally = s.tally := rfl
@[simp] theorem withdrawForKill_router (l : Nat) (s : State) : (withdrawForKill l s).router = s.router := rfl
@[simp] theorem withdrawForKill_tb (l : Nat) (s : State) : (withdrawForKill l s).tb = s.tb := rfl
@[simp] theorem withdrawForKill_kc (l : Nat) (s : State) : (withdrawForKill l s).kc = s.kc := rfl
@[simp] theorem withdrawForKill_jw (l : Nat) (s : State) : (withdrawForKill l s).jw = s.jw := rfl
@[simp] theorem withdrawForKill_mail (l : Nat) (s : State) : (withdrawForKill l s).mail = s.mail := rfl
@[simp] theorem withdrawForKill_counts (l : Nat) (s : State) : (withdrawForKill l s).counts = s.counts := rfl
@[simp] theorem withdrawForKill_openCount (l : Nat) (s : State) : (withdrawForKill l s).openCount = s.openCount := rfl
@[simp] theorem withdrawForKill_pending (l : Nat) (s : State) : (withdrawForKill l s).pending = s.pending := rfl
@[simp] theorem withdrawForKill_link (l : Nat) (s : State) (i : Nat) : (withdrawForKill l s).link i = s.link i := rfl
@[simp] theorem withdrawForKill_linkRec (l : Nat) (s : State) (i : Nat) : (withdrawForKill l s).linkRec i = s.linkRec i := rfl
@[simp] theorem withdrawForKill_linkDef (l : Nat) (s : State) (i : Nat) : (withdrawForKill l s).linkDef i = s.linkDef i := rfl
@[simp] theorem withdrawForKill_now (l : Nat) (s : State) : (withdrawForKill l s).now = s.now := rfl
@[simp] theorem withdrawForKill_running (l : Nat) (s : State) : (withdrawForKill l s).running = s.running := rfl
@[simp] theorem withdrawForKill_camOf (l : Nat) (s : State) (cam : Nat) : camOf (withdrawForKill l s) cam = camOf s cam := rfl

@[simp] theorem placeCue_part (r : CueReq) (s : State) : (placeCue r s).part = s.part := rfl
@[simp] theorem placeCue_mem (r : CueReq) (s : State) : (placeCue r s).mem = s.mem := rfl
@[simp] theorem placeCue_lockP (r : CueReq) (s : State) : (placeCue r s).lockP = s.lockP := rfl
@[simp] theorem placeCue_lockC (r : CueReq) (s : State) : (placeCue r s).lockC = s.lockC := rfl
@[simp] theorem placeCue_disp (r : CueReq) (s : State) : (placeCue r s).disp = s.disp := rfl
@[simp] theorem placeCue_adopt (r : CueReq) (s : State) : (placeCue r s).adopt = s.adopt := rfl
@[simp] theorem placeCue_ctl (r : CueReq) (s : State) : (placeCue r s).ctl = s.ctl := rfl
@[simp] theorem placeCue_eng (r : CueReq) (s : State) : (placeCue r s).eng = s.eng := rfl
@[simp] theorem placeCue_sup (r : CueReq) (s : State) : (placeCue r s).sup = s.sup := rfl
@[simp] theorem placeCue_tally (r : CueReq) (s : State) : (placeCue r s).tally = s.tally := rfl
@[simp] theorem placeCue_router (r : CueReq) (s : State) : (placeCue r s).router = s.router := rfl
@[simp] theorem placeCue_tb (r : CueReq) (s : State) : (placeCue r s).tb = s.tb := rfl
@[simp] theorem placeCue_kc (r : CueReq) (s : State) : (placeCue r s).kc = s.kc := rfl
@[simp] theorem placeCue_jw (r : CueReq) (s : State) : (placeCue r s).jw = s.jw := rfl
@[simp] theorem placeCue_mail (r : CueReq) (s : State) : (placeCue r s).mail = s.mail := rfl
@[simp] theorem placeCue_counts (r : CueReq) (s : State) : (placeCue r s).counts = s.counts := rfl
@[simp] theorem placeCue_openCount (r : CueReq) (s : State) : (placeCue r s).openCount = s.openCount := rfl
@[simp] theorem placeCue_pending (r : CueReq) (s : State) : (placeCue r s).pending = s.pending := rfl
@[simp] theorem placeCue_link (r : CueReq) (s : State) (i : Nat) : (placeCue r s).link i = s.link i := rfl
@[simp] theorem placeCue_linkRec (r : CueReq) (s : State) (i : Nat) : (placeCue r s).linkRec i = s.linkRec i := rfl
@[simp] theorem placeCue_linkDef (r : CueReq) (s : State) (i : Nat) : (placeCue r s).linkDef i = s.linkDef i := rfl
@[simp] theorem placeCue_now (r : CueReq) (s : State) : (placeCue r s).now = s.now := rfl
@[simp] theorem placeCue_running (r : CueReq) (s : State) : (placeCue r s).running = s.running := rfl
@[simp] theorem placeCue_camOf (r : CueReq) (s : State) (cam : Nat) : camOf (placeCue r s) cam = camOf s cam := rfl

@[simp] theorem withdrawCue_part (c : Nat) (s : State) : (withdrawCue c s).part = s.part := rfl
@[simp] theorem withdrawCue_mem (c : Nat) (s : State) : (withdrawCue c s).mem = s.mem := rfl
@[simp] theorem withdrawCue_lockP (c : Nat) (s : State) : (withdrawCue c s).lockP = s.lockP := rfl
@[simp] theorem withdrawCue_lockC (c : Nat) (s : State) : (withdrawCue c s).lockC = s.lockC := rfl
@[simp] theorem withdrawCue_disp (c : Nat) (s : State) : (withdrawCue c s).disp = s.disp := rfl
@[simp] theorem withdrawCue_adopt (c : Nat) (s : State) : (withdrawCue c s).adopt = s.adopt := rfl
@[simp] theorem withdrawCue_ctl (c : Nat) (s : State) : (withdrawCue c s).ctl = s.ctl := rfl
@[simp] theorem withdrawCue_eng (c : Nat) (s : State) : (withdrawCue c s).eng = s.eng := rfl
@[simp] theorem withdrawCue_sup (c : Nat) (s : State) : (withdrawCue c s).sup = s.sup := rfl
@[simp] theorem withdrawCue_tally (c : Nat) (s : State) : (withdrawCue c s).tally = s.tally := rfl
@[simp] theorem withdrawCue_router (c : Nat) (s : State) : (withdrawCue c s).router = s.router := rfl
@[simp] theorem withdrawCue_tb (c : Nat) (s : State) : (withdrawCue c s).tb = s.tb := rfl
@[simp] theorem withdrawCue_kc (c : Nat) (s : State) : (withdrawCue c s).kc = s.kc := rfl
@[simp] theorem withdrawCue_jw (c : Nat) (s : State) : (withdrawCue c s).jw = s.jw := rfl
@[simp] theorem withdrawCue_mail (c : Nat) (s : State) : (withdrawCue c s).mail = s.mail := rfl
@[simp] theorem withdrawCue_counts (c : Nat) (s : State) : (withdrawCue c s).counts = s.counts := rfl
@[simp] theorem withdrawCue_openCount (c : Nat) (s : State) : (withdrawCue c s).openCount = s.openCount := rfl
@[simp] theorem withdrawCue_pending (c : Nat) (s : State) : (withdrawCue c s).pending = s.pending := rfl
@[simp] theorem withdrawCue_link (c : Nat) (s : State) (i : Nat) : (withdrawCue c s).link i = s.link i := rfl
@[simp] theorem withdrawCue_linkRec (c : Nat) (s : State) (i : Nat) : (withdrawCue c s).linkRec i = s.linkRec i := rfl
@[simp] theorem withdrawCue_linkDef (c : Nat) (s : State) (i : Nat) : (withdrawCue c s).linkDef i = s.linkDef i := rfl
@[simp] theorem withdrawCue_now (c : Nat) (s : State) : (withdrawCue c s).now = s.now := rfl
@[simp] theorem withdrawCue_running (c : Nat) (s : State) : (withdrawCue c s).running = s.running := rfl
@[simp] theorem withdrawCue_camOf (c : Nat) (s : State) (cam : Nat) : camOf (withdrawCue c s) cam = camOf s cam := rfl

@[simp] theorem placeKill_part (r : KillReq) (s : State) : (placeKill r s).part = s.part := rfl
@[simp] theorem placeKill_mem (r : KillReq) (s : State) : (placeKill r s).mem = s.mem := rfl
@[simp] theorem placeKill_lockP (r : KillReq) (s : State) : (placeKill r s).lockP = s.lockP := rfl
@[simp] theorem placeKill_lockC (r : KillReq) (s : State) : (placeKill r s).lockC = s.lockC := rfl
@[simp] theorem placeKill_disp (r : KillReq) (s : State) : (placeKill r s).disp = s.disp := rfl
@[simp] theorem placeKill_adopt (r : KillReq) (s : State) : (placeKill r s).adopt = s.adopt := rfl
@[simp] theorem placeKill_ctl (r : KillReq) (s : State) : (placeKill r s).ctl = s.ctl := rfl
@[simp] theorem placeKill_eng (r : KillReq) (s : State) : (placeKill r s).eng = s.eng := rfl
@[simp] theorem placeKill_sup (r : KillReq) (s : State) : (placeKill r s).sup = s.sup := rfl
@[simp] theorem placeKill_tally (r : KillReq) (s : State) : (placeKill r s).tally = s.tally := rfl
@[simp] theorem placeKill_router (r : KillReq) (s : State) : (placeKill r s).router = s.router := rfl
@[simp] theorem placeKill_tb (r : KillReq) (s : State) : (placeKill r s).tb = s.tb := rfl
@[simp] theorem placeKill_kc (r : KillReq) (s : State) : (placeKill r s).kc = s.kc := rfl
@[simp] theorem placeKill_jw (r : KillReq) (s : State) : (placeKill r s).jw = s.jw := rfl
@[simp] theorem placeKill_mail (r : KillReq) (s : State) : (placeKill r s).mail = s.mail := rfl
@[simp] theorem placeKill_counts (r : KillReq) (s : State) : (placeKill r s).counts = s.counts := rfl
@[simp] theorem placeKill_openCount (r : KillReq) (s : State) : (placeKill r s).openCount = s.openCount := rfl
@[simp] theorem placeKill_pending (r : KillReq) (s : State) : (placeKill r s).pending = s.pending := rfl
@[simp] theorem placeKill_link (r : KillReq) (s : State) (i : Nat) : (placeKill r s).link i = s.link i := rfl
@[simp] theorem placeKill_linkRec (r : KillReq) (s : State) (i : Nat) : (placeKill r s).linkRec i = s.linkRec i := rfl
@[simp] theorem placeKill_linkDef (r : KillReq) (s : State) (i : Nat) : (placeKill r s).linkDef i = s.linkDef i := rfl
@[simp] theorem placeKill_now (r : KillReq) (s : State) : (placeKill r s).now = s.now := rfl
@[simp] theorem placeKill_running (r : KillReq) (s : State) : (placeKill r s).running = s.running := rfl
@[simp] theorem placeKill_camOf (r : KillReq) (s : State) (cam : Nat) : camOf (placeKill r s) cam = camOf s cam := rfl

@[simp] theorem placeSweep_part (r : SweepReq) (s : State) : (placeSweep r s).part = s.part := rfl
@[simp] theorem placeSweep_mem (r : SweepReq) (s : State) : (placeSweep r s).mem = s.mem := rfl
@[simp] theorem placeSweep_lockP (r : SweepReq) (s : State) : (placeSweep r s).lockP = s.lockP := rfl
@[simp] theorem placeSweep_lockC (r : SweepReq) (s : State) : (placeSweep r s).lockC = s.lockC := rfl
@[simp] theorem placeSweep_disp (r : SweepReq) (s : State) : (placeSweep r s).disp = s.disp := rfl
@[simp] theorem placeSweep_adopt (r : SweepReq) (s : State) : (placeSweep r s).adopt = s.adopt := rfl
@[simp] theorem placeSweep_ctl (r : SweepReq) (s : State) : (placeSweep r s).ctl = s.ctl := rfl
@[simp] theorem placeSweep_eng (r : SweepReq) (s : State) : (placeSweep r s).eng = s.eng := rfl
@[simp] theorem placeSweep_sup (r : SweepReq) (s : State) : (placeSweep r s).sup = s.sup := rfl
@[simp] theorem placeSweep_tally (r : SweepReq) (s : State) : (placeSweep r s).tally = s.tally := rfl
@[simp] theorem placeSweep_router (r : SweepReq) (s : State) : (placeSweep r s).router = s.router := rfl
@[simp] theorem placeSweep_tb (r : SweepReq) (s : State) : (placeSweep r s).tb = s.tb := rfl
@[simp] theorem placeSweep_kc (r : SweepReq) (s : State) : (placeSweep r s).kc = s.kc := rfl
@[simp] theorem placeSweep_jw (r : SweepReq) (s : State) : (placeSweep r s).jw = s.jw := rfl
@[simp] theorem placeSweep_mail (r : SweepReq) (s : State) : (placeSweep r s).mail = s.mail := rfl
@[simp] theorem placeSweep_counts (r : SweepReq) (s : State) : (placeSweep r s).counts = s.counts := rfl
@[simp] theorem placeSweep_openCount (r : SweepReq) (s : State) : (placeSweep r s).openCount = s.openCount := rfl
@[simp] theorem placeSweep_pending (r : SweepReq) (s : State) : (placeSweep r s).pending = s.pending := rfl
@[simp] theorem placeSweep_link (r : SweepReq) (s : State) (i : Nat) : (placeSweep r s).link i = s.link i := rfl
@[simp] theorem placeSweep_linkRec (r : SweepReq) (s : State) (i : Nat) : (placeSweep r s).linkRec i = s.linkRec i := rfl
@[simp] theorem placeSweep_linkDef (r : SweepReq) (s : State) (i : Nat) : (placeSweep r s).linkDef i = s.linkDef i := rfl
@[simp] theorem placeSweep_now (r : SweepReq) (s : State) : (placeSweep r s).now = s.now := rfl
@[simp] theorem placeSweep_running (r : SweepReq) (s : State) : (placeSweep r s).running = s.running := rfl
@[simp] theorem placeSweep_camOf (r : SweepReq) (s : State) (cam : Nat) : camOf (placeSweep r s) cam = camOf s cam := rfl

@[simp] theorem setService_part (v : Option Service) (s : State) : (setService v s).part = s.part := rfl
@[simp] theorem setService_mem (v : Option Service) (s : State) : (setService v s).mem = s.mem := rfl
@[simp] theorem setService_lockP (v : Option Service) (s : State) : (setService v s).lockP = s.lockP := rfl
@[simp] theorem setService_lockC (v : Option Service) (s : State) : (setService v s).lockC = s.lockC := rfl
@[simp] theorem setService_disp (v : Option Service) (s : State) : (setService v s).disp = s.disp := rfl
@[simp] theorem setService_adopt (v : Option Service) (s : State) : (setService v s).adopt = s.adopt := rfl
@[simp] theorem setService_ctl (v : Option Service) (s : State) : (setService v s).ctl = s.ctl := rfl
@[simp] theorem setService_sup (v : Option Service) (s : State) : (setService v s).sup = s.sup := rfl
@[simp] theorem setService_ul (v : Option Service) (s : State) : (setService v s).ul = s.ul := rfl
@[simp] theorem setService_tally (v : Option Service) (s : State) : (setService v s).tally = s.tally := rfl
@[simp] theorem setService_router (v : Option Service) (s : State) : (setService v s).router = s.router := rfl
@[simp] theorem setService_tb (v : Option Service) (s : State) : (setService v s).tb = s.tb := rfl
@[simp] theorem setService_kc (v : Option Service) (s : State) : (setService v s).kc = s.kc := rfl
@[simp] theorem setService_jw (v : Option Service) (s : State) : (setService v s).jw = s.jw := rfl
@[simp] theorem setService_mail (v : Option Service) (s : State) : (setService v s).mail = s.mail := rfl
@[simp] theorem setService_counts (v : Option Service) (s : State) : (setService v s).counts = s.counts := rfl
@[simp] theorem setService_openCount (v : Option Service) (s : State) : (setService v s).openCount = s.openCount := rfl
@[simp] theorem setService_pending (v : Option Service) (s : State) : (setService v s).pending = s.pending := rfl
@[simp] theorem setService_link (v : Option Service) (s : State) (i : Nat) : (setService v s).link i = s.link i := rfl
@[simp] theorem setService_linkRec (v : Option Service) (s : State) (i : Nat) : (setService v s).linkRec i = s.linkRec i := rfl
@[simp] theorem setService_linkDef (v : Option Service) (s : State) (i : Nat) : (setService v s).linkDef i = s.linkDef i := rfl
@[simp] theorem setService_now (v : Option Service) (s : State) : (setService v s).now = s.now := rfl
@[simp] theorem setService_running (v : Option Service) (s : State) : (setService v s).running = s.running := rfl
@[simp] theorem setService_camOf (v : Option Service) (s : State) (cam : Nat) : camOf (setService v s) cam = camOf s cam := rfl

@[simp] theorem leaveIntake_part (s : State) : (leaveIntake s).part = s.part := rfl
@[simp] theorem leaveIntake_mem (s : State) : (leaveIntake s).mem = s.mem := rfl
@[simp] theorem leaveIntake_lockP (s : State) : (leaveIntake s).lockP = s.lockP := rfl
@[simp] theorem leaveIntake_lockC (s : State) : (leaveIntake s).lockC = s.lockC := rfl
@[simp] theorem leaveIntake_adopt (s : State) : (leaveIntake s).adopt = s.adopt := rfl
@[simp] theorem leaveIntake_ctl (s : State) : (leaveIntake s).ctl = s.ctl := rfl
@[simp] theorem leaveIntake_eng (s : State) : (leaveIntake s).eng = s.eng := rfl
@[simp] theorem leaveIntake_sup (s : State) : (leaveIntake s).sup = s.sup := rfl
@[simp] theorem leaveIntake_ul (s : State) : (leaveIntake s).ul = s.ul := rfl
@[simp] theorem leaveIntake_tally (s : State) : (leaveIntake s).tally = s.tally := rfl
@[simp] theorem leaveIntake_router (s : State) : (leaveIntake s).router = s.router := rfl
@[simp] theorem leaveIntake_tb (s : State) : (leaveIntake s).tb = s.tb := rfl
@[simp] theorem leaveIntake_kc (s : State) : (leaveIntake s).kc = s.kc := rfl
@[simp] theorem leaveIntake_jw (s : State) : (leaveIntake s).jw = s.jw := rfl
@[simp] theorem leaveIntake_mail (s : State) : (leaveIntake s).mail = s.mail := rfl
@[simp] theorem leaveIntake_counts (s : State) : (leaveIntake s).counts = s.counts := rfl
@[simp] theorem leaveIntake_openCount (s : State) : (leaveIntake s).openCount = s.openCount := rfl
@[simp] theorem leaveIntake_pending (s : State) : (leaveIntake s).pending = s.pending := rfl
@[simp] theorem leaveIntake_link (s : State) (i : Nat) : (leaveIntake s).link i = s.link i := rfl
@[simp] theorem leaveIntake_linkRec (s : State) (i : Nat) : (leaveIntake s).linkRec i = s.linkRec i := rfl
@[simp] theorem leaveIntake_linkDef (s : State) (i : Nat) : (leaveIntake s).linkDef i = s.linkDef i := rfl
@[simp] theorem leaveIntake_now (s : State) : (leaveIntake s).now = s.now := rfl
@[simp] theorem leaveIntake_running (s : State) : (leaveIntake s).running = s.running := rfl
@[simp] theorem leaveIntake_camOf (s : State) (cam : Nat) : camOf (leaveIntake s) cam = camOf s cam := rfl

@[simp] theorem enterService_part (c : Nat) (s : State) : (enterService c s).part = s.part := rfl
@[simp] theorem enterService_mem (c : Nat) (s : State) : (enterService c s).mem = s.mem := rfl
@[simp] theorem enterService_lockP (c : Nat) (s : State) : (enterService c s).lockP = s.lockP := rfl
@[simp] theorem enterService_lockC (c : Nat) (s : State) : (enterService c s).lockC = s.lockC := rfl
@[simp] theorem enterService_adopt (c : Nat) (s : State) : (enterService c s).adopt = s.adopt := rfl
@[simp] theorem enterService_ctl (c : Nat) (s : State) : (enterService c s).ctl = s.ctl := rfl
@[simp] theorem enterService_eng (c : Nat) (s : State) : (enterService c s).eng = s.eng := rfl
@[simp] theorem enterService_sup (c : Nat) (s : State) : (enterService c s).sup = s.sup := rfl
@[simp] theorem enterService_ul (c : Nat) (s : State) : (enterService c s).ul = s.ul := rfl
@[simp] theorem enterService_tally (c : Nat) (s : State) : (enterService c s).tally = s.tally := rfl
@[simp] theorem enterService_router (c : Nat) (s : State) : (enterService c s).router = s.router := rfl
@[simp] theorem enterService_tb (c : Nat) (s : State) : (enterService c s).tb = s.tb := rfl
@[simp] theorem enterService_kc (c : Nat) (s : State) : (enterService c s).kc = s.kc := rfl
@[simp] theorem enterService_jw (c : Nat) (s : State) : (enterService c s).jw = s.jw := rfl
@[simp] theorem enterService_mail (c : Nat) (s : State) : (enterService c s).mail = s.mail := rfl
@[simp] theorem enterService_counts (c : Nat) (s : State) : (enterService c s).counts = s.counts := rfl
@[simp] theorem enterService_openCount (c : Nat) (s : State) : (enterService c s).openCount = s.openCount := rfl
@[simp] theorem enterService_pending (c : Nat) (s : State) : (enterService c s).pending = s.pending := rfl
@[simp] theorem enterService_link (c : Nat) (s : State) (i : Nat) : (enterService c s).link i = s.link i := rfl
@[simp] theorem enterService_linkRec (c : Nat) (s : State) (i : Nat) : (enterService c s).linkRec i = s.linkRec i := rfl
@[simp] theorem enterService_linkDef (c : Nat) (s : State) (i : Nat) : (enterService c s).linkDef i = s.linkDef i := rfl
@[simp] theorem enterService_now (c : Nat) (s : State) : (enterService c s).now = s.now := rfl
@[simp] theorem enterService_running (c : Nat) (s : State) : (enterService c s).running = s.running := rfl
@[simp] theorem enterService_camOf (c : Nat) (s : State) (cam : Nat) : camOf (enterService c s) cam = camOf s cam := rfl

@[simp] theorem holdAtHead_part (o : Order) (s : State) : (holdAtHead o s).part = s.part := rfl
@[simp] theorem holdAtHead_mem (o : Order) (s : State) : (holdAtHead o s).mem = s.mem := rfl
@[simp] theorem holdAtHead_lockP (o : Order) (s : State) : (holdAtHead o s).lockP = s.lockP := rfl
@[simp] theorem holdAtHead_lockC (o : Order) (s : State) : (holdAtHead o s).lockC = s.lockC := rfl
@[simp] theorem holdAtHead_adopt (o : Order) (s : State) : (holdAtHead o s).adopt = s.adopt := rfl
@[simp] theorem holdAtHead_ctl (o : Order) (s : State) : (holdAtHead o s).ctl = s.ctl := rfl
@[simp] theorem holdAtHead_eng (o : Order) (s : State) : (holdAtHead o s).eng = s.eng := rfl
@[simp] theorem holdAtHead_sup (o : Order) (s : State) : (holdAtHead o s).sup = s.sup := rfl
@[simp] theorem holdAtHead_ul (o : Order) (s : State) : (holdAtHead o s).ul = s.ul := rfl
@[simp] theorem holdAtHead_tally (o : Order) (s : State) : (holdAtHead o s).tally = s.tally := rfl
@[simp] theorem holdAtHead_router (o : Order) (s : State) : (holdAtHead o s).router = s.router := rfl
@[simp] theorem holdAtHead_tb (o : Order) (s : State) : (holdAtHead o s).tb = s.tb := rfl
@[simp] theorem holdAtHead_kc (o : Order) (s : State) : (holdAtHead o s).kc = s.kc := rfl
@[simp] theorem holdAtHead_jw (o : Order) (s : State) : (holdAtHead o s).jw = s.jw := rfl
@[simp] theorem holdAtHead_mail (o : Order) (s : State) : (holdAtHead o s).mail = s.mail := rfl
@[simp] theorem holdAtHead_counts (o : Order) (s : State) : (holdAtHead o s).counts = s.counts := rfl
@[simp] theorem holdAtHead_openCount (o : Order) (s : State) : (holdAtHead o s).openCount = s.openCount := rfl
@[simp] theorem holdAtHead_pending (o : Order) (s : State) : (holdAtHead o s).pending = s.pending := rfl
@[simp] theorem holdAtHead_link (o : Order) (s : State) (i : Nat) : (holdAtHead o s).link i = s.link i := rfl
@[simp] theorem holdAtHead_linkRec (o : Order) (s : State) (i : Nat) : (holdAtHead o s).linkRec i = s.linkRec i := rfl
@[simp] theorem holdAtHead_linkDef (o : Order) (s : State) (i : Nat) : (holdAtHead o s).linkDef i = s.linkDef i := rfl
@[simp] theorem holdAtHead_now (o : Order) (s : State) : (holdAtHead o s).now = s.now := rfl
@[simp] theorem holdAtHead_running (o : Order) (s : State) : (holdAtHead o s).running = s.running := rfl
@[simp] theorem holdAtHead_camOf (o : Order) (s : State) (cam : Nat) : camOf (holdAtHead o s) cam = camOf s cam := rfl

@[simp] theorem setLinkPending_part (b : Bool) (i : Nat) (s : State) : (setLinkPending b i s).part = s.part := rfl
@[simp] theorem setLinkPending_mem (b : Bool) (i : Nat) (s : State) : (setLinkPending b i s).mem = s.mem := rfl
@[simp] theorem setLinkPending_lockP (b : Bool) (i : Nat) (s : State) : (setLinkPending b i s).lockP = s.lockP := rfl
@[simp] theorem setLinkPending_lockC (b : Bool) (i : Nat) (s : State) : (setLinkPending b i s).lockC = s.lockC := rfl
@[simp] theorem setLinkPending_disp (b : Bool) (i : Nat) (s : State) : (setLinkPending b i s).disp = s.disp := rfl
@[simp] theorem setLinkPending_adopt (b : Bool) (i : Nat) (s : State) : (setLinkPending b i s).adopt = s.adopt := rfl
@[simp] theorem setLinkPending_ctl (b : Bool) (i : Nat) (s : State) : (setLinkPending b i s).ctl = s.ctl := rfl
@[simp] theorem setLinkPending_eng (b : Bool) (i : Nat) (s : State) : (setLinkPending b i s).eng = s.eng := rfl
@[simp] theorem setLinkPending_ul (b : Bool) (i : Nat) (s : State) : (setLinkPending b i s).ul = s.ul := rfl
@[simp] theorem setLinkPending_tally (b : Bool) (i : Nat) (s : State) : (setLinkPending b i s).tally = s.tally := rfl
@[simp] theorem setLinkPending_router (b : Bool) (i : Nat) (s : State) : (setLinkPending b i s).router = s.router := rfl
@[simp] theorem setLinkPending_tb (b : Bool) (i : Nat) (s : State) : (setLinkPending b i s).tb = s.tb := rfl
@[simp] theorem setLinkPending_kc (b : Bool) (i : Nat) (s : State) : (setLinkPending b i s).kc = s.kc := rfl
@[simp] theorem setLinkPending_jw (b : Bool) (i : Nat) (s : State) : (setLinkPending b i s).jw = s.jw := rfl
@[simp] theorem setLinkPending_mail (b : Bool) (i : Nat) (s : State) : (setLinkPending b i s).mail = s.mail := rfl
@[simp] theorem setLinkPending_counts (b : Bool) (i : Nat) (s : State) : (setLinkPending b i s).counts = s.counts := rfl
@[simp] theorem setLinkPending_openCount (b : Bool) (i : Nat) (s : State) : (setLinkPending b i s).openCount = s.openCount := rfl
@[simp] theorem setLinkPending_pending (b : Bool) (i : Nat) (s : State) : (setLinkPending b i s).pending = s.pending := rfl
@[simp] theorem setLinkPending_now (b : Bool) (i : Nat) (s : State) : (setLinkPending b i s).now = s.now := rfl
@[simp] theorem setLinkPending_running (b : Bool) (i : Nat) (s : State) : (setLinkPending b i s).running = s.running := rfl
@[simp] theorem setLinkPending_camOf (b : Bool) (i : Nat) (s : State) (cam : Nat) : camOf (setLinkPending b i s) cam = camOf s cam := rfl

@[simp] theorem setCamPending_part (b : Bool) (c : Nat) (s : State) : (setCamPending b c s).part = s.part := rfl
@[simp] theorem setCamPending_mem (b : Bool) (c : Nat) (s : State) : (setCamPending b c s).mem = s.mem := rfl
@[simp] theorem setCamPending_lockP (b : Bool) (c : Nat) (s : State) : (setCamPending b c s).lockP = s.lockP := rfl
@[simp] theorem setCamPending_lockC (b : Bool) (c : Nat) (s : State) : (setCamPending b c s).lockC = s.lockC := rfl
@[simp] theorem setCamPending_disp (b : Bool) (c : Nat) (s : State) : (setCamPending b c s).disp = s.disp := rfl
@[simp] theorem setCamPending_adopt (b : Bool) (c : Nat) (s : State) : (setCamPending b c s).adopt = s.adopt := rfl
@[simp] theorem setCamPending_ctl (b : Bool) (c : Nat) (s : State) : (setCamPending b c s).ctl = s.ctl := rfl
@[simp] theorem setCamPending_eng (b : Bool) (c : Nat) (s : State) : (setCamPending b c s).eng = s.eng := rfl
@[simp] theorem setCamPending_sup (b : Bool) (c : Nat) (s : State) : (setCamPending b c s).sup = s.sup := rfl
@[simp] theorem setCamPending_ul (b : Bool) (c : Nat) (s : State) : (setCamPending b c s).ul = s.ul := rfl
@[simp] theorem setCamPending_router (b : Bool) (c : Nat) (s : State) : (setCamPending b c s).router = s.router := rfl
@[simp] theorem setCamPending_tb (b : Bool) (c : Nat) (s : State) : (setCamPending b c s).tb = s.tb := rfl
@[simp] theorem setCamPending_kc (b : Bool) (c : Nat) (s : State) : (setCamPending b c s).kc = s.kc := rfl
@[simp] theorem setCamPending_jw (b : Bool) (c : Nat) (s : State) : (setCamPending b c s).jw = s.jw := rfl
@[simp] theorem setCamPending_mail (b : Bool) (c : Nat) (s : State) : (setCamPending b c s).mail = s.mail := rfl
@[simp] theorem setCamPending_counts (b : Bool) (c : Nat) (s : State) : (setCamPending b c s).counts = s.counts := rfl
@[simp] theorem setCamPending_openCount (b : Bool) (c : Nat) (s : State) : (setCamPending b c s).openCount = s.openCount := rfl
@[simp] theorem setCamPending_pending (b : Bool) (c : Nat) (s : State) : (setCamPending b c s).pending = s.pending := rfl
@[simp] theorem setCamPending_link (b : Bool) (c : Nat) (s : State) (i : Nat) : (setCamPending b c s).link i = s.link i := rfl
@[simp] theorem setCamPending_linkRec (b : Bool) (c : Nat) (s : State) (i : Nat) : (setCamPending b c s).linkRec i = s.linkRec i := rfl
@[simp] theorem setCamPending_linkDef (b : Bool) (c : Nat) (s : State) (i : Nat) : (setCamPending b c s).linkDef i = s.linkDef i := rfl
@[simp] theorem setCamPending_now (b : Bool) (c : Nat) (s : State) : (setCamPending b c s).now = s.now := rfl
@[simp] theorem setCamPending_running (b : Bool) (c : Nat) (s : State) : (setCamPending b c s).running = s.running := rfl

@[simp] theorem setDestPending_part (b : Bool) (d : Nat) (s : State) : (setDestPending b d s).part = s.part := rfl
@[simp] theorem setDestPending_mem (b : Bool) (d : Nat) (s : State) : (setDestPending b d s).mem = s.mem := rfl
@[simp] theorem setDestPending_lockP (b : Bool) (d : Nat) (s : State) : (setDestPending b d s).lockP = s.lockP := rfl
@[simp] theorem setDestPending_lockC (b : Bool) (d : Nat) (s : State) : (setDestPending b d s).lockC = s.lockC := rfl
@[simp] theorem setDestPending_disp (b : Bool) (d : Nat) (s : State) : (setDestPending b d s).disp = s.disp := rfl
@[simp] theorem setDestPending_adopt (b : Bool) (d : Nat) (s : State) : (setDestPending b d s).adopt = s.adopt := rfl
@[simp] theorem setDestPending_ctl (b : Bool) (d : Nat) (s : State) : (setDestPending b d s).ctl = s.ctl := rfl
@[simp] theorem setDestPending_eng (b : Bool) (d : Nat) (s : State) : (setDestPending b d s).eng = s.eng := rfl
@[simp] theorem setDestPending_sup (b : Bool) (d : Nat) (s : State) : (setDestPending b d s).sup = s.sup := rfl
@[simp] theorem setDestPending_ul (b : Bool) (d : Nat) (s : State) : (setDestPending b d s).ul = s.ul := rfl
@[simp] theorem setDestPending_tally (b : Bool) (d : Nat) (s : State) : (setDestPending b d s).tally = s.tally := rfl
@[simp] theorem setDestPending_tb (b : Bool) (d : Nat) (s : State) : (setDestPending b d s).tb = s.tb := rfl
@[simp] theorem setDestPending_kc (b : Bool) (d : Nat) (s : State) : (setDestPending b d s).kc = s.kc := rfl
@[simp] theorem setDestPending_jw (b : Bool) (d : Nat) (s : State) : (setDestPending b d s).jw = s.jw := rfl
@[simp] theorem setDestPending_mail (b : Bool) (d : Nat) (s : State) : (setDestPending b d s).mail = s.mail := rfl
@[simp] theorem setDestPending_counts (b : Bool) (d : Nat) (s : State) : (setDestPending b d s).counts = s.counts := rfl
@[simp] theorem setDestPending_openCount (b : Bool) (d : Nat) (s : State) : (setDestPending b d s).openCount = s.openCount := rfl
@[simp] theorem setDestPending_pending (b : Bool) (d : Nat) (s : State) : (setDestPending b d s).pending = s.pending := rfl
@[simp] theorem setDestPending_link (b : Bool) (d : Nat) (s : State) (i : Nat) : (setDestPending b d s).link i = s.link i := rfl
@[simp] theorem setDestPending_linkRec (b : Bool) (d : Nat) (s : State) (i : Nat) : (setDestPending b d s).linkRec i = s.linkRec i := rfl
@[simp] theorem setDestPending_linkDef (b : Bool) (d : Nat) (s : State) (i : Nat) : (setDestPending b d s).linkDef i = s.linkDef i := rfl
@[simp] theorem setDestPending_now (b : Bool) (d : Nat) (s : State) : (setDestPending b d s).now = s.now := rfl
@[simp] theorem setDestPending_running (b : Bool) (d : Nat) (s : State) : (setDestPending b d s).running = s.running := rfl
@[simp] theorem setDestPending_camOf (b : Bool) (d : Nat) (s : State) (cam : Nat) : camOf (setDestPending b d s) cam = camOf s cam := rfl

@[simp] theorem markWalking_part (s : State) : (markWalking s).part = s.part := rfl
@[simp] theorem markWalking_mem (s : State) : (markWalking s).mem = s.mem := rfl
@[simp] theorem markWalking_lockP (s : State) : (markWalking s).lockP = s.lockP := rfl
@[simp] theorem markWalking_lockC (s : State) : (markWalking s).lockC = s.lockC := rfl
@[simp] theorem markWalking_disp (s : State) : (markWalking s).disp = s.disp := rfl
@[simp] theorem markWalking_adopt (s : State) : (markWalking s).adopt = s.adopt := rfl
@[simp] theorem markWalking_ctl (s : State) : (markWalking s).ctl = s.ctl := rfl
@[simp] theorem markWalking_eng (s : State) : (markWalking s).eng = s.eng := rfl
@[simp] theorem markWalking_sup (s : State) : (markWalking s).sup = s.sup := rfl
@[simp] theorem markWalking_ul (s : State) : (markWalking s).ul = s.ul := rfl
@[simp] theorem markWalking_tally (s : State) : (markWalking s).tally = s.tally := rfl
@[simp] theorem markWalking_router (s : State) : (markWalking s).router = s.router := rfl
@[simp] theorem markWalking_tb (s : State) : (markWalking s).tb = s.tb := rfl
@[simp] theorem markWalking_kc (s : State) : (markWalking s).kc = s.kc := rfl
@[simp] theorem markWalking_mail (s : State) : (markWalking s).mail = s.mail := rfl
@[simp] theorem markWalking_counts (s : State) : (markWalking s).counts = s.counts := rfl
@[simp] theorem markWalking_openCount (s : State) : (markWalking s).openCount = s.openCount := rfl
@[simp] theorem markWalking_pending (s : State) : (markWalking s).pending = s.pending := rfl
@[simp] theorem markWalking_link (s : State) (i : Nat) : (markWalking s).link i = s.link i := rfl
@[simp] theorem markWalking_linkRec (s : State) (i : Nat) : (markWalking s).linkRec i = s.linkRec i := rfl
@[simp] theorem markWalking_linkDef (s : State) (i : Nat) : (markWalking s).linkDef i = s.linkDef i := rfl
@[simp] theorem markWalking_now (s : State) : (markWalking s).now = s.now := rfl
@[simp] theorem markWalking_running (s : State) : (markWalking s).running = s.running := rfl
@[simp] theorem markWalking_camOf (s : State) (cam : Nat) : camOf (markWalking s) cam = camOf s cam := rfl

@[simp] theorem appendEntry_part (e : JEntry) (s : State) : (appendEntry e s).part = s.part := rfl
@[simp] theorem appendEntry_mem (e : JEntry) (s : State) : (appendEntry e s).mem = s.mem := rfl
@[simp] theorem appendEntry_lockP (e : JEntry) (s : State) : (appendEntry e s).lockP = s.lockP := rfl
@[simp] theorem appendEntry_lockC (e : JEntry) (s : State) : (appendEntry e s).lockC = s.lockC := rfl
@[simp] theorem appendEntry_disp (e : JEntry) (s : State) : (appendEntry e s).disp = s.disp := rfl
@[simp] theorem appendEntry_adopt (e : JEntry) (s : State) : (appendEntry e s).adopt = s.adopt := rfl
@[simp] theorem appendEntry_ctl (e : JEntry) (s : State) : (appendEntry e s).ctl = s.ctl := rfl
@[simp] theorem appendEntry_eng (e : JEntry) (s : State) : (appendEntry e s).eng = s.eng := rfl
@[simp] theorem appendEntry_sup (e : JEntry) (s : State) : (appendEntry e s).sup = s.sup := rfl
@[simp] theorem appendEntry_ul (e : JEntry) (s : State) : (appendEntry e s).ul = s.ul := rfl
@[simp] theorem appendEntry_tally (e : JEntry) (s : State) : (appendEntry e s).tally = s.tally := rfl
@[simp] theorem appendEntry_router (e : JEntry) (s : State) : (appendEntry e s).router = s.router := rfl
@[simp] theorem appendEntry_tb (e : JEntry) (s : State) : (appendEntry e s).tb = s.tb := rfl
@[simp] theorem appendEntry_kc (e : JEntry) (s : State) : (appendEntry e s).kc = s.kc := rfl
@[simp] theorem appendEntry_mail (e : JEntry) (s : State) : (appendEntry e s).mail = s.mail := rfl
@[simp] theorem appendEntry_counts (e : JEntry) (s : State) : (appendEntry e s).counts = s.counts := rfl
@[simp] theorem appendEntry_openCount (e : JEntry) (s : State) : (appendEntry e s).openCount = s.openCount := rfl
@[simp] theorem appendEntry_pending (e : JEntry) (s : State) : (appendEntry e s).pending = s.pending := rfl
@[simp] theorem appendEntry_link (e : JEntry) (s : State) (i : Nat) : (appendEntry e s).link i = s.link i := rfl
@[simp] theorem appendEntry_linkRec (e : JEntry) (s : State) (i : Nat) : (appendEntry e s).linkRec i = s.linkRec i := rfl
@[simp] theorem appendEntry_linkDef (e : JEntry) (s : State) (i : Nat) : (appendEntry e s).linkDef i = s.linkDef i := rfl
@[simp] theorem appendEntry_now (e : JEntry) (s : State) : (appendEntry e s).now = s.now := rfl
@[simp] theorem appendEntry_running (e : JEntry) (s : State) : (appendEntry e s).running = s.running := rfl
@[simp] theorem appendEntry_camOf (e : JEntry) (s : State) (cam : Nat) : camOf (appendEntry e s) cam = camOf s cam := rfl

@[simp] theorem setMute_part (l : Nat) (m : MuteRec) (s : State) : (setMute l m s).part = s.part := rfl
@[simp] theorem setMute_mem (l : Nat) (m : MuteRec) (s : State) : (setMute l m s).mem = s.mem := rfl
@[simp] theorem setMute_lockP (l : Nat) (m : MuteRec) (s : State) : (setMute l m s).lockP = s.lockP := rfl
@[simp] theorem setMute_lockC (l : Nat) (m : MuteRec) (s : State) : (setMute l m s).lockC = s.lockC := rfl
@[simp] theorem setMute_disp (l : Nat) (m : MuteRec) (s : State) : (setMute l m s).disp = s.disp := rfl
@[simp] theorem setMute_adopt (l : Nat) (m : MuteRec) (s : State) : (setMute l m s).adopt = s.adopt := rfl
@[simp] theorem setMute_ctl (l : Nat) (m : MuteRec) (s : State) : (setMute l m s).ctl = s.ctl := rfl
@[simp] theorem setMute_eng (l : Nat) (m : MuteRec) (s : State) : (setMute l m s).eng = s.eng := rfl
@[simp] theorem setMute_sup (l : Nat) (m : MuteRec) (s : State) : (setMute l m s).sup = s.sup := rfl
@[simp] theorem setMute_ul (l : Nat) (m : MuteRec) (s : State) : (setMute l m s).ul = s.ul := rfl
@[simp] theorem setMute_tally (l : Nat) (m : MuteRec) (s : State) : (setMute l m s).tally = s.tally := rfl
@[simp] theorem setMute_router (l : Nat) (m : MuteRec) (s : State) : (setMute l m s).router = s.router := rfl
@[simp] theorem setMute_tb (l : Nat) (m : MuteRec) (s : State) : (setMute l m s).tb = s.tb := rfl
@[simp] theorem setMute_jw (l : Nat) (m : MuteRec) (s : State) : (setMute l m s).jw = s.jw := rfl
@[simp] theorem setMute_mail (l : Nat) (m : MuteRec) (s : State) : (setMute l m s).mail = s.mail := rfl
@[simp] theorem setMute_counts (l : Nat) (m : MuteRec) (s : State) : (setMute l m s).counts = s.counts := rfl
@[simp] theorem setMute_openCount (l : Nat) (m : MuteRec) (s : State) : (setMute l m s).openCount = s.openCount := rfl
@[simp] theorem setMute_pending (l : Nat) (m : MuteRec) (s : State) : (setMute l m s).pending = s.pending := rfl
@[simp] theorem setMute_link (l : Nat) (m : MuteRec) (s : State) (i : Nat) : (setMute l m s).link i = s.link i := rfl
@[simp] theorem setMute_linkRec (l : Nat) (m : MuteRec) (s : State) (i : Nat) : (setMute l m s).linkRec i = s.linkRec i := rfl
@[simp] theorem setMute_linkDef (l : Nat) (m : MuteRec) (s : State) (i : Nat) : (setMute l m s).linkDef i = s.linkDef i := rfl
@[simp] theorem setMute_now (l : Nat) (m : MuteRec) (s : State) : (setMute l m s).now = s.now := rfl
@[simp] theorem setMute_running (l : Nat) (m : MuteRec) (s : State) : (setMute l m s).running = s.running := rfl
@[simp] theorem setMute_camOf (l : Nat) (m : MuteRec) (s : State) (cam : Nat) : camOf (setMute l m s) cam = camOf s cam := rfl

@[simp] theorem setSlot_part (k : Nat) (e : Option CarrierEntry) (s : State) : (setSlot k e s).part = s.part := rfl
@[simp] theorem setSlot_mem (k : Nat) (e : Option CarrierEntry) (s : State) : (setSlot k e s).mem = s.mem := rfl
@[simp] theorem setSlot_lockP (k : Nat) (e : Option CarrierEntry) (s : State) : (setSlot k e s).lockP = s.lockP := rfl
@[simp] theorem setSlot_lockC (k : Nat) (e : Option CarrierEntry) (s : State) : (setSlot k e s).lockC = s.lockC := rfl
@[simp] theorem setSlot_disp (k : Nat) (e : Option CarrierEntry) (s : State) : (setSlot k e s).disp = s.disp := rfl
@[simp] theorem setSlot_adopt (k : Nat) (e : Option CarrierEntry) (s : State) : (setSlot k e s).adopt = s.adopt := rfl
@[simp] theorem setSlot_eng (k : Nat) (e : Option CarrierEntry) (s : State) : (setSlot k e s).eng = s.eng := rfl
@[simp] theorem setSlot_sup (k : Nat) (e : Option CarrierEntry) (s : State) : (setSlot k e s).sup = s.sup := rfl
@[simp] theorem setSlot_ul (k : Nat) (e : Option CarrierEntry) (s : State) : (setSlot k e s).ul = s.ul := rfl
@[simp] theorem setSlot_tally (k : Nat) (e : Option CarrierEntry) (s : State) : (setSlot k e s).tally = s.tally := rfl
@[simp] theorem setSlot_router (k : Nat) (e : Option CarrierEntry) (s : State) : (setSlot k e s).router = s.router := rfl
@[simp] theorem setSlot_tb (k : Nat) (e : Option CarrierEntry) (s : State) : (setSlot k e s).tb = s.tb := rfl
@[simp] theorem setSlot_kc (k : Nat) (e : Option CarrierEntry) (s : State) : (setSlot k e s).kc = s.kc := rfl
@[simp] theorem setSlot_jw (k : Nat) (e : Option CarrierEntry) (s : State) : (setSlot k e s).jw = s.jw := rfl
@[simp] theorem setSlot_counts (k : Nat) (e : Option CarrierEntry) (s : State) : (setSlot k e s).counts = s.counts := rfl
@[simp] theorem setSlot_openCount (k : Nat) (e : Option CarrierEntry) (s : State) : (setSlot k e s).openCount = s.openCount := rfl
@[simp] theorem setSlot_pending (k : Nat) (e : Option CarrierEntry) (s : State) : (setSlot k e s).pending = s.pending := rfl
@[simp] theorem setSlot_link (k : Nat) (e : Option CarrierEntry) (s : State) (i : Nat) : (setSlot k e s).link i = s.link i := rfl
@[simp] theorem setSlot_linkRec (k : Nat) (e : Option CarrierEntry) (s : State) (i : Nat) : (setSlot k e s).linkRec i = s.linkRec i := rfl
@[simp] theorem setSlot_linkDef (k : Nat) (e : Option CarrierEntry) (s : State) (i : Nat) : (setSlot k e s).linkDef i = s.linkDef i := rfl
@[simp] theorem setSlot_now (k : Nat) (e : Option CarrierEntry) (s : State) : (setSlot k e s).now = s.now := rfl
@[simp] theorem setSlot_running (k : Nat) (e : Option CarrierEntry) (s : State) : (setSlot k e s).running = s.running := rfl
@[simp] theorem setSlot_camOf (k : Nat) (e : Option CarrierEntry) (s : State) (cam : Nat) : camOf (setSlot k e s) cam = camOf s cam := rfl

@[simp] theorem setReserve_part (l : List ReserveEntry) (c : Nat) (ch : ReserveChange) (o : Nat) (s : State) : (setReserve l c ch o s).part = s.part := rfl
@[simp] theorem setReserve_mem (l : List ReserveEntry) (c : Nat) (ch : ReserveChange) (o : Nat) (s : State) : (setReserve l c ch o s).mem = s.mem := rfl
@[simp] theorem setReserve_lockP (l : List ReserveEntry) (c : Nat) (ch : ReserveChange) (o : Nat) (s : State) : (setReserve l c ch o s).lockP = s.lockP := rfl
@[simp] theorem setReserve_lockC (l : List ReserveEntry) (c : Nat) (ch : ReserveChange) (o : Nat) (s : State) : (setReserve l c ch o s).lockC = s.lockC := rfl
@[simp] theorem setReserve_disp (l : List ReserveEntry) (c : Nat) (ch : ReserveChange) (o : Nat) (s : State) : (setReserve l c ch o s).disp = s.disp := rfl
@[simp] theorem setReserve_adopt (l : List ReserveEntry) (c : Nat) (ch : ReserveChange) (o : Nat) (s : State) : (setReserve l c ch o s).adopt = s.adopt := rfl
@[simp] theorem setReserve_eng (l : List ReserveEntry) (c : Nat) (ch : ReserveChange) (o : Nat) (s : State) : (setReserve l c ch o s).eng = s.eng := rfl
@[simp] theorem setReserve_sup (l : List ReserveEntry) (c : Nat) (ch : ReserveChange) (o : Nat) (s : State) : (setReserve l c ch o s).sup = s.sup := rfl
@[simp] theorem setReserve_ul (l : List ReserveEntry) (c : Nat) (ch : ReserveChange) (o : Nat) (s : State) : (setReserve l c ch o s).ul = s.ul := rfl
@[simp] theorem setReserve_tally (l : List ReserveEntry) (c : Nat) (ch : ReserveChange) (o : Nat) (s : State) : (setReserve l c ch o s).tally = s.tally := rfl
@[simp] theorem setReserve_router (l : List ReserveEntry) (c : Nat) (ch : ReserveChange) (o : Nat) (s : State) : (setReserve l c ch o s).router = s.router := rfl
@[simp] theorem setReserve_tb (l : List ReserveEntry) (c : Nat) (ch : ReserveChange) (o : Nat) (s : State) : (setReserve l c ch o s).tb = s.tb := rfl
@[simp] theorem setReserve_kc (l : List ReserveEntry) (c : Nat) (ch : ReserveChange) (o : Nat) (s : State) : (setReserve l c ch o s).kc = s.kc := rfl
@[simp] theorem setReserve_jw (l : List ReserveEntry) (c : Nat) (ch : ReserveChange) (o : Nat) (s : State) : (setReserve l c ch o s).jw = s.jw := rfl
@[simp] theorem setReserve_counts (l : List ReserveEntry) (c : Nat) (ch : ReserveChange) (o : Nat) (s : State) : (setReserve l c ch o s).counts = s.counts := rfl
@[simp] theorem setReserve_openCount (l : List ReserveEntry) (c : Nat) (ch : ReserveChange) (o : Nat) (s : State) : (setReserve l c ch o s).openCount = s.openCount := rfl
@[simp] theorem setReserve_pending (l : List ReserveEntry) (c : Nat) (ch : ReserveChange) (o : Nat) (s : State) : (setReserve l c ch o s).pending = s.pending := rfl
@[simp] theorem setReserve_link (l : List ReserveEntry) (c : Nat) (ch : ReserveChange) (o : Nat) (s : State) (i : Nat) : (setReserve l c ch o s).link i = s.link i := rfl
@[simp] theorem setReserve_linkRec (l : List ReserveEntry) (c : Nat) (ch : ReserveChange) (o : Nat) (s : State) (i : Nat) : (setReserve l c ch o s).linkRec i = s.linkRec i := rfl
@[simp] theorem setReserve_linkDef (l : List ReserveEntry) (c : Nat) (ch : ReserveChange) (o : Nat) (s : State) (i : Nat) : (setReserve l c ch o s).linkDef i = s.linkDef i := rfl
@[simp] theorem setReserve_now (l : List ReserveEntry) (c : Nat) (ch : ReserveChange) (o : Nat) (s : State) : (setReserve l c ch o s).now = s.now := rfl
@[simp] theorem setReserve_running (l : List ReserveEntry) (c : Nat) (ch : ReserveChange) (o : Nat) (s : State) : (setReserve l c ch o s).running = s.running := rfl
@[simp] theorem setReserve_camOf (l : List ReserveEntry) (c : Nat) (ch : ReserveChange) (o : Nat) (s : State) (cam : Nat) : camOf (setReserve l c ch o s) cam = camOf s cam := rfl

@[simp] theorem handKill_part (b : Bool) (s : State) : (handKill b s).part = s.part := rfl
@[simp] theorem handKill_mem (b : Bool) (s : State) : (handKill b s).mem = s.mem := rfl
@[simp] theorem handKill_lockP (b : Bool) (s : State) : (handKill b s).lockP = s.lockP := rfl
@[simp] theorem handKill_lockC (b : Bool) (s : State) : (handKill b s).lockC = s.lockC := rfl
@[simp] theorem handKill_disp (b : Bool) (s : State) : (handKill b s).disp = s.disp := rfl
@[simp] theorem handKill_adopt (b : Bool) (s : State) : (handKill b s).adopt = s.adopt := rfl
@[simp] theorem handKill_ctl (b : Bool) (s : State) : (handKill b s).ctl = s.ctl := rfl
@[simp] theorem handKill_eng (b : Bool) (s : State) : (handKill b s).eng = s.eng := rfl
@[simp] theorem handKill_sup (b : Bool) (s : State) : (handKill b s).sup = s.sup := rfl
@[simp] theorem handKill_ul (b : Bool) (s : State) : (handKill b s).ul = s.ul := rfl
@[simp] theorem handKill_tally (b : Bool) (s : State) : (handKill b s).tally = s.tally := rfl
@[simp] theorem handKill_router (b : Bool) (s : State) : (handKill b s).router = s.router := rfl
@[simp] theorem handKill_tb (b : Bool) (s : State) : (handKill b s).tb = s.tb := rfl
@[simp] theorem handKill_kc (b : Bool) (s : State) : (handKill b s).kc = s.kc := rfl
@[simp] theorem handKill_jw (b : Bool) (s : State) : (handKill b s).jw = s.jw := rfl
@[simp] theorem handKill_counts (b : Bool) (s : State) : (handKill b s).counts = s.counts := rfl
@[simp] theorem handKill_openCount (b : Bool) (s : State) : (handKill b s).openCount = s.openCount := rfl
@[simp] theorem handKill_pending (b : Bool) (s : State) : (handKill b s).pending = s.pending := rfl
@[simp] theorem handKill_link (b : Bool) (s : State) (i : Nat) : (handKill b s).link i = s.link i := rfl
@[simp] theorem handKill_linkRec (b : Bool) (s : State) (i : Nat) : (handKill b s).linkRec i = s.linkRec i := rfl
@[simp] theorem handKill_linkDef (b : Bool) (s : State) (i : Nat) : (handKill b s).linkDef i = s.linkDef i := rfl
@[simp] theorem handKill_now (b : Bool) (s : State) : (handKill b s).now = s.now := rfl
@[simp] theorem handKill_running (b : Bool) (s : State) : (handKill b s).running = s.running := rfl
@[simp] theorem handKill_camOf (b : Bool) (s : State) (cam : Nat) : camOf (handKill b s) cam = camOf s cam := rfl

@[simp] theorem missUnit_part (u : Nat) (s : State) : (missUnit u s).part = s.part := rfl
@[simp] theorem missUnit_mem (u : Nat) (s : State) : (missUnit u s).mem = s.mem := rfl
@[simp] theorem missUnit_lockP (u : Nat) (s : State) : (missUnit u s).lockP = s.lockP := rfl
@[simp] theorem missUnit_lockC (u : Nat) (s : State) : (missUnit u s).lockC = s.lockC := rfl
@[simp] theorem missUnit_disp (u : Nat) (s : State) : (missUnit u s).disp = s.disp := rfl
@[simp] theorem missUnit_adopt (u : Nat) (s : State) : (missUnit u s).adopt = s.adopt := rfl
@[simp] theorem missUnit_ctl (u : Nat) (s : State) : (missUnit u s).ctl = s.ctl := rfl
@[simp] theorem missUnit_eng (u : Nat) (s : State) : (missUnit u s).eng = s.eng := rfl
@[simp] theorem missUnit_sup (u : Nat) (s : State) : (missUnit u s).sup = s.sup := rfl
@[simp] theorem missUnit_ul (u : Nat) (s : State) : (missUnit u s).ul = s.ul := rfl
@[simp] theorem missUnit_tally (u : Nat) (s : State) : (missUnit u s).tally = s.tally := rfl
@[simp] theorem missUnit_router (u : Nat) (s : State) : (missUnit u s).router = s.router := rfl
@[simp] theorem missUnit_tb (u : Nat) (s : State) : (missUnit u s).tb = s.tb := rfl
@[simp] theorem missUnit_kc (u : Nat) (s : State) : (missUnit u s).kc = s.kc := rfl
@[simp] theorem missUnit_jw (u : Nat) (s : State) : (missUnit u s).jw = s.jw := rfl
@[simp] theorem missUnit_counts (u : Nat) (s : State) : (missUnit u s).counts = s.counts := rfl
@[simp] theorem missUnit_openCount (u : Nat) (s : State) : (missUnit u s).openCount = s.openCount := rfl
@[simp] theorem missUnit_pending (u : Nat) (s : State) : (missUnit u s).pending = s.pending := rfl
@[simp] theorem missUnit_link (u : Nat) (s : State) (i : Nat) : (missUnit u s).link i = s.link i := rfl
@[simp] theorem missUnit_linkRec (u : Nat) (s : State) (i : Nat) : (missUnit u s).linkRec i = s.linkRec i := rfl
@[simp] theorem missUnit_linkDef (u : Nat) (s : State) (i : Nat) : (missUnit u s).linkDef i = s.linkDef i := rfl
@[simp] theorem missUnit_now (u : Nat) (s : State) : (missUnit u s).now = s.now := rfl
@[simp] theorem missUnit_running (u : Nat) (s : State) : (missUnit u s).running = s.running := rfl
@[simp] theorem missUnit_camOf (u : Nat) (s : State) (cam : Nat) : camOf (missUnit u s) cam = camOf s cam := rfl

@[simp] theorem distribute_part (r : Report) (s : State) : (distribute r s).part = s.part := rfl
@[simp] theorem distribute_mem (r : Report) (s : State) : (distribute r s).mem = s.mem := rfl
@[simp] theorem distribute_lockP (r : Report) (s : State) : (distribute r s).lockP = s.lockP := rfl
@[simp] theorem distribute_lockC (r : Report) (s : State) : (distribute r s).lockC = s.lockC := rfl
@[simp] theorem distribute_disp (r : Report) (s : State) : (distribute r s).disp = s.disp := rfl
@[simp] theorem distribute_adopt (r : Report) (s : State) : (distribute r s).adopt = s.adopt := rfl
@[simp] theorem distribute_ctl (r : Report) (s : State) : (distribute r s).ctl = s.ctl := rfl
@[simp] theorem distribute_eng (r : Report) (s : State) : (distribute r s).eng = s.eng := rfl
@[simp] theorem distribute_sup (r : Report) (s : State) : (distribute r s).sup = s.sup := rfl
@[simp] theorem distribute_ul (r : Report) (s : State) : (distribute r s).ul = s.ul := rfl
@[simp] theorem distribute_tally (r : Report) (s : State) : (distribute r s).tally = s.tally := rfl
@[simp] theorem distribute_router (r : Report) (s : State) : (distribute r s).router = s.router := rfl
@[simp] theorem distribute_tb (r : Report) (s : State) : (distribute r s).tb = s.tb := rfl
@[simp] theorem distribute_kc (r : Report) (s : State) : (distribute r s).kc = s.kc := rfl
@[simp] theorem distribute_jw (r : Report) (s : State) : (distribute r s).jw = s.jw := rfl
@[simp] theorem distribute_counts (r : Report) (s : State) : (distribute r s).counts = s.counts := rfl
@[simp] theorem distribute_openCount (r : Report) (s : State) : (distribute r s).openCount = s.openCount := rfl
@[simp] theorem distribute_pending (r : Report) (s : State) : (distribute r s).pending = s.pending := rfl
@[simp] theorem distribute_link (r : Report) (s : State) (i : Nat) : (distribute r s).link i = s.link i := rfl
@[simp] theorem distribute_linkRec (r : Report) (s : State) (i : Nat) : (distribute r s).linkRec i = s.linkRec i := rfl
@[simp] theorem distribute_linkDef (r : Report) (s : State) (i : Nat) : (distribute r s).linkDef i = s.linkDef i := rfl
@[simp] theorem distribute_now (r : Report) (s : State) : (distribute r s).now = s.now := rfl
@[simp] theorem distribute_running (r : Report) (s : State) : (distribute r s).running = s.running := rfl
@[simp] theorem distribute_camOf (r : Report) (s : State) (cam : Nat) : camOf (distribute r s) cam = camOf s cam := rfl

@[simp] theorem tellSupervisor_part (r : ControlReq) (x : ControlResult) (s : State) : (tellSupervisor r x s).part = s.part := rfl
@[simp] theorem tellSupervisor_mem (r : ControlReq) (x : ControlResult) (s : State) : (tellSupervisor r x s).mem = s.mem := rfl
@[simp] theorem tellSupervisor_lockP (r : ControlReq) (x : ControlResult) (s : State) : (tellSupervisor r x s).lockP = s.lockP := rfl
@[simp] theorem tellSupervisor_lockC (r : ControlReq) (x : ControlResult) (s : State) : (tellSupervisor r x s).lockC = s.lockC := rfl
@[simp] theorem tellSupervisor_disp (r : ControlReq) (x : ControlResult) (s : State) : (tellSupervisor r x s).disp = s.disp := rfl
@[simp] theorem tellSupervisor_adopt (r : ControlReq) (x : ControlResult) (s : State) : (tellSupervisor r x s).adopt = s.adopt := rfl
@[simp] theorem tellSupervisor_ctl (r : ControlReq) (x : ControlResult) (s : State) : (tellSupervisor r x s).ctl = s.ctl := rfl
@[simp] theorem tellSupervisor_eng (r : ControlReq) (x : ControlResult) (s : State) : (tellSupervisor r x s).eng = s.eng := rfl
@[simp] theorem tellSupervisor_sup (r : ControlReq) (x : ControlResult) (s : State) : (tellSupervisor r x s).sup = s.sup := rfl
@[simp] theorem tellSupervisor_ul (r : ControlReq) (x : ControlResult) (s : State) : (tellSupervisor r x s).ul = s.ul := rfl
@[simp] theorem tellSupervisor_tally (r : ControlReq) (x : ControlResult) (s : State) : (tellSupervisor r x s).tally = s.tally := rfl
@[simp] theorem tellSupervisor_router (r : ControlReq) (x : ControlResult) (s : State) : (tellSupervisor r x s).router = s.router := rfl
@[simp] theorem tellSupervisor_tb (r : ControlReq) (x : ControlResult) (s : State) : (tellSupervisor r x s).tb = s.tb := rfl
@[simp] theorem tellSupervisor_kc (r : ControlReq) (x : ControlResult) (s : State) : (tellSupervisor r x s).kc = s.kc := rfl
@[simp] theorem tellSupervisor_jw (r : ControlReq) (x : ControlResult) (s : State) : (tellSupervisor r x s).jw = s.jw := rfl
@[simp] theorem tellSupervisor_counts (r : ControlReq) (x : ControlResult) (s : State) : (tellSupervisor r x s).counts = s.counts := rfl
@[simp] theorem tellSupervisor_openCount (r : ControlReq) (x : ControlResult) (s : State) : (tellSupervisor r x s).openCount = s.openCount := rfl
@[simp] theorem tellSupervisor_pending (r : ControlReq) (x : ControlResult) (s : State) : (tellSupervisor r x s).pending = s.pending := rfl
@[simp] theorem tellSupervisor_link (r : ControlReq) (x : ControlResult) (s : State) (i : Nat) : (tellSupervisor r x s).link i = s.link i := rfl
@[simp] theorem tellSupervisor_linkRec (r : ControlReq) (x : ControlResult) (s : State) (i : Nat) : (tellSupervisor r x s).linkRec i = s.linkRec i := rfl
@[simp] theorem tellSupervisor_linkDef (r : ControlReq) (x : ControlResult) (s : State) (i : Nat) : (tellSupervisor r x s).linkDef i = s.linkDef i := rfl
@[simp] theorem tellSupervisor_now (r : ControlReq) (x : ControlResult) (s : State) : (tellSupervisor r x s).now = s.now := rfl
@[simp] theorem tellSupervisor_running (r : ControlReq) (x : ControlResult) (s : State) : (tellSupervisor r x s).running = s.running := rfl
@[simp] theorem tellSupervisor_camOf (r : ControlReq) (x : ControlResult) (s : State) (cam : Nat) : camOf (tellSupervisor r x s) cam = camOf s cam := rfl

@[simp] theorem finish_counts (a s : State) : (finish a s).counts = countChanges a s := rfl
@[simp] theorem finishPath_counts (path : List State) (a s : State) :
    (finishPath path a s).counts = bumpCounts (changesOnPath path a s) a.counts := rfl
@[simp] theorem finishPath_nil (a s : State) : finishPath [] a s = finish a s := rfl
@[simp] theorem finishLinkPath_nil (a s : State) : finishLinkPath [] a s = finishLink a s := rfl
@[simp] theorem report_mail (o : Owner) (r : JReport) (s : State) :
    (report o r s).mail = { s.mail with reports := s.mail.reports ++ [(o, r)] } := rfl
@[simp] theorem raise_jw (b : BitVec 5) (s : State) : (raise b s).jw = s.jw.raise b := rfl
@[simp] theorem alarm_jw (s : State) : (alarm s).jw = s.jw.raise nAlarm := rfl
@[simp] theorem pushRequest_ctl (r : CtlReq) (s : State) :
    (pushRequest r s).ctl = { s.ctl with queue := s.ctl.queue ++ [r] } := rfl
@[simp] theorem placeControl_ul (r : ControlReq) (s : State) :
    (placeControl r s).ul = { s.ul with controlQ := placeBy (fun x => x.link = r.link) r s.ul.controlQ } := rfl
@[simp] theorem placeKill_ul (r : KillReq) (s : State) :
    (placeKill r s).ul = { s.ul with killQ := s.ul.killQ ++ [r] } := rfl
@[simp] theorem placeSweep_ul (r : SweepReq) (s : State) :
    (placeSweep r s).ul = { s.ul with sweepQ := s.ul.sweepQ ++ [r] } := rfl
@[simp] theorem setSlot_table (k : Nat) (e : Option CarrierEntry) (s : State) :
    (setSlot k e s).ctl.table = s.ctl.table.set k e := rfl
@[simp] theorem setSlot_rules (k : Nat) (e : Option CarrierEntry) (s : State) : (setSlot k e s).ctl.rules = s.ctl.rules := rfl
@[simp] theorem setSlot_reserve (k : Nat) (e : Option CarrierEntry) (s : State) :
    (setSlot k e s).ctl.reserve = s.ctl.reserve := rfl
@[simp] theorem setSlot_queue (k : Nat) (e : Option CarrierEntry) (s : State) : (setSlot k e s).ctl.queue = s.ctl.queue := rfl
@[simp] theorem setReserve_reserve (l : List ReserveEntry) (c : Nat) (ch : ReserveChange) (o : Nat) (s : State) :
    (setReserve l c ch o s).ctl.reserve = l := rfl
@[simp] theorem setService_eng (v : Option Service) (s : State) :
    (setService v s).eng = { s.eng with service := v } := rfl
@[simp] theorem leaveIntake_disp (s : State) :
    (leaveIntake s).disp = { s.disp with intake := s.disp.intake.tail } := rfl
@[simp] theorem enterService_disp (c : Nat) (s : State) :
    (enterService c s).disp = { s.disp with intake := s.disp.intake.tail, service := s.disp.service ++ [c] } := rfl
@[simp] theorem holdAtHead_disp (o : Order) (s : State) :
    (holdAtHead o s).disp = { s.disp with waiting := some o } := rfl
@[simp] theorem appendEntry_jw (e : JEntry) (s : State) : (appendEntry e s).jw = s.jw.append e := rfl
@[simp] theorem raise_notice (b : BitVec 5) (j : Journal) : (j.raise b).notice = j.notice ||| b := rfl
@[simp] theorem raise_enable (b : BitVec 5) (j : Journal) : (j.raise b).enable = j.enable := rfl
@[simp] theorem raise_head (b : BitVec 5) (j : Journal) : (j.raise b).head = j.head := rfl
@[simp] theorem raise_taken (b : BitVec 5) (j : Journal) : (j.raise b).taken = j.taken := rfl
@[simp] theorem raise_entries (b : BitVec 5) (j : Journal) : (j.raise b).entries = j.entries := rfl

end Sys2Proof.Machine
end

