-- ==== Sys2Proof/Laws/Frames.lean ====
section
/-! SUPPORT. For each shared operation, once, what it can change: an equation that rebuilds its result from the components it
writes, so that every other component reads as before. -/

namespace Sys2Proof.Machine

/-! ### Order cells -/

theorem writeResults_frame (c : Nat) (res : Results) (s : State) :
    writeResults c res s = { s with mem := (writeResults c res s).mem } := by
  induction res generalizing s with
  | nil => rfl
  | cons x xs ih => obtain ⟨off, bs⟩ := x; simp only [writeResults]; rw [ih]

/-- A completion writes the cell, takes it out of service and reports its ORDER entry. -/
theorem completeOrder_frame (o : Owner) (g : OrderTag) (res : Results) (k : ResultCode) (x : Option Nat) (st : Nat)
    (s : State) :
    completeOrder o g res k x st s =
      { s with
        mem := (completeOrder o g res k x st s).mem
        disp := { s.disp with service := s.disp.service.filter (· ≠ g.cell) }
        mail := { s.mail with reports := s.mail.reports ++ [(o, orderReport g k st s)] } } := by
  unfold completeOrder
  simp only
  rw [writeResults_frame]
  rfl

theorem doneOrder_frame (o : Owner) (g : OrderTag) (res : Results) (k : ResultCode) (x : Option Nat) (s : State) :
    doneOrder o g res k x s =
      { s with
        mem := (doneOrder o g res k x s).mem
        disp := { s.disp with service := s.disp.service.filter (· ≠ g.cell) }
        mail := { s.mail with reports := s.mail.reports ++ [(o, orderReport g k stDone s)] } } :=
  completeOrder_frame o g res k x stDone s

theorem refuseOrder_frame (o : Owner) (g : OrderTag) (res : Results) (k : ResultCode) (x : Option Nat) (s : State) :
    refuseOrder o g res k x s =
      { s with
        mem := (refuseOrder o g res k x s).mem
        disp := { s.disp with service := s.disp.service.filter (· ≠ g.cell) }
        mail := { s.mail with reports := s.mail.reports ++ [(o, orderReport g k stRefused s)] } } :=
  completeOrder_frame o g res k x stRefused s

/-! ### Links -/

theorem put_getD {α : Type} (l : List α) (i j : Nat) (v d : α) :
    (put l i v).getD j d = if j = i ∧ i < l.length then v else l.getD j d := by
  unfold put
  simp only [List.getD_eq_getElem?_getD, List.getElem?_set]
  by_cases h : i = j
  · subst h
    by_cases h2 : i < l.length
    · simp [h2]
    · simp [h2]
  · simp [h, Ne.symm h]

theorem link_modAux (i j : Nat) (f : LinkAux → LinkAux) (s : State) :
    (modAux i f s).link j =
      if j = i ∧ i < s.sup.links.length then { s.link i with aux := f (s.link i).aux } else s.link j := by
  unfold modAux State.link
  simp only
  rw [put_getD]

/-- What the supervisor holds beside a record is no part of the record. -/
@[simp] theorem linkRec_modAux (i j : Nat) (f : LinkAux → LinkAux) (s : State) :
    (modAux i f s).linkRec j = s.linkRec j := by
  unfold State.linkRec
  rw [link_modAux]
  split
  · rename_i h; rw [h.1]
  · rfl

@[simp] theorem linkDef_modAux (i j : Nat) (f : LinkAux → LinkAux) (s : State) : (modAux i f s).linkDef j = s.linkDef j := rfl

theorem tellJournal_frame (i : Nat) (a b : LinkRec) (s : State) :
    tellJournal i a b s = { s with mail := { s.mail with reports := (tellJournal i a b s).mail.reports } } := by
  simp only [tellJournal, linkMoves, List.foldl]
  split <;> split <;> split <;> rfl

theorem alarmOn_frame (a b : LinkRec) (s : State) : alarmOn a b s = { s with jw := (alarmOn a b s).jw } := by
  unfold alarmOn
  simp only
  split <;> split <;> rfl

/-- ALARM is raised, or the journal writer and the notices stay. -/
theorem alarmOn_jw (a b : LinkRec) (s : State) :
    (alarmOn a b s).jw = s.jw ∨ (alarmOn a b s).jw = s.jw.raise nAlarm ∨
      (alarmOn a b s).jw = (s.jw.raise nAlarm).raise nAlarm := by
  unfold alarmOn
  simp only
  split <;> split <;> simp

theorem tellViews_frame (i : Nat) (a b : LinkRec) (s : State) :
    tellViews i a b s =
      { s with mail := { s.mail with
        linkToTally := (tellViews i a b s).mail.linkToTally, linkToRouter := (tellViews i a b s).mail.linkToRouter } } := by
  unfold tellViews
  simp only
  split <;> split <;> rfl

theorem setLink_parts (i : Nat) (l : Link) (s : State) :
    setLink i l s =
      tellViews i (s.linkRec i) l.vis
        (alarmOn (s.linkRec i) l.vis
          (tellJournal i (s.linkRec i) l.vis { s with sup.links := put s.sup.links i l })) := rfl

theorem link_change_parts (s a b c : State) (ls : List Link) (j : Journal) (rs : List (Owner × JReport))
    (vt : List (Nat × LinkState)) (vr : List (Nat × LinkState × Option Health))
    (h1 : a = { ({ s with sup.links := ls } : State) with
      mail := { ({ s with sup.links := ls } : State).mail with reports := rs } })
    (h2 : b = { a with jw := j })
    (h3 : c = { b with mail := { b.mail with linkToTally := vt, linkToRouter := vr } }) :
    c = { s with
      sup := { s.sup with links := ls }
      jw := j
      mail := { s.mail with reports := rs, linkToTally := vt, linkToRouter := vr } } := by
  subst h1 h2 h3
  rfl

/-- A change of a link: the record, its reports and hand-overs, and the ALARM notice. -/
theorem setLink_change (i : Nat) (l : Link) (s : State) :
    ∃ j rs vt vr, setLink i l s =
      { s with
        sup := { s.sup with links := put s.sup.links i l }
        jw := j
        mail := { s.mail with reports := rs, linkToTally := vt, linkToRouter := vr } } ∧
      (j = s.jw ∨ j = s.jw.raise nAlarm ∨ j = (s.jw.raise nAlarm).raise nAlarm) := by
  rw [setLink_parts]
  refine ⟨_, _, _, _, link_change_parts s _ _ _ _ _ _ _ _ (tellJournal_frame _ _ _ _) (alarmOn_frame _ _ _)
    (tellViews_frame _ _ _ _), ?_⟩
  have h := congrArg State.jw (tellJournal_frame i (s.linkRec i) l.vis { s with sup.links := put s.sup.links i l })
  have h2 := alarmOn_jw (s.linkRec i) l.vis (tellJournal i (s.linkRec i) l.vis { s with sup.links := put s.sup.links i l })
  rw [h] at h2
  exact h2

theorem setLink_sup (i : Nat) (l : Link) (s : State) :
    (setLink i l s).sup = { s.sup with links := put s.sup.links i l } := by
  obtain ⟨j, rs, vt, vr, h, _⟩ := setLink_change i l s
  rw [h]

theorem link_setLink (i j : Nat) (l : Link) (s : State) :
    (setLink i l s).link j = if j = i ∧ i < s.sup.links.length then l else s.link j := by
  unfold State.link
  rw [setLink_sup, put_getD]

theorem linkRec_setLink (i j : Nat) (l : Link) (s : State) :
    (setLink i l s).linkRec j = if j = i ∧ i < s.sup.links.length then l.vis else s.linkRec j := by
  unfold State.linkRec
  rw [link_setLink]
  split <;> rfl

theorem modLink_change (i : Nat) (f : Link → Link) (s : State) :
    ∃ j rs vt vr, modLink i f s =
      { s with
        sup := { s.sup with links := put s.sup.links i (f (s.link i)) }
        jw := j
        mail := { s.mail with reports := rs, linkToTally := vt, linkToRouter := vr } } ∧
      (j = s.jw ∨ j = s.jw.raise nAlarm ∨ j = (s.jw.raise nAlarm).raise nAlarm) := setLink_change i (f (s.link i)) s

theorem link_modLink (i j : Nat) (f : Link → Link) (s : State) :
    (modLink i f s).link j = if j = i ∧ i < s.sup.links.length then f (s.link i) else s.link j :=
  link_setLink i j (f (s.link i)) s

theorem linkRec_modLink (i j : Nat) (f : Link → Link) (s : State) :
    (modLink i f s).linkRec j = if j = i ∧ i < s.sup.links.length then (f (s.link i)).vis else s.linkRec j :=
  linkRec_setLink i j (f (s.link i)) s

/-! ### The gate -/

/-- A request of a link goes into the controller's queue, or is held (behind the UPDATE of a kill, when one waits). -/
theorem sendLink_frame (i : Nat) (r : CtlReq) (s : State) :
    sendLink i r s =
      { s with
        sup := { s.sup with links := (sendLink i r s).sup.links }
        ctl := { s.ctl with queue := (sendLink i r s).ctl.queue } } := by
  unfold sendLink
  split
  · rfl
  · split <;> rfl

@[simp] theorem linkRec_sendLink (i j : Nat) (r : CtlReq) (s : State) : (sendLink i r s).linkRec j = s.linkRec j := by
  unfold sendLink
  split
  · exact linkRec_modAux _ _ _ _
  · split
    · exact linkRec_modAux _ _ _ _
    · rw [pushRequest_linkRec]
      exact linkRec_modAux _ _ _ _

theorem linkAnswered_frame (i : Nat) (s : State) :
    linkAnswered i s =
      { s with
        sup := { s.sup with links := (linkAnswered i s).sup.links }
        ctl := { s.ctl with queue := (linkAnswered i s).ctl.queue } } := by
  unfold linkAnswered
  split <;> rfl

@[simp] theorem linkRec_linkAnswered (i j : Nat) (s : State) : (linkAnswered i s).linkRec j = s.linkRec j := by
  unfold linkAnswered
  split
  · exact linkRec_modAux _ _ _ _
  · rw [pushRequest_linkRec]
    exact linkRec_modAux _ _ _ _

/-! ### The arbiter -/

theorem noteBegun_frame (r : UlReq) (s : State) :
    noteBegun r s =
      { s with
        sup := { s.sup with links := (noteBegun r s).sup.links }
        kc := { s.kc with mutes := (noteBegun r s).kc.mutes } } := by
  unfold noteBegun
  split
  · split
    · split <;> rfl
    · rfl
  · split
    · dsimp only
      split <;> rfl
    · rfl
  · rfl

@[simp] theorem linkRec_noteBegun (r : UlReq) (j : Nat) (s : State) : (noteBegun r s).linkRec j = s.linkRec j := by
  unfold noteBegun
  split
  · split
    · split
      · exact linkRec_modAux _ _ _ _
      · exact linkRec_modAux _ _ _ _
      · rfl
    · rfl
  · split
    · dsimp only
      split <;> rfl
    · rfl
  · rfl

theorem sendFrame_frame (r : UlReq) (b : Bool) (s : State) :
    sendFrame r b s =
      { s with
        ul := { s.ul with xact := (sendFrame r b s).ul.xact }
        mail := { s.mail with controlOutcomes := (sendFrame r b s).mail.controlOutcomes } } := by
  unfold sendFrame
  split
  · split <;> rfl
  · rfl

/-- What the arbiter can change: the unit link, what a sequence knows of its transactions, the MUTE states, and the outcomes of
withheld transactions. -/
theorem arbitrateN_frame (n : Nat) (s : State) :
    arbitrateN n s =
      { s with
        ul := (arbitrateN n s).ul
        sup := { s.sup with links := (arbitrateN n s).sup.links }
        kc := { s.kc with mutes := (arbitrateN n s).kc.mutes }
        mail := { s.mail with controlOutcomes := (arbitrateN n s).mail.controlOutcomes } } := by
  induction n generalizing s with
  | zero => rfl
  | succ n ih =>
    unfold arbitrateN
    split
    · rfl
    · split
      · rfl
      · rw [ih, sendFrame_frame, noteBegun_frame]

theorem linkRec_arbitrateN (n j : Nat) (s : State) : (arbitrateN n s).linkRec j = s.linkRec j := by
  induction n generalizing s with
  | zero => rfl
  | succ n ih =>
    unfold arbitrateN
    split
    · rfl
    · split
      · rfl
      · rename_i r u _
        rw [ih]
        have h : ∀ t : State, (sendFrame r false t).linkRec j = t.linkRec j := by
          intro t
          unfold State.linkRec State.link
          rw [sendFrame_frame]
        rw [h, linkRec_noteBegun]
        rfl

theorem arbitrate_frame (s : State) :
    arbitrate s =
      { s with
        ul := (arbitrate s).ul
        sup := { s.sup with links := (arbitrate s).sup.links }
        kc := { s.kc with mutes := (arbitrate s).kc.mutes }
        mail := { s.mail with controlOutcomes := (arbitrate s).mail.controlOutcomes } } := by
  unfold arbitrate
  split
  · exact arbitrateN_frame _ s
  · rfl

@[simp] theorem linkRec_arbitrate (j : Nat) (s : State) : (arbitrate s).linkRec j = s.linkRec j := by
  unfold arbitrate
  split
  · exact linkRec_arbitrateN _ j s
  · rfl

/-- While a transaction is in progress the arbiter takes nothing. -/
theorem arbitrate_busy {s : State} {x : Transaction} (h : s.ul.xact = some x) : arbitrate s = s := by
  unfold arbitrate
  split
  · unfold arbitrateN
    rw [h]
  · rfl

/-- With no request waiting the arbiter takes nothing. -/
theorem arbitrate_idle {s : State} (h : nextRequest s.ul = none) : arbitrate s = s := by
  unfold arbitrate
  split
  · unfold arbitrateN
    split
    · rfl
    · rw [h]
  · rfl

theorem finishLink_frame (a s : State) :
    finishLink a s =
      { s with
        ul := (arbitrate s).ul
        sup := { s.sup with links := (arbitrate s).sup.links }
        kc := { s.kc with mutes := (arbitrate s).kc.mutes }
        mail := { s.mail with controlOutcomes := (arbitrate s).mail.controlOutcomes }
        counts := countChanges a (arbitrate s) } := by
  unfold finishLink finish
  rw [arbitrate_frame]

@[simp] theorem linkRec_finishLink (a s : State) (j : Nat) : (finishLink a s).linkRec j = s.linkRec j :=
  linkRec_arbitrate j s

/-! ### The router and the tally unit -/

theorem reportDest_frame (d : Nat) (a b : DestRec) (s : State) :
    reportDest d a b s = { s with mail := { s.mail with reports := (reportDest d a b s).mail.reports } } := by
  have fold : ∀ (f : Nat × RouteState → JReport) (l : List (Nat × RouteState)) (s : State),
      l.foldl (fun s k => report .router (f k) s) s =
        { s with mail := { s.mail with reports := (l.foldl (fun s k => report .router (f k) s) s).mail.reports } } := by
    intro f l
    induction l with
    | nil => intro s; rfl
    | cons k ks ih => intro s; simp only [List.foldl_cons]; rw [ih]; rfl
  have fold2 : ∀ (f : Nat × RouteState → State → JReport) (l : List (Nat × RouteState)) (s : State),
      l.foldl (fun s k => report .router (f k s) s) s =
        { s with mail := { s.mail with reports := (l.foldl (fun s k => report .router (f k s) s) s).mail.reports } } := by
    intro f l
    induction l with
    | nil => intro s; rfl
    | cons k ks ih => intro s; simp only [List.foldl_cons]; rw [ih]; rfl
  unfold reportDest
  dsimp only
  split
  · rw [fold2 (fun k s => routeReport d (routeValue k.1 (a.stateOf k.1)) (routeValue k.1 (some k.2)) s),
      fold2 (fun k s => routeReport d (routeValue k.1 (some k.2)) (routeValue k.1 none) s)]
  · rw [fold2 (fun k s => routeReport d (routeValue k.1 (a.stateOf k.1)) (routeValue k.1 (some k.2)) s),
      fold2 (fun k s => routeReport d (routeValue k.1 (some k.2)) (routeValue k.1 none) s)]
    rfl

/-- A rebuild recomputes the router's records, reports what changed and hands on calls and staged changes. -/
theorem rebuild_frame (s : State) :
    rebuild s =
      { s with
        router := s.router.recompute
        mail := { s.mail with
          reports := (rebuild s).mail.reports
          callChanges := (rebuild s).mail.callChanges
          stagedChanges := (rebuild s).mail.stagedChanges } } := by
  have fold : ∀ (o n : List DestRec) (l : List Nat) (s : State),
      l.foldl (fun s d => reportDest d (DestRec.at o d) (DestRec.at s.router.dests d) s) s =
        { s with mail := { s.mail with
            reports := (l.foldl (fun s d => reportDest d (DestRec.at o d) (DestRec.at s.router.dests d) s) s).mail.reports } } := by
    intro o n l
    induction l with
    | nil => intro s; rfl
    | cons k ks ih => intro s; simp only [List.foldl_cons]; rw [ih, reportDest_frame]
  unfold rebuild handStaged handCalls
  dsimp only
  rw [fold _ []]
  split <;> rfl

/-! ### The states a step goes through -/

@[simp] theorem pathOf_length {α σ : Type} (f : σ → α → σ) (s : σ) (l : List α) : (pathOf f s l).length = l.length := by
  induction l generalizing s with
  | nil => rfl
  | cons x xs ih => simp [pathOf, ih]

theorem pathOf_getElem? {α σ : Type} (f : σ → α → σ) (s : σ) (l : List α) (n : Nat) (h : n < l.length) :
    (pathOf f s l)[n]? = some ((l.take (n + 1)).foldl f s) := by
  induction l generalizing s n with
  | nil => simp at h
  | cons x xs ih => cases n with
    | zero => simp [pathOf]
    | succ n => simpa [pathOf] using ih (f s x) n (by simpa using h)

/-- The end of an adoption is one write of the group's status. -/
@[simp] theorem AdoptState.finish_written (locked : Bool) (m : List Host.Cell) (st : AdoptStatus) (a : AdoptState) :
    (a.finish locked m st).written = a.written + 1 := by
  unfold AdoptState.finish; split <;> [split; skip] <;> rfl

/-- A frame boundary passed is a write of the timebase now, whatever the reading (R134). -/
theorem writesDirectory_of_frames {a b : State} (h : a.tb.frames ≠ b.tb.frames) : writesDirectory a b .timebase = true := by
  simp [writesDirectory, h]

/-- A record that does not differ from a to b differs from c as it does from there. -/
theorem recDiffers_of_same {a b c : State} {r : Rec} (h : recDiffers a b r = false) : recDiffers b c r = recDiffers a c r := by
  cases r with
  | directory w => cases w <;> simp_all [recDiffers, writesDirectory]
  | _ => simp_all [recDiffers, routeDiffers]

/-- A record counts as changed when it differs from the beginning in some state on the way or at the end. -/
theorem changesOnPath_iff (path : List State) (a b : State) (r : Rec) :
    changesOnPath path a b r = true ↔ ∃ x ∈ path ++ [b], recDiffers a x r = true := by
  induction path generalizing a with
  | nil => simp [changesOnPath]
  | cons m ms ih =>
    cases h : recDiffers a m r with
    | true => simp [changesOnPath, h]
    | false => simp [changesOnPath, h, ih, recDiffers_of_same h]

/-! ### The hand-over of a plan order (R42, R156) -/

/-- The three commands that hand over a plan order make the dispatcher's step, or have no occasion. -/
theorem dispatchPlanOrder_cases (p : PlanReq → Bool) (s : State) :
    dispatchPlanOrder p s = dispatchCellStep s ∨ dispatchPlanOrder p s = s := by
  unfold dispatchPlanOrder dispatchCellStep
  repeat' split
  all_goals simp_all

/-- A plan order handed over joins the queue's tail, or waits at the head of the intake queue; nothing else changes. -/
theorem handOver_plan (cell : Nat) (r : PlanReq) (s : State) :
    handOver cell (.plan r) s =
      if s.eng.freePlace = true ∧ s.placeWanted = false then
        { s with disp.intake := s.disp.intake.tail, eng.queue := s.eng.queue ++ [r] }
      else { s with disp.waiting := some (.plan r) } := by
  cases h : s.eng.freePlace <;> cases w : s.placeWanted <;> simp [handOver, holdAtHead, leaveIntake, h, w]

end Sys2Proof.Machine
end

