-- ==== Sys2Proof/Laws/Orders.lean ====
section
/-! SUPPORT. The completion of an order, once: what the cell shows after it and which bytes it leaves alone. -/

namespace Sys2Proof.Machine

theorem leBytes_length (v n : Nat) : (leBytes v n).length = n := by
  induction n generalizing v with
  | zero => rfl
  | succ n ih => simp [leBytes, ih]

theorem leBytes_getD (v n k : Nat) (h : k < n) : (leBytes v n).getD k 0 = BitVec.ofNat 8 (v / 256 ^ k) := by
  induction n generalizing v k with
  | zero => omega
  | succ n ih =>
    cases k with
    | zero => simp [leBytes]
    | succ k =>
      have h2 : (leBytes v (n + 1)).getD (k + 1) 0 = (leBytes (v / 256) n).getD k 0 := by simp [leBytes]
      rw [h2, ih _ _ (by omega), Nat.div_div_eq_div_mul, pow_succ, Nat.mul_comm]

/-- Bytes of a field written least significant first read back as the field. -/
theorem readLE_leBytes (m : List Host.Cell) (a v n : Nat)
    (h : ∀ k, k < n → Memory.read m (a + k) = (leBytes v n).getD k 0) : Memory.readLE m a n = v % 256 ^ n := by
  induction n generalizing a v with
  | zero => simp [Memory.readLE, Nat.mod_one]
  | succ n ih =>
    rw [Memory.readLE]
    have h0 := h 0 (by omega)
    have : (Memory.read m a).toNat = v % 256 := by
      rw [show a = a + 0 from rfl, h0]; simp [leBytes]
    rw [this, ih (a + 1) (v / 256)]
    · rw [pow_succ, Nat.mul_comm (256 ^ n) 256, Nat.mod_mul]
    · intro k hk
      have := h (k + 1) (by omega)
      rw [show a + 1 + k = a + (k + 1) by omega, this]
      simp [leBytes]

theorem readLE_writeBytes {m : List Host.Cell} (h : Memory.wf m) (a v n : Nat) :
    Memory.readLE (Memory.writeBytes m a (leBytes v n)) a n = v % 256 ^ n := by
  apply readLE_leBytes
  intro k hk
  rw [Memory.read_writeBytes h, leBytes_length, if_pos (by omega)]
  congr 1
  omega

/-- A field reads the same in two memories that agree on its bytes. -/
theorem readLE_congr {m m' : List Host.Cell} (a n : Nat) (h : ∀ k, k < n → Memory.read m (a + k) = Memory.read m' (a + k)) :
    Memory.readLE m a n = Memory.readLE m' a n := by
  induction n generalizing a with
  | zero => rfl
  | succ n ih =>
    rw [Memory.readLE, Memory.readLE, ih (a + 1)]
    · rw [show Memory.read m a = Memory.read m' a from h 0 (by omega)]
    · intro k hk
      have := h (k + 1) (by omega)
      rwa [show a + 1 + k = a + (k + 1) by omega]

/-- Results that lie in the results area change no byte outside it. -/
theorem writeResults_outside {c : Nat} {res : Results} {s : State} (h : Memory.wf s.mem)
    (hr : ∀ x ∈ res, x.1 + x.2.length ≤ 64) (a : Nat) (ha : a < cellResults c ∨ cellResults c + 64 ≤ a) :
    Memory.read (writeResults c res s).mem a = Memory.read s.mem a := by
  induction res generalizing s with
  | nil => rfl
  | cons x xs ih =>
    obtain ⟨off, bs⟩ := x
    have hx : off + bs.length ≤ 64 := hr (off, bs) (by simp)
    rw [writeResults, ih (Memory.wf_writeBytes h _ _) (fun y hy => hr y (List.mem_cons_of_mem _ hy))]
    show Memory.read (Memory.writeBytes s.mem (cellResults c + off) bs) a = _
    rw [Memory.read_writeBytes h, if_neg (by omega)]

/-- The memory after a completion, byte by byte, over the memory of its results. -/
theorem completeOrder_read (o : Owner) (g : OrderTag) (res : Results) (k : ResultCode) (x : Option Nat) (st : Nat)
    {s : State} (h : Memory.wf s.mem) (a : Nat) :
    Memory.read (completeOrder o g res k x st s).mem a =
      if a = cellBase g.cell then BitVec.ofNat 8 st
      else if a = cellBase g.cell + 4 then BitVec.ofNat 8 k.toNat
      else if cellBase g.cell + 6 ≤ a ∧ a < cellBase g.cell + 8 then (leBytes (x.getD 0xFFFF) 2).getD (a - (cellBase g.cell + 6)) 0
      else if cellBase g.cell + 8 ≤ a ∧ a < cellBase g.cell + 12 then
        (leBytes s.now.word 4).getD (a - (cellBase g.cell + 8)) 0
      else Memory.read (writeResults g.cell res s).mem a := by
  have hw := writeResults_wf (c := g.cell) (res := res) h
  have hn : (writeResults g.cell res s).now = s.now := by rw [writeResults_frame]; rfl
  unfold completeOrder
  show Memory.read (Memory.write (writeHeader g.cell k x (writeResults g.cell res s)).mem _ _) a = _
  rw [Memory.read_write (writeHeader_wf hw)]
  split
  · rfl
  · unfold writeHeader
    show Memory.read (Memory.writeBytes _ _ _) a = _
    rw [Memory.read_writeBytes (Memory.wf_writeBytes (Memory.wf_write hw _ _) _ _), leBytes_length, hn,
      Memory.read_writeBytes (Memory.wf_write hw _ _), leBytes_length, Memory.read_write hw]
    split_ifs <;> first | rfl | omega

/-- What every completion does to the cell (R154). -/
theorem completeOrder_ends (o : Owner) (g : OrderTag) (res : Results) (k : ResultCode) (x : Option Nat) (st : Nat)
    {s : State} (h : Memory.wf s.mem) (hst : st < 256) (hr : ∀ y ∈ res, y.1 + y.2.length ≤ 64) :
    OrderEnds g st k (x.getD 0xFFFF % 65536) s (completeOrder o g res k x st s) := by
  have hrd := completeOrder_read o g res k x st h
  refine ⟨⟨?_, ?_, ?_⟩, ?_, ?_, ?_⟩
  · unfold byteAt; rw [hrd, if_pos rfl, BitVec.toNat_ofNat]; exact Nat.mod_eq_of_lt hst
  · unfold byteAt
    rw [hrd, if_neg (by omega), if_pos rfl]
    cases k <;> rfl
  · unfold fieldAt
    refine readLE_leBytes _ _ (x.getD 0xFFFF) 2 ?_
    intro j hj
    rw [hrd, if_neg (by omega), if_neg (by omega), if_pos (by omega)]
    congr 1; omega
  · have hn : (completeOrder o g res k x st s).now = s.now := by rw [completeOrder_frame]; rfl
    unfold fieldAt
    rw [hn]
    refine readLE_leBytes _ _ s.now.word 4 ?_
    intro j hj
    rw [hrd, if_neg (by omega), if_neg (by omega), if_neg (by omega), if_pos (by omega)]
    congr 1; omega
  · intro a ha
    rw [hrd, if_neg (by omega), if_neg (by omega), if_neg (by omega), if_neg (by omega)]
    exact writeResults_outside h hr a (by unfold cellResults; omega)
  · rw [completeOrder_frame]

/-- A byte of the results area after a completion. -/
theorem completeOrder_result (o : Owner) (g : OrderTag) (res : Results) (k : ResultCode) (x : Option Nat) (st : Nat)
    {s : State} (h : Memory.wf s.mem) (off : Nat) :
    resultByte (completeOrder o g res k x st s).mem g.cell off = resultByte (writeResults g.cell res s).mem g.cell off := by
  unfold resultByte byteAt
  rw [completeOrder_read o g res k x st h]
  unfold cellResults
  rw [if_neg (by omega), if_neg (by omega), if_neg (by omega), if_neg (by omega)]

end Sys2Proof.Machine
end

