-- ==== Sys2Proof/Laws/Reports.lean ====
section
/-! SUPPORT. What the shared operations report and tell other blocks, and how an adoption ends. -/

namespace Sys2Proof.Machine

/-! ### The carrier table (R40) -/

/-- A change of an entry's marks alone reports each mark that changes. -/
theorem setSlot_marks {k : Nat} {e : CarrierEntry} {s : State} (c x i : Bool) (h : slotOf s.ctl.table k = some e) :
    (setSlot k (some { e with conflict := c, excluded := x, imSuspect := i }) s).mail.reports =
      s.mail.reports ++ markReports k e { e with conflict := c, excluded := x, imSuspect := i } s := by
  obtain ⟨a, b, d, f, g, st, c', x', i', w⟩ := e
  cases c <;> cases x <;> cases i <;> cases c' <;> cases x' <;> cases i' <;>
    simp [setSlot, h, slotChanges, slotReports, markReports, carrierValue, CarrierEntry.marks, bit]

/-! ### Links (R60) -/

/-- A change of a link's record makes its LINK entries and nothing else. -/
theorem tellJournal_reports (i : Nat) (old new : LinkRec) (s : State) :
    tellJournal i old new s = { s with mail.reports := s.mail.reports ++ linkEntries i old new s } := by
  simp only [tellJournal, linkMoves, LinkRec.withHealths, List.foldl, linkEntries]
  split <;> split <;> split <;> simp [report, linkReport, values, State.now]

/-- What a change of a link reports. -/
theorem setLink_reports (i : Nat) (l : Link) (s : State) :
    (setLink i l s).mail.reports = s.mail.reports ++ linkEntries i (s.linkRec i) l.vis s := by
  rw [setLink_parts, tellViews_frame, alarmOn_frame, tellJournal_reports]
  rfl

/-! ### Kill MUTEs (R85, R146) -/

/-- placeMute leaves a waiting MUTE, and otherwise numbers the new one and makes the link WAITING. -/
theorem placeMute_cases (t : MuteTarget) (s : State) :
    let m := s.kc.mutes.getD t.link MuteRec.reset
    (m.state = .waiting ∧ placeMute t s = s) ∨
      (m.state ≠ .waiting ∧ placeMute t s = { s with
        ul.killQ := s.ul.killQ ++ [.mute t.link s.kc.epoch (m.serial + 1) t.unit t.chan t.roleOut t.roleIn]
        kc.mutes := put s.kc.mutes t.link { m with state := .waiting, target := some t, serial := m.serial + 1 } }) := by
  by_cases h : (s.kc.mutes.getD t.link MuteRec.reset).state = .waiting
  · exact .inl ⟨h, if_pos h⟩
  · exact .inr ⟨h, if_neg h⟩

/-! ### The router (R125, R127, R132) -/

/-- A report for each element of a list. -/
theorem foldl_report {α : Type} (o : Owner) (f : α → State → JReport) (g : α → JReport) (l : List α) (s : State)
    (h : ∀ a (t : State), t.now = s.now → f a t = g a) :
    l.foldl (fun s a => report o (f a s) s) s = { s with mail.reports := s.mail.reports ++ l.map fun a => (o, g a) } := by
  induction l generalizing s with
  | nil => simp
  | cons a l ih =>
    simp only [List.foldl_cons, List.map_cons]
    rw [ih (report o (f a s) s) h, h a s rfl]
    simp [report]

/-- The ROUTE entries that reportDest makes of a destination (R132). -/
theorem reportDest_told (d : Nat) (a b s : State) (h : s.now = a.now) :
    reportDest d (DestRec.at a.router.dests d) (DestRec.at b.router.dests d) s =
      { s with mail.reports := s.mail.reports ++ routeEntries a b d } := by
  unfold reportDest routeEntries
  dsimp only
  rw [foldl_report .router (fun (k : Nat × RouteState) s => routeReport d (routeValue k.1 (some k.2)) (routeValue k.1 none) s)
      (fun (k : Nat × RouteState) => routeReport d (routeValue k.1 (some k.2)) (routeValue k.1 none) a) _ _
      (fun _ t ht => by simp only [routeReport, ht, h]),
    foldl_report .router (fun (k : Nat × RouteState) s => routeReport d (routeValue k.1 ((DestRec.at a.router.dests d).stateOf k.1))
        (routeValue k.1 (some k.2)) s) (fun (k : Nat × RouteState) => routeReport d (routeValue k.1 ((DestRec.at a.router.dests d).stateOf k.1))
        (routeValue k.1 (some k.2)) a) _ _ (fun _ t ht => by simp only [routeReport, ht.trans h])]
  split
  · simp [routeReport, values]
  · simp [routeReport, values, report, State.now] at h ⊢
    exact h

/-- The ROUTE entries of several destinations. -/
theorem reportDests_told (a b : State) (l : List Nat) (s : State) (h : s.now = a.now) (hr : s.router = b.router) :
    l.foldl (fun s d => reportDest d (DestRec.at a.router.dests d) (DestRec.at s.router.dests d) s) s =
      { s with mail.reports := s.mail.reports ++ l.flatMap (routeEntries a b) } := by
  induction l generalizing s with
  | nil => simp
  | cons d l ih =>
    simp only [List.foldl_cons]
    rw [show DestRec.at s.router.dests d = DestRec.at b.router.dests d by rw [hr], reportDest_told d a b s h]
    refine (ih { s with mail.reports := s.mail.reports ++ routeEntries a b d } h hr).trans ?_
    simp

/-- A rebuild tells the routes, calls and rows that changed. -/
theorem rebuild_told (s : State) : RouterTold s (rebuild s) [] := by
  have calls : ∀ (f : Nat → Bool) (x : List Bool),
      ((List.range 96).map f).zipIdx.filterMap (fun c => if x.getD c.2 false = c.1 then none else some (c.2, c.1)) =
        ((List.range 96).filter fun l => x.getD l false ≠ ((List.range 96).map f).getD l false).map fun l =>
          (l, ((List.range 96).map f).getD l false) := by
    intro f x
    have zip : ((List.range 96).map f).zipIdx = (List.range 96).map fun l => (((List.range 96).map f).getD l false, l) := by
      apply List.ext_getElem (by simp)
      intro n h _
      simp at h ⊢
      simp [h]
    rw [zip, List.filterMap_map]
    generalize ((List.range 96).map f) = y
    generalize List.range 96 = l
    induction l with
    | nil => rfl
    | cons n l ih => by_cases h : x.getD n false = y.getD n false <;> simp_all
  unfold rebuild handCalls handStaged
  dsimp only
  have := reportDests_told s { s with router := s.router.recompute } (List.range Config.destinations)
    { s with router := s.router.recompute } rfl rfl
  rw [this]
  refine ⟨?_, ?_, ?_⟩
  · rw [List.append_nil]; split <;> rfl
  · split <;> exact congrArg _ (calls _ _)
  · split <;> simp_all

/-! ### Adoptions (R157, R158, R162) -/

/-- How an adoption of one group ends. -/
theorem AdoptState.finish_ends (locked : Bool) (region : Nat → Bool) (m : List Host.Cell) (st : AdoptStatus) (a : AdoptState) :
    AdoptionEnds locked region m st a (a.finish locked (copyRegion region m) st) := by
  unfold AdoptionEnds AdoptState.finish
  cases h : a.pending <;> cases locked <;> simp [AdoptState.start]

/-- What the request of RUN does with a group. -/
theorem AdoptState.requestAtRun_made (locked : Bool) (region : Nat → Bool) (m : List Host.Cell) (a : AdoptState) :
    AdoptionAtRun locked region m a (a.requestAtRun locked (copyRegion region m)) := by
  unfold AdoptionAtRun AdoptState.requestAtRun AdoptState.request
  cases locked <;> by_cases h : a.stage = .idle <;> simp [h, AdoptState.start]

/-- How the station adoption ends. -/
theorem endStation_ends (st : AdoptStatus) (s : State) :
    StationAdoptionEnds st s (endStation st s) ∧ (endStation st s).mem = s.mem := by
  unfold StationAdoptionEnds endStation
  cases h : s.adopt.cueAfterStation <;>
    simp only [tellTable, raise, report, h, if_true, if_false, Bool.false_eq_true, reduceCtorEq, false_implies,
      true_implies, and_true, implies_true]
  · exact AdoptState.finish_ends ..
  · exact ⟨AdoptState.finish_ends .., trivial, trivial, trivial, AdoptState.requestAtRun_made ..⟩

end Sys2Proof.Machine
end

