-- ==== Sys2Proof/WellFormed.lean ====
section
/-! DEFINITION. The operands a command can carry on this part (TABLE 1-5, R151). -/

namespace Sys2Proof

/-- A word above or at IDENT among the register words: 20018h is word 6 (TABLE 12-2), and what lies above 2001Bh follows;
the 16-bit word address of the host port (TABLE 1-7) leaves 8000h words from 20000h on. So is a word written to CONTROL, word 5,
with RUN and RESET clear, which commands nothing (R161). -/
def discardedRegisterWord (w : Nat) (data : Word) : Bool :=
  (6 ≤ w && w < 0x8000) || (w = 5 && !data.getLsbD 0 && !data.getLsbD 1)

/-- A word of the 128 KiB memory window (R151). -/
def memoryWord (w : Nat) : Bool := w < 0x8000

def linkIndex (i : Nat) : Bool := i < Config.links

def contactIndex (i : Nat) : Bool := i < Config.contacts

/-- The operands of a command are ones the part's ports and tables have. -/
def Instr.wellFormed : Instr → Bool
  | .registerWriteDiscarded w data => discardedRegisterWord w data
  | .hostMemoryWrite w _ _ => memoryWord w
  | .settlePollTimerExpiry i => linkIndex i
  | .guardExpiry i => linkIndex i
  | .settleLimitExpiry i => linkIndex i
  | .holdLimitExpiry i => linkIndex i
  | .failoverDelayExpiry i _ => linkIndex i
  | .failoverRetryExpiry i => linkIndex i
  | .staleTimerExpiry i => linkIndex i
  | .killMuteRetryExpiry i => linkIndex i
  | .contactInputChange i _ => contactIndex i
  | .contactFilterRunComplete i => contactIndex i
  | .powerOnReset => true
  | .partReset => true
  | .run => true
  | .post _ => true
  | .noticeClear _ => true
  | .noticeEnableWrite _ => true
  | .lockSet _ => true
  | .lockRelease _ => true
  | .dispatchCell => true
  | .planPlaceGrant => true
  | .clearReservePlaceGrant => true
  | .enableLink => true
  | .retuneLink => true
  | .parkLink => true
  | .planQuery => true
  | .fillReserve => true
  | .auditPlan => true
  | .clearReserve => true
  | .setTally => true
  | .key => true
  | .clearKeys => true
  | .apply => true
  | .setClock => true
  | .kill => true
  | .releaseKill => true
  | .lineTest => true
  | .insert => true
  | .take => true
  | .learn => true
  | .update => true
  | .purge => true
  | .append => true
  | .adopt => true
  | .mark => true
  | .planServiceStart => true
  | .planningAttemptEnd => true
  | .querySearchEnd => true
  | .fillSearchEnd => true
  | .auditMeasuringEnd => true
  | .planningInsertAnswer => true
  | .appendAnswer => true
  | .markAnswer => true
  | .cancel => true
  | .planningAnswer => true
  | .insertionAnswer => true
  | .failoverTakeAnswer => true
  | .learnAnswer => true
  | .liveUpdateAnswer => true
  | .purgeAnswer => true
  | .tuneAck => true
  | .tuneFailed => true
  | .tuneWithheld => true
  | .unmuteAck => true
  | .unmuteFailed => true
  | .unmuteWithheld => true
  | .parkMuteOutcome => true
  | .settlePollOutcome => true
  | .tallyChangeToSupervisor => true
  | .stationAdoption => true
  | .stationDefinitionsTaken => true
  | .cueAdoption => true
  | .tallyStationAdoption => true
  | .routerStationAdoption => true
  | .linkStateToTally => true
  | .linkStateToRouter => true
  | .unitFrameReceived _ => true
  | .frameTransmitted => true
  | .replyTimeout => true
  | .sweepSpacingExpiry => true
  | .reportToLinkSupervisor => true
  | .pollMiss => true
  | .uatnAsserted => true
  | .uatnDeasserted => true
  | .loopOutcome => true
  | .killInputChange _ => true
  | .killFilterRunComplete => true
  | .linkKillAssertion => true
  | .killMuteList => true
  | .killMuteOutcome => true
  | .linkKillRelease => true
  | .tallyKillState => true
  | .routerKillState => true
  | .lampApply => true
  | .callChange => true
  | .cueOutcome => true
  | .tallyEchoReport => true
  | .routerTallyColours => true
  | .beltpackKeyReport => true
  | .crosspointApply => true
  | .crosspointWordSent => true
  | .frameBoundary => true
  | .framePulse => true
  | .takeInputChange _ => true
  | .takeFilterRunComplete => true
  | .stagedChange => true
  | .applyAnswer => true
  | .journalReport _ => true
  | .journalDelayExpiry => true
  | .updateAnswer => true

end Sys2Proof
end

