-- ==== Sys2Proof/Tests/Slice0.lean ====
section
/-! SUPPORT. Tests: the refusals of WellFormed, worked numbers of the data book, and, for every obligation with hypotheses, a
state and operands that meet them together (the theorems named `witness_…`, one conjunct or group of conjuncts for each clause). -/

namespace Sys2Proof.Tests

-- One theorem after another: each waits for the kernel, and in parallel each would hold a thread of its own.
set_option Elab.async false

open Sys2Proof Sys2Proof.Machine

/-! ### States the tests are made on -/

def run0 : State := { State.reset with part := .running }

def withMem (a : Nat) (l : List Byte) (s : State) : State := { s with mem := Memory.writeBytes s.mem a l }

def tagOf (kind : Nat) : OrderTag := { cell := 3, kind := kind, clamped := false }

/-- Class 0 of TABLE 1-11. -/
def micClass : ClassDef :=
  { ClassDef.undefinedClass with hw := 4, eg := 4, g3 := 2, g5 := 1, emits := true, sensitive := true, guardMs := 40, settleMs := 200 }

/-- TABLE 1-11. -/
def rules0 : PlanRules :=
  { PlanRules.reset with classes := micClass :: List.replicate 7 ClassDef.undefinedClass
                         exclusions := [{ low := 19456, high := 19470, zones := 1 }] }

def rulesOpen : PlanRules := { rules0 with exclusions := [] }

def entryOf (link : Nat) (role : Role) (code : Nat) (st : CarrierState) : CarrierEntry :=
  { link := link, role := role, code := code, cls := 0, zone := 0, state := st, conflict := false, excluded := false
    imSuspect := false, since := ⟨0, 0, 0⟩ }

def spareOf (code : Nat) : ReserveEntry := { code := code, cls := 0, zone := 0, fill := ⟨0, 0, 0⟩ }

/-- Carriers A and B of TABLE 1-11 and O of TABLE 2-5, in slots 0 to 2 of 160. -/
def tableABO : List (Option CarrierEntry) :=
  some (entryOf 3 .inbound 19400 .live) :: some (entryOf 4 .inbound 19420 .live) :: some (entryOf 5 .outbound 19300 .live) ::
    List.replicate 157 none

def fullTable : List (Option CarrierEntry) :=
  (List.range 160).map fun k => some (entryOf 90 .inbound (1000 + 20 * k) .live)

/-- TABLE 2-5. -/
def twoInsertions : State :=
  { run0 with ctl.table := tableABO, ctl.reserve := [spareOf 19451, spareOf 19470], ctl.rules := rulesOpen, ctl.carrierGen := 40 }

def planOf (role : Role) (lo hi : Nat) : RolePlan := { role := role, cls := 0, zone := 0, lo := lo, hi := hi, step := 1, off := 0 }

def linkNine : RolePlan := planOf .inbound 19380 19460
def linkFive : RolePlan := planOf .outbound 19280 19480

def outRole : RoleDef := { cls := 0, lo := 19280, hi := 19480, step := 1, off := 0 }

/-- A camera link on unit 20, channel 1, of camera 3. -/
def camDef : LinkDef :=
  { kind := .camera, unit := 20, chan := 1, camera := 3, zone := 0, outRole := some outRole, inRole := none, auto := false
    attn := true, delayS := 3, holdS := 20 }

def recOf (st : LinkState) : LinkRec := { LinkRec.reset with state := st }

/-- Link 0 alone is defined, and stands as given. -/
def linkState (v : LinkRec) (a : LinkAux) : State :=
  { run0 with sup.defs := [some camDef], sup.links := [{ vis := v, aux := a }], ctl.rules := rulesOpen }

/-! ### WellFormed refuses what the part's ports and tables do not have -/

theorem test_wellFormed_refuses :
    (Instr.registerWriteDiscarded 5 1).wellFormed = false ∧ (Instr.registerWriteDiscarded 5 2).wellFormed = false ∧
    (Instr.registerWriteDiscarded 5 3).wellFormed = false ∧
    (Instr.registerWriteDiscarded 4 0).wellFormed = false ∧ (Instr.registerWriteDiscarded 0x8000 0).wellFormed = false ∧
    (Instr.hostMemoryWrite 0x8000 0 0).wellFormed = false ∧ (Instr.settlePollTimerExpiry 96).wellFormed = false ∧
    (Instr.guardExpiry 96).wellFormed = false ∧ (Instr.settleLimitExpiry 96).wellFormed = false ∧
    (Instr.holdLimitExpiry 96).wellFormed = false ∧ (Instr.failoverDelayExpiry 96 .inbound).wellFormed = false ∧
    (Instr.failoverRetryExpiry 96).wellFormed = false ∧ (Instr.staleTimerExpiry 96).wellFormed = false ∧
    (Instr.killMuteRetryExpiry 96).wellFormed = false ∧ (Instr.contactInputChange 48 true).wellFormed = false ∧
    (Instr.contactFilterRunComplete 48).wellFormed = false := by decide

theorem test_wellFormed_accepts :
    (Instr.registerWriteDiscarded 6 0).wellFormed = true ∧ (Instr.hostMemoryWrite 0x7FFF 0 0).wellFormed = true ∧
    (Instr.guardExpiry 95).wellFormed = true ∧ (Instr.contactInputChange 47 true).wellFormed = true ∧
    (Instr.registerWriteDiscarded 5 0xFFFFFFFC).wellFormed = true := by decide

/-- A host write of any word to any register word is a command that the part's ports have. -/
theorem test_register_writes_are_wellFormed (k : Nat) (w : Word) (h : k < 0x8000) :
    (decodeRegisterWrite k w).wellFormed = true := by
  match k, h with
  | 0, _ | 1, _ | 2, _ => rfl
  | 3, _ | 4, _ => simp only [decodeRegisterWrite, decodeLockWrite]; split <;> rfl
  | 5, _ =>
    simp only [decodeRegisterWrite, decodeControlWrite]
    split
    · rfl
    · split
      · rfl
      · simp_all [Instr.wellFormed, discardedRegisterWord]
  | n + 6, h => simp [decodeRegisterWrite, Instr.wellFormed, discardedRegisterWord, h]

/-- TABLE 12-2: the words 3 (RUN and RESET), 1, 2 and 0 written to CONTROL, in HALTED and in RUNNING (R161). -/
theorem test_control_words :
    let after (w : Word) (s : State) : List PartState :=
      match step (s.hostRegisterWrite 5 w) with
      | .next t => [t.part]
      | _ => []
    after 3 run0 = [.halted] ∧ after 2 run0 = [.halted] ∧ after 1 State.reset = [.running] ∧ after 3 State.reset = [.halted] ∧
      after 0 run0 = [.running] ∧ after 0 State.reset = [.halted] := by decide +kernel

/-- R157: only the lowest bit of the word counts. -/
theorem test_lock_words :
    let after (w : Word) (s : State) : List Lock :=
      match step (s.hostRegisterWrite 3 w) with
      | .next t => [t.lockP]
      | _ => []
    let held := { run0 with lockP.flag := true }
    after 0xFFFFFFFF run0 = [{ flag := true, test := false }] ∧ after 1 held = [{ flag := true, test := true }] ∧
      after 0xFFFFFFFE held = [{ flag := false, test := false }] := by decide +kernel

/-! ### Worked numbers of the data book -/

/-- R176: the check of a POLL to unit 1. -/
theorem test_crc : beBytes (crc16 [0x01, 0x01, 0x00]).toNat 2 = [0xC8, 0x9D] := by decide +kernel

/-- TABLE 1-12. -/
theorem test_margin_19450 :
    verdictOf rules0 (tableCarriers (tableABO.take 2)) 19450 0 0 none none =
      { eligibility := .acceptable, margin := 0, spacing := 18, product := 0 } := by decide +kernel

/-- TABLE 1-13, and the wrong grid of case 2. -/
theorem test_margin_19451_off_grid :
    verdictOf rules0 (tableCarriers (tableABO.take 2)) 19451 0 0 none (some { lo := 19380, hi := 19460, step := 2, off := 0 }) =
      { eligibility := .offGrid, margin := 1, spacing := 19, product := 1 } := by decide +kernel

def caseOne : PlanParams := { cls := 0, zone := 0, lo := 19380, hi := 19460, step := 1, off := 0, preferred := none, count := 3 }

def caseCtl (rules : PlanRules) : Controller := { Controller.reset with table := tableABO.take 2, rules := rules }

/-- Case 1 of section 1.16: two candidates, 19,451 before 19,450. -/
theorem test_case_one :
    ((orderSearch (caseCtl rules0) caseOne false).toEnd (caseCtl rules0)).best = [(19451, 1), (19450, 0)] := by decide +kernel

/-- TABLE 1-16: with fifth order, the preferred codes 19,455 and 19,440 and none. -/
theorem test_case_three :
    let c := caseCtl { rules0 with fifth := true }
    let first (p : Option Nat) := ((orderSearch c { caseOne with preferred := p } false).toEnd c).best.head?
    first none = some (19450, 0) ∧ first (some 19455) = some (19451, 0) ∧ first (some 19440) = some (19450, 0) := by
  decide +kernel

/-- Case 4: link 4 retunes; its own entry counts in spacing only. -/
theorem test_case_four :
    verdictOf rulesOpen (tableCarriers (tableABO.take 2)) 19460 0 0 (some (4, .inbound)) none =
      { eligibility := .acceptable, margin := 28, spacing := 28, product := 4095 } := by decide +kernel

/-- TABLE 2-6, steps 1 to 4: slot 3, generation 41, the spare with the same code gone. -/
theorem test_insert_before_take :
    let t := insertStep { twoInsertions with ctl.queue := [.insert false 9 1 [(linkNine, 19451)]] }
    t.ctl.carrierGen = 41 ∧ (slotOf t.ctl.table 3).map (·.code) = some 19451 ∧ t.ctl.reserve.map (·.code) = [19470] ∧
      t.mail.insertAnswers.map (fun a => (a.result, a.roles.map fun r => (r.slot, r.verdict.map (·.margin)))) =
        [(.ok, [(some 3, some 1)])] := by decide +kernel

/-- TABLE 2-7, steps 1 to 5: the TAKE gets the spare 19,451 in slot 3 with margin 1. -/
theorem test_take_before_insert :
    let t := takeStep { twoInsertions with ctl.queue := [.take 5 1 [linkFive]] }
    t.ctl.carrierGen = 41 ∧ t.ctl.reserve.map (·.code) = [19470] ∧
      t.mail.takeAnswers.map (fun a => (a.result, a.roles.map fun r => (r.code, r.slot, r.verdict.map (·.margin)))) =
        [(.ok, [(19451, some 3, some 1)])] := by decide +kernel

/-! ### Witnesses: chapter 10, the laws, the host port -/

theorem witness_StepTakesFrontCommand :
    let s := { run0 with tb.tick := 254 }
    (State.reset.pending = [] ∧ State.reset.part ≠ .running) ∧
    (s.pending = [] ∧ s.part = .running ∧ s.tb.tick < 255 ∧ s.jw.walking = false) := by decide

/-- A step from a state that meets the laws of R27, R24 and R123: for CarrierLawsKept and RouteLawKept. -/
theorem witness_CarrierLawsKept_RouteLawKept :
    let e := entryOf 3 .inbound 19400 .live
    let s := { run0 with ctl.table := [some e, some { e with code := 19402, conflict := true }], ctl.rules := rulesOpen, pending := [.post 5] }
    RoleLaw s ∧ ConflictLaw s ∧ RouteLaw s ∧ ∃ t, step s = .next t := by
  refine ⟨fun link r => ?_, fun i j a b hij ha hb _ hc hd => ?_, fun d _ => ?_, _, rfl⟩
  · simp only [roleEntries, List.countP_cons, List.countP_nil]; split <;> split <;> omega
  · rcases i with _ | _ | i <;> rcases j with _ | _ | j
    all_goals first
      | exact absurd rfl hij
      | cases (show (none : Option CarrierEntry) = some a from ha)
      | cases (show (none : Option CarrierEntry) = some b from hb)
      | (injection ha with ha; subst ha; cases (show true = false from hc))
      | (injection hb with hb; subst hb; cases (show true = false from hd))
  · have h : (DestRec.at run0.router.dests d).routes = [] := by
      show ((List.replicate 32 DestRec.reset).getD d DestRec.reset).routes = []
      rw [List.getD_eq_getElem?_getD, List.getElem?_replicate]; split <;> rfl
    show _ ≤ 4 ∧ _
    simp only [h]; simp

/-- A step from a state that meets the other laws: for MemoryFormKept, JournalLawsKept, QueueAndTableSizesKept and
CarrierLawsKept. -/
theorem witness_lawsKept :
    let s := { twoInsertions with mem := [(0x0A, 3)], jw.head := 131, jw.taken := 3, jw.notice := 2, jw.enable := 2, jw.line := true
                                  disp.intake := [0, 63], pending := [.post 5] }
    (Memory.wf s.mem ∧ NoticeLaw s ∧ UnreadLaw s ∧ IntakeLaw s ∧ TableSizes s) ∧ ReserveLaw s ∧ ∃ t, step s = .next t :=
  ⟨by decide +kernel, ⟨by decide, by decide, fun e he c hc => by
    have h : (tableABO.all fun x => x.all fun c => [19451, 19470].all fun k => c.code ≠ k) = true := by decide +kernel
    have := List.all_eq_true.mp h _ hc
    simp only [Option.all_some, List.all_eq_true, decide_eq_true_eq] at this
    refine this e.code ?_
    rcases List.mem_cons.mp he with rfl | he
    · simp [spareOf]
    · rcases List.mem_cons.mp he with rfl | he
      · simp [spareOf]
      · cases he⟩, ⟨_, rfl⟩⟩

def tuneReq : ControlReq :=
  { link := 0, seq := 1, forRetune := false, unit := 20, chan := 1, kind := .tune, roleOut := true, roleIn := false, codeOut := 19300, codeIn := 0 }

def onLine (r : UlReq) : Transaction := { req := r, second := false, sending := true, deadline := 0 }

theorem witness_NoPermitFrameBegunWhileKilled :
    let s := { run0 with kc.asserted := true, ul.xact := some (onLine (.controlReq tuneReq)), pending := [.post 5] }
    ∃ t x, step s = .next t ∧ t.kc.asserted = true ∧ t.permitFrame = some x := ⟨_, _, rfl, rfl, rfl⟩

theorem witness_KillEndsOnlyByReleaseOrReset :
    let s := { run0 with kc.asserted := true, kc.cause := .line }
    Instr.post 5 ≠ .releaseKill ∧ Instr.post 5 ≠ .powerOnReset ∧ Instr.post 5 ≠ .partReset ∧ s.kc.asserted = true ∧
      ∃ t, exec (.post 5) s = .next t := ⟨by decide, by decide, by decide, rfl, _, rfl⟩

theorem witness_ChangeCountsFollowRecords :
    Instr.run ≠ .powerOnReset ∧ Instr.run ≠ .partReset ∧ (∀ o, Instr.run ≠ .journalReport o) ∧ (∀ b, Instr.run ≠ .noticeClear b) ∧
      ∃ t, exec .run State.reset = .next t := ⟨nofun, nofun, nofun, nofun, _, rfl⟩

theorem witness_HostWritesReachTheirBytes : Memory.wf [(0x0A, 3)] := by decide

def keyShown : KeyRec :=
  { source := 21, dest := 38, priority := 7, latch := true, level := -33, byBeltpack := true, keyed := ⟨0, 0, 9⟩ }

/-- What the records of link 95, slot 159, reserve position 0, camera 32, key 63, destination 31 and journal position 127 hold. -/
def shown : State :=
  { run0 with
    sup.links := run0.sup.links.set 95 { Link.reset with vis := { LinkRec.reset with
      state := .holding, hold := some .failover, orderCell := some 37, pending := true, lastVisit := some ⟨86399, 24, 200⟩
      inRec := { RoleRec.reset with health := some .stale, fresh := some 0x17654 } } }
    ctl.table := run0.ctl.table.set 159 (some { entryOf 95 .inbound 0x1FEDC .silent with imSuspect := true })
    ctl.reserve := [{ spareOf 0x1FEDE with cls := 5, zone := 2 }], tally.cams := run0.tally.cams.set 31 { CamRec.reset with link := some 41 }
    router.keys := run0.router.keys.set 63 (some keyShown), router.dests := run0.router.dests.set 31 { DestRec.reset with
      kind := .camera, routes := [(40, .slotted), (3, .waiting), (9, .merged)] }
    router.applied := run0.router.applied.set 31 (List.replicate 28 185)
    jw.entries := run0.jw.entries.set 127 (some { sequence := 51234, kind := .holdExpired, stamp := ⟨1, 2, 3⟩, subject := 95
                                                  values := 2 * 2 ^ 24, resync := false, dropped := true, clamped := false }) }
/-- TABLE 12-8, TABLE 12-9 and R175, by hand: fields of the records of `shown`, and empty records beside them. -/
theorem test_host_reads_records :
    let f := hostField shown
    [f 0x67C2 1, f 0x67C3 1, f 0x67C5 1, f 0x67CA 1, f 0x67CB 1, f 0x67CC 1, f 0x67D4 4, f 0x67D8 4, f 0x67E4 4] =
      [6, 2, 2, 37, 128, 2, 200 + 24 * 256 + 86399 * 16384, 0xFFFFFFFF, 0x17654] ∧
    [f 0x71F2 1, f 0x71F3 1, f 0x71F4 1, f 0x71F5 1, f 0x71F8 4, f 0x71E2 1] = [4, 4, 95, 1, 0x1FEDC, 0] ∧
    [f 0x7200 4, f 0x7208 4, f 0x720C 4] = [0x1FEDE + 5 * 2 ^ 17 + 2 * 2 ^ 20 + 2 ^ 22, 0, 0] ∧
    [f 0x77E6 1, f 0x77C6 1] = [41, 0xFF] ∧ [f 0x7FE2 1, f 0x7FE3 1, f 0x7FE7 1, f 0x7FE8 2] = [21, 38, 1, 65503] ∧
    [f 0x87C2 1, f 0x87C5 1, f 0x87C6 1, f 0x87C8 1, f 0x87CA 3] = [3, 2, 1, 1, 40 + 3 * 256 + 0xFF0000] ∧
    [f 0x937F 1, f 0x9380 1] = [185, 0] ∧ [f 0xA7F4 2, f 0xA7F6 1, f 0xA7F7 3, f 0xA7FA 3, f 0xA7FD 3] = [51234, 9 + 32, 95, 0, 2] := by
  decide +kernel

theorem witness_HostWritesReachTheirBytes_records :
    (slotOf shown.ctl.table 159).isSome = true ∧ slotOf shown.ctl.table 0 = none ∧ (shown.ctl.reserve[0]?).isSome = true ∧
    shown.ctl.reserve[31]? = none ∧ shown.router.keys.getD 63 none = some keyShown ∧ shown.router.keys.getD 0 none = none ∧
    (DestRec.at shown.router.dests 31).routes.filter (fun k => k.2 = .slotted || k.2 = .waiting) = [(40, .slotted), (3, .waiting)] ∧
    (shown.jw.entries.getD 127 none).isSome = true := by decide +kernel

/-- POST at the bounds of a cell number (R153). -/
theorem test_post_bounds :
    (postStep 63 run0).disp.outcome = .taken ∧ (postStep 64 run0).disp.outcome = .outOfRange ∧
    (postStep 63 State.reset).disp.outcome = .notRunning ∧
    (postStep 63 { run0 with disp.intake := [63] }).disp.outcome = .duplicate ∧
    (postStep 63 { run0 with disp.intake := List.range 32 }).disp.outcome = .queueFull := by decide +kernel

theorem witness_NoticeRegisterWrites :
    let s := { run0 with jw.head := 128, jw.notice := 2 }
    (1 : Word).getLsbD 1 = false ∧ (2 : Word).getLsbD 1 = true ∧ firstPending s = none ∧
      (s.jw.head + 65536 - takenWord s) % 65536 ≤ 128 := by decide +kernel

theorem witness_HostPortWrites :
    let s := { run0 with disp.intake := (List.range 33).tail }
    let used (s : State) (n : Nat) : Prop := n ∈ s.disp.intake ∨ n ∈ s.disp.service ∨
      (∃ r ∈ s.eng.queue, r.cell = some n) ∨ (∃ r ∈ s.eng.standby, r.cell = n) ∨
      ∃ v, s.eng.service = some v ∧ v.req.cell = some n
    State.reset.part ≠ .running ∧ run0.part = .running ∧ 63 < (64 : Word).toNat ∧ (63 : Word).toNat ≤ 63 ∧
    (32 ∈ s.disp.intake ∧ s.part = .running) ∧ (¬used s 63 ∧ 32 ≤ s.disp.intake.length) ∧
    (¬used run0 63 ∧ run0.disp.intake.length < 32) ∧
    State.reset.pending = [] ∧ ((3 : Word).getLsbD 0 = true ∧ (2 : Word).getLsbD 0 = false) ∧
    ((2 : Word).getLsbD 1 = true ∧ (1 : Word).getLsbD 1 = false) ∧ (4 : Word).getLsbD 1 = false ∧ (4 : Word).getLsbD 0 = false := by
  refine ⟨by decide, by decide, by decide, by decide, by decide +kernel, ⟨?_, by decide⟩, ⟨?_, by decide⟩, rfl, by decide, by decide, by decide, by decide⟩ <;>
    rintro (h | h | ⟨r, h, -⟩ | ⟨r, h, -⟩ | ⟨v, h, -⟩)
  all_goals first
    | exact absurd h (by decide)
    | exact List.not_mem_nil h
    | cases (show (none : Option Service) = some v from h)

theorem witness_ResetsEndHalted_JournalWriterAfterReset : Memory.wf [(0x0A, 3), (0x400, 1)] := by decide

theorem witness_RunStartsThePart :
    State.reset.part = .halted ∧ State.reset.adopt.station.stage = .idle ∧ State.reset.lockP.flag = false ∧
    ({ State.reset with lockP.flag := true } : State).lockP.flag = true ∧
    ({ State.reset with adopt.station.stage := .begun } : State).adopt.station.stage ≠ .idle ∧
    run0.part = .running ∧ nextRequest run0.ul = none := by
  decide

/-- The intake queue holds cell 3, whose header and parameter bytes these are. -/
def cellState (kind : Nat) (params : List Byte) : State :=
  withMem (cellParams 3) params (withMem (cellBase 3) [1, BitVec.ofNat 8 kind] { run0 with disp.intake := [3] })

theorem witness_DispatcherRefusesInOrder :
    let a := { run0 with disp.intake := [63] }
    let dispatchable (s : State) (cell : Nat) : Prop := Memory.wf s.mem ∧ s.disp.waiting = none ∧ s.disp.intake = [cell] ∧ cell < 64
    (dispatchable a 63 ∧ byteAt a.mem (cellBase 63) ≠ 1) ∧
    (dispatchable (cellState 0 []) 3 ∧ byteAt (cellState 0 []).mem (cellBase 3) = 1 ∧
      byteAt (cellState 0 []).mem (cellBase 3 + 1) = 0) ∧
    (dispatchable (cellState 16 []) 3 ∧ byteAt (cellState 16 []).mem (cellBase 3) = 1 ∧
      15 < byteAt (cellState 16 []).mem (cellBase 3 + 1)) ∧
    (dispatchable (cellState 6 [8]) 3 ∧ byteAt (cellState 6 [8]).mem (cellBase 3) = 1 ∧
      parseOrder (cellState 6 [8]).mem 3 = .refused 0 false) := by decide +kernel

theorem witness_DispatcherHandsOver :
    let ready (s : State) : Prop :=
      Memory.wf s.mem ∧ s.disp.waiting = none ∧ s.disp.intake = [3] ∧ byteAt s.mem (cellBase 3) = 1
    (ready (cellState 13 []) ∧ parseOrder (cellState 13 []).mem 3 = .taken (.kill (tagOf 13))) ∧
    (ready (cellState 7 []) ∧ parseOrder (cellState 7 []).mem 3 = .taken (.plan (.audit (tagOf 7)))) ∧
    (ready (cellState 6 [7]) ∧ parseOrder (cellState 6 [7]).mem 3 = .taken (.clearReserve (tagOf 6) (some 7))) ∧
    (ready (cellState 6 [0xFF]) ∧ parseOrder (cellState 6 [0xFF]).mem 3 = .taken (.clearReserve (tagOf 6) none)) := by
  decide +kernel

def planReq0 : PlanningReq := { retune := false, link := 0, cell := 3, seq := 1, search := [.outbound], given := [] }

/-- Seven places of the plan queue are taken, and five of the controller's CLEAR_RESERVE places. -/
def oneFree : State :=
  { run0 with eng.queue := List.replicate 7 .internalAudit, ctl.queue := List.replicate 5 (.clearReserve (tagOf 6) none) }

theorem witness_PlanQueuePlaces_grants :
    let free (s : State) : Prop := s.eng.queue.length < 8
    let b := { oneFree with eng.standby := [planReq0] }
    let c := { oneFree with disp.waiting := some (.plan (.audit (tagOf 7))), disp.intake := [3] }
    let g := { oneFree with disp.waiting := some (.clearReserve (tagOf 6) none), disp.intake := [3] }
    (free { oneFree with eng.auditPending := true }) ∧
    (free b ∧ b.eng.auditPending = false ∧ b.eng.standby = [planReq0]) ∧
    (free c ∧ c.eng.auditPending = false ∧ c.eng.standby = [] ∧ c.disp.waiting = some (.plan (.audit (tagOf 7))) ∧
      c.disp.intake = [3]) ∧
    (g.disp.waiting = some (.clearReserve (tagOf 6) none) ∧ g.disp.intake = [3] ∧ clearReserveOrders g.ctl.queue < 6) := by
  decide +kernel

/-! ### Witnesses: the carrier table controller -/

def asks (r : CtlReq) : State := { twoInsertions with ctl.queue := [r] }

theorem witness_ClearReserveRemovesByClass :
    let s := asks (.clearReserve (tagOf 6) (some 0))
    Memory.wf s.mem ∧ s.ctl.queue = [.clearReserve (tagOf 6) (some 0)] ∧ s.ctl.reserve.length ≤ 32 ∧
      (∀ b ∈ [[0], [7], [8], [0xFE], [0xFF]], byteAt (cellState 6 b).mem (cellBase 3 + 1) = 6) := by decide +kernel

/-- INSERT of one role: two entries there, no free slot, a code that fails its check, and one that passes. -/
theorem witness_InsertOfOneRole :
    let r : CtlReq := .insert false 9 1 [(linkNine, 19451)]
    let s := asks r
    let bad := asks (.insert false 9 1 [(linkNine, 19421)])
    let full := { s with ctl.table := fullTable }
    let two := { s with ctl.table := [some (entryOf 9 .inbound 100 .live), some (entryOf 9 .inbound 200 .live), none] }
    let v (s : State) (code : Nat) := verdictOf s.ctl.rules (tableCarriers s.ctl.table) code 0 0 (some (9, .inbound)) (some linkNine.window)
    s.ctl.queue = [r] ∧ 2 ≤ roleEntries two.ctl.table 9 .inbound ∧
    (roleEntries full.ctl.table 9 .inbound < 2 ∧ ∀ x ∈ full.ctl.table, x ≠ none) ∧
    (roleEntries s.ctl.table 9 .inbound < 2 ∧ lowestFree s.ctl.table = some 3 ∧ (v s 19451).eligibility = .acceptable) ∧
    (bad.ctl.queue = [.insert false 9 1 [(linkNine, 19421)]] ∧ (v bad 19421).eligibility ≠ .acceptable) := by decide +kernel

theorem witness_TakeAndAppend_take :
    let s := asks (.take 5 1 [linkFive])
    let e := spareOf 19451
    s.ctl.queue = [.take 5 1 [linkFive]] ∧ roleEntries s.ctl.table 5 .outbound < 2 ∧ lowestFree s.ctl.table = some 3 ∧
    (∀ x ∈ [spareOf 19279, spareOf 19481], ¬(x.cls = linkFive.cls ∧ x.zone = linkFive.zone ∧ linkFive.lo ≤ x.code ∧
      x.code ≤ linkFive.hi ∧ onGrid x.code linkFive.step linkFive.off = true)) ∧
    (s.ctl.reserve = [e, spareOf 19470] ∧ e.cls = linkFive.cls ∧ e.zone = linkFive.zone ∧ linkFive.lo ≤ e.code ∧
      e.code ≤ linkFive.hi ∧ onGrid e.code linkFive.step linkFive.off = true ∧
      (verdictOf s.ctl.rules (tableCarriers s.ctl.table ++ reserveCarriers [spareOf 19470]) e.code linkFive.cls linkFive.zone
        (some (5, .outbound)) (some linkFive.window)).eligibility = .acceptable) := by decide +kernel

theorem witness_LearnOfOneRole :
    let r : CtlReq := .learn 9 1 0 [(.inbound, 19451, 0)]
    (asks r).ctl.queue = [r] ∧ roleEntries tableABO 9 .inbound = 0 ∧ lowestFree tableABO = some 3 ∧
    0 < roleEntries tableABO 4 .inbound ∧ roleEntries fullTable 9 .inbound = 0 ∧ ∀ x ∈ fullTable, x ≠ none := by decide +kernel

theorem witness_UpdateOfOneEntry :
    let c (code : Nat) (x : EntryChange) : CarrierChange := { role := .inbound, code := code, change := x }
    let s := asks (.update 4 1 false [c 19420 (.become .silent)])
    let e := entryOf 4 .inbound 19420 .live
    s.ctl.queue = [.update 4 1 false [c 19420 (.become .silent)]] ∧
    findEntry s.ctl.table 4 .inbound 19421 = none ∧
    (findEntry s.ctl.table 4 .inbound 19420 = some 1 ∧ slotOf s.ctl.table 1 = some e ∧
      (c 19420 (.become .silent)).change = .become .silent ∧
      (e.state, CarrierState.silent) ∈ [(CarrierState.reserved, CarrierState.live), (.reserved, .silent), (.live, .silent),
        (.learned, .silent), (.silent, .live)]) ∧
    ((c 19420 (.become .live)).change = .become .live ∧ e.state = .live) ∧ (c 19420 .remove).change = .remove := by
  decide +kernel

theorem witness_PurgeLeavesNoEntry : (asks (.purge 4)).ctl.queue = [.purge 4] ∧ twoInsertions.ctl.carrierGen < 65536 := by decide

/-- APPEND of a code in use, of a code that fails its check, and of one that passes. -/
theorem witness_TakeAndAppend_append :
    let s (code : Nat) : State := asks (.append code 0 0)
    let all := tableCarriers tableABO ++ reserveCarriers (s 0).ctl.reserve
    let used (c : Controller) (code : Nat) : Prop := (∃ e, some e ∈ c.table ∧ e.code = code) ∨ ∃ e ∈ c.reserve, e.code = code
    let full := { s 25000 with ctl.reserve := (List.range 32).map fun k => spareOf (30000 + 20 * k) }
    (∀ code, (s code).ctl.queue = [.append code 0 0] ∧ (s code).ctl.reserve.length < 32) ∧ 32 ≤ full.ctl.reserve.length ∧
    used (s 19451).ctl 19451 ∧
    (∀ code ∈ [19480, 25000], ¬used (s code).ctl code) ∧
    (verdictOf rulesOpen all 19480 0 0 none none).eligibility ≠ .acceptable ∧
    (verdictOf rulesOpen all 25000 0 0 none none).eligibility = .acceptable := by
  refine ⟨fun _ => ⟨rfl, (by decide : 2 < 32)⟩, by decide, Or.inr ⟨spareOf 19451, by decide, rfl⟩, fun code hc => ?_, by decide +kernel,
    by decide +kernel⟩
  have h : ∀ code ∈ [19480, 25000], (tableABO.all fun x => x.all fun e => e.code ≠ code) = true ∧
      ∀ e ∈ [spareOf 19451, spareOf 19470], e.code ≠ code := by decide +kernel
  rintro (⟨e, he, heq⟩ | ⟨e, he, heq⟩)
  · have := List.all_eq_true.mp (h code hc).1 _ he
    simp [heq] at this
  · exact (h code hc).2 e he heq

theorem witness_AdoptTakesTheRules : (asks (.adopt rules0)).ctl.queue = [.adopt rules0] := rfl

theorem witness_MarkAppliesFindings :
    let f : List Finding := [{ slot := 0, link := 3, role := .inbound, code := 19400, suspect := true },
      { slot := 1, link := 4, role := .inbound, code := 19420, suspect := false }]
    (asks (.mark 0 f [19451])).ctl.queue = [.mark 0 f [19451]] ∧ (f.map (·.slot)).Nodup := by decide

/-! ### Witnesses: the plan engine -/

def serving (sv : Service) : State := { twoInsertions with eng.service := some sv }

/-- Case 1 of section 1.16, ready to be searched. -/
def querying : Service := { Service.idle (.query (tagOf 4) caseOne) with search := orderSearch twoInsertions.ctl caseOne false }

def filling : Service := { Service.idle (.fill (tagOf 5) caseOne) with search := orderSearch twoInsertions.ctl caseOne true }

/-- A FILL_RESERVE that finds the list full ends at once (R50). -/
theorem witness_ServiceStartTakesTheHead_full :
    let s := { twoInsertions with eng.queue := [.fill (tagOf 5) caseOne], ctl.reserve := (List.range 32).map spareOf }
    Memory.wf s.mem ∧ s.eng.service = none ∧ s.eng.queue = [.fill (tagOf 5) caseOne] ∧ 32 ≤ s.ctl.reserve.length ∧
    (match exec .planServiceStart s with
      | .next t => decide (t.eng.queue = [] ∧ t.eng.service = none ∧ t.mail.reports = s.mail.reports ++ [(.engine, orderReport (tagOf 5) .tableFull 4 s)])
      | _ => false) = true := by decide +kernel

theorem witness_ServiceStartTakesTheHead :
    let s (r : PlanReq) : State := { twoInsertions with eng.queue := [r, .internalAudit] }
    let head (r : PlanReq) : Prop :=
      Memory.wf (s r).mem ∧ (s r).eng.service = none ∧ (s r).eng.queue = r :: [.internalAudit] ∧ (s r).ctl.reserve.length < 32
    head (.query (tagOf 4) caseOne) ∧ head (.fill (tagOf 5) caseOne) ∧ head (.audit (tagOf 7)) ∧ head .internalAudit ∧
      head (.planning planReq0) := by decide +kernel

/-- The search of case 1 keeps two candidates that it did not hold before. -/
theorem witness_SearchKeepsAcceptableCandidates :
    let c := caseCtl rules0
    let r := orderSearch c caseOne false
    r.best.length ≤ r.keep ∧ ∃ x ∈ (r.run c 81).best, x ∉ r.best := by decide +kernel

theorem witness_QuerySearchEndReports :
    let s := serving querying
    Memory.wf s.mem ∧ s.eng.service = some querying ∧ querying.req = .query (tagOf 4) caseOne ∧ querying.search.keep ≤ 8 ∧
      querying.search.best.length ≤ querying.search.keep := by decide +kernel

/-- Class 0 alone in zone 0 at 19,400 leaves room at 19,460; the tables of TABLE 2-5 leave none in the window of case 1. -/
theorem witness_FillReserveSteps :
    let open1 : State := { serving filling with ctl.table := tableABO.take 1, ctl.reserve := [] }
    let shut : State := { serving filling with ctl.rules := { rules0 with exclusions := [{ low := 0, high := 131071, zones := 1 }] } }
    let w (a : EngineAnswer) (sv : Service) : State := { serving sv with mail.engineAnswers := [a] }
    let last : Service := { filling with awaiting := true, fill.added := 2, search.best := [(25000, 7)] }
    let again : Service := { filling with awaiting := true, restarts := 3 }
    Memory.wf open1.mem ∧ filling.req = .fill (tagOf 5) caseOne ∧ filling.awaiting = false ∧
    (filling.search.toEnd open1.ctl).best.isEmpty = false ∧ (filling.search.toEnd shut.ctl).best = [] ∧
    ((w (.appended .ok none) last).mail.engineAnswers = [.appended .ok none] ∧ last.awaiting = true ∧ last.search.best = [(25000, 7)] ∧
      last.fill.added + 1 = caseOne.count ∧ last.req = .fill (tagOf 5) caseOne) ∧
    (w (.appended .tableFull none) last).mail.engineAnswers = [.appended .tableFull none] ∧
    ((w (.appended .contended none) again).mail.engineAnswers = [.appended .contended none] ∧ 3 ≤ again.restarts ∧
      again.req = .fill (tagOf 5) caseOne) ∧
    ((w (.appended .contended none) last).ctl.reserve.length < 32 ∧ last.restarts < 3) := by decide +kernel

theorem witness_AuditSteps :
    let a := Service.idle (.audit (tagOf 7))
    let b := Service.idle .internalAudit
    let m : MarkAnswer := { conflict := 0, excluded := 1, imSuspect := 0, removed := 0, applied := true }
    let s (sv : Service) : State := { serving { sv with awaiting := true } with mail.engineAnswers := [.marked m] }
    (Memory.wf (serving a).mem ∧ (serving a).eng.service = some a ∧ a.req = .audit (tagOf 7) ∧ a.awaiting = false) ∧
    (b.req = .internalAudit ∧ b.awaiting = false) ∧
    ((s a).mail.engineAnswers = [.marked m] ∧ (s a).eng.service = some { a with awaiting := true }) ∧
    ((s b).mail.engineAnswers = [.marked m] ∧ (s b).eng.service = some { b with awaiting := true }) := by decide +kernel

/-- The request planReq0 of link 0 in its first attempt, on rules whose exclusion range leaves no code, and on open rules. -/
theorem witness_PlanningAttempts :
    let on (rules : PlanRules) : State := { linkState (recOf .planning) { LinkAux.reset with seq := 1 } with ctl.rules := rules }
    let shut := on { rules0 with exclusions := [{ low := 0, high := 131071, zones := 1 }] }
    let small := { on rulesOpen with sup.defs := [some { camDef with outRole := some { outRole with lo := 19280, hi := 19284 } }] }
    let sv (s : State) : Service := beginAttempt planReq0 (Service.idle (.planning planReq0)) s
    let a (r : ResultCode) : InsertAnswer := { link := 0, seq := 1, result := r, roles := [] }
    let answered (x : Service) (r : ResultCode) : Prop :=
      x.awaiting = true ∧ x.req = .planning planReq0 ∧
        ({ shut with mail.engineAnswers := [.inserted (a r)] } : State).mail.engineAnswers = [.inserted (a r)] ∧ (a r).result = r
    let w (n : Nat) (m : Bool) : Service := { sv shut with awaiting := true, restarts := n, cancelMark := m }
    (sv shut).req = .planning planReq0 ∧ (sv shut).awaiting = false ∧ ({ sv shut with cancelMark := true } : Service).cancelMark = true ∧
    ((sv shut).cancelMark = false ∧ (finishAttempt planReq0 shut 2 (sv shut)).role = some .outbound) ∧
    ((sv small).cancelMark = false ∧ (finishAttempt planReq0 small 2 (sv small)).role = none ∧ insertBarred 0 1 small = false) ∧
    (answered (w 0 false) .ok ∧ answered (w 0 true) .ok) ∧ (answered (w 0 true) .contended ∧ ResultCode.contended ≠ .ok) ∧
    (answered (w 3 false) .contended ∧ 3 ≤ (w 3 false).restarts ∧ (w 3 false).cancelMark = false) ∧
    (answered (w 0 false) .tableFull ∧ ResultCode.tableFull ≠ .ok ∧ ResultCode.tableFull ≠ .contended) ∧
    (answered (w 2 false) .contended ∧ (w 2 false).restarts < 3) := by decide +kernel

theorem witness_PlanQueuePlaces_cancel :
    let other : PlanningReq := { planReq0 with link := 7 }
    let asked (s : State) : State := { s with mail.cancels := [(0, 1)] }
    let a := asked { run0 with eng.standby := [other, planReq0] }
    let b := asked { run0 with eng.standby := [other], eng.queue := [.planning other, .planning planReq0, .internalAudit] }
    let c := asked { run0 with eng.service := some (Service.idle (.planning planReq0)) }
    let mine (r : PlanningReq) : Prop := r.link = 0 ∧ r.seq = 1
    a.mail.cancels = [(0, 1)] ∧ mine planReq0 ∧ ¬mine other ∧
    a.eng.standby = [other] ++ planReq0 :: [] ∧
    (b.eng.standby = [other] ∧ b.eng.queue = [.planning other] ++ .planning planReq0 :: [.internalAudit]) ∧
    (c.eng.standby = [] ∧ c.eng.queue = [] ∧ c.eng.service = some (Service.idle (.planning planReq0)) ∧
      (Service.idle (.planning planReq0)).req = .planning planReq0) ∧
    ((asked run0).eng.standby = [] ∧ (asked run0).eng.queue = [] ∧ (asked run0).eng.service = none) := by decide +kernel

/-- A link with no request outstanding, with one, and with the UPDATE of a kill waiting for the answer of sequence 1. -/
theorem witness_PlanQueuePlaces_send :
    let s (a : LinkAux) : LinkAux := ((linkState (recOf .tuning) a).link 0).aux
    let w := { LinkAux.reset with killWait := [1] }
    ((s LinkAux.reset).killWait = [] ∧ (s LinkAux.reset).outstanding = false) ∧
    ((s { LinkAux.reset with outstanding := true }).killWait = [] ∧ (s { LinkAux.reset with outstanding := true }).outstanding = true) ∧
    ((s w).killWait = [1] ∧ (CtlReq.purge 0).engineInsert 1 = false ∧
      (CtlReq.insert true 0 2 []).engineInsert 1 = false) := by decide +kernel

/-! ### Witnesses: the link supervisor -/

def orderOf (k : LinkOrderKind) : LinkOrder :=
  { tag := tagOf 1, kind := k, link := 0, roleOut := true, roleIn := false, codeOut := none, codeIn := none, force := false }

def coded (k : LinkOrderKind) : LinkOrder := { orderOf k with codeOut := some 19400 }

/-- Link 0 is defined as camDef. -/
abbrev LinkZero (s : State) : Prop := Memory.wf s.mem ∧ 0 < s.sup.links.length ∧ s.linkDef 0 = some camDef

abbrev Ordered (s : State) (o : LinkOrder) : Prop := LinkZero s ∧ s.mail.linkOrders = [o] ∧ o.link < 96

def ordering (o : LinkOrder) (v : LinkRec) (a : LinkAux) : State := { linkState v a with mail.linkOrders := [o] }

def busyAux : LinkAux := { LinkAux.reset with order := some (orderOf .retune) }

/-- ENABLE of link 0 in the state given (and of RETUNE and PARK below): refused in VACANT, LEARNING, ACTIVE and where it is
busy, and begun from PARKED and FAULTED, with and without a code. -/
theorem witness_EnableLinkSteps :
    let o := orderOf .enable
    let s (st : LinkState) : State := ordering o (recOf st) LinkAux.reset
    let allowed (s : State) (o : LinkOrder) : Prop :=
      Ordered s o ∧ o.kind = .enable ∧ s.kc.asserted = false ∧ givesUndeclared o camDef = false ∧
        s.adopt.barred.contains 0 = false ∧ (s.link 0).aux.outstanding = false ∧ (s.link 0).aux.killWait = []
    let killed := { s .parked with kc.asserted := true }
    (Ordered killed o ∧ killed.kc.asserted = true) ∧
    (allowed (ordering o (recOf .retuning) busyAux) o ∧ ((ordering o (recOf .retuning) busyAux).link 0).aux.order.isSome = true) ∧
    (∀ st ∈ [LinkState.planning, .tuning, .retuning, .holding, .killed, .vacant, .learning, .active, .parked, .faulted],
      allowed (s st) o ∧ ((s st).link 0).vis.state = st ∧ ((s st).link 0).aux.order = none) ∧
    o.toSearch camDef.declared ≠ [] ∧
    (allowed (ordering (coded .enable) (recOf .parked) LinkAux.reset) (coded .enable) ∧
      (coded .enable).toSearch camDef.declared = []) := by
  refine ⟨?_, ?_, ?_, ?_, ?_⟩ <;> decide +kernel

def onAir (s : State) : State := { s with tally.cams := s.tally.cams.set 2 { CamRec.reset with applied := ⟨true, false, false⟩ } }

theorem witness_RetuneLinkSteps :
    let o := orderOf .retune
    let s (o : LinkOrder) (st : LinkState) : State := ordering o (recOf st) LinkAux.reset
    let allowed (s : State) (o : LinkOrder) : Prop :=
      Ordered s o ∧ o.kind = .retune ∧ s.kc.asserted = false ∧ badRoleSet o camDef = false ∧ givesUndeclared o camDef = false ∧
        (s.link 0).aux.order = none ∧ (s.link 0).aux.outstanding = false ∧ (s.link 0).aux.killWait = []
    let killed := { s o .active with kc.asserted := true }
    let deaf := { s o .active with sup.defs := [some { camDef with kind := .mic, outRole := none, inRole := some outRole }] }
    (Ordered killed o ∧ killed.kc.asserted = true) ∧
    (deaf.mail.linkOrders = [o] ∧ deaf.kc.asserted = false ∧
      deaf.linkDef 0 = some { camDef with kind := .mic, outRole := none, inRole := some outRole }) ∧
    camDef.outRole.isSome = true ∧
    (∀ st ∈ [LinkState.vacant, .parked, .learning, .active], allowed (s o st) o ∧ ((s o st).link 0).vis.state = st) ∧
    (allowed (onAir (s o .active)) o ∧ o.force = false ∧ (onAir (s o .active)).onProgramme camDef.camera = true) ∧
    (allowed (s (coded .retune) .active) (coded .retune) ∧ (s (coded .retune) .active).onProgramme camDef.camera = false ∧
      (coded .retune).toSearch (bothRoles.filter (coded .retune).names) = []) := by
  refine ⟨?_, ?_, ?_, ?_, ?_, ?_⟩ <;> decide +kernel

theorem witness_ParkLinkSteps :
    let o := orderOf .park
    let s (st : LinkState) (a : LinkAux) : State := ordering o (recOf st) a
    (Ordered (s .vacant LinkAux.reset) o ∧ o.kind = .park ∧ ((s .vacant LinkAux.reset).link 0).vis.state = .vacant) ∧
    (Ordered (s .parked LinkAux.reset) o ∧ ((s .parked LinkAux.reset).link 0).vis.state = .parked ∧
      ((s .parked LinkAux.reset).link 0).aux.order = none) ∧
    (Ordered (s .retuning busyAux) o ∧ ((s .retuning busyAux).link 0).vis.state ≠ .vacant ∧
      ((s .retuning busyAux).link 0).vis.state ≠ .parked) := by decide +kernel

def seqRec (st : LinkState) (k : SeqKind) (p : Phase) : LinkRec :=
  { recOf st with seqKind := k, phase := p, seqOut := true, outRec := { RoleRec.reset with fresh := some 19400 } }

def orderAux (k : LinkOrderKind) : LinkAux := { LinkAux.reset with seq := 1, began := .parked, order := some (orderOf k) }

theorem witness_LinkAnswers :
    let a (r : ResultCode) : InsertAnswer := { link := 0, seq := 1, result := r, roles := [] }
    let learned : InsertAnswer :=
      { link := 0, seq := 1, result := .ok
        roles := [{ role := .outbound, result := .ok, code := 19400, slot := some 0, verdict := none }] }
    let p : PlanAnswer :=
      { link := 0, seq := 1, result := .ok, afterCancel := false, roles := [], attempts := 1, nothingFor := none, genChanged := false }
    let u : UpdateAnswer := { link := 0, seq := 1, outcomes := [.ok] }
    let s1 := { linkState (seqRec .planning .enable .inserting) { orderAux .enable with planOut := true } with mail.planAnswers := [p] }
    let s2 (r : ResultCode) : State := { linkState (seqRec .tuning .enable .inserting) (orderAux .enable) with mail.insertAnswers := [a r] }
    let s3 (r : ResultCode) : State :=
      { linkState (seqRec .retuning .failover .inserting) { LinkAux.reset with seq := 1, began := .active } with mail.takeAnswers := [a r] }
    let s4 := { linkState (recOf .learning) { LinkAux.reset with seq := 1 } with mail.learnAnswers := [learned] }
    let s5 := { linkState (seqRec .tuning .enable .unmuting) (orderAux .enable) with mail.liveAnswers := [u] }
    let s6 := { linkState (recOf .active) { LinkAux.reset with outstanding := true, held := [.purge 0] } with mail.updateAnswers := [u] }
    let s7 := { linkState (recOf .parked) { orderAux .park with purges := 1, parkMute := .failed } with mail.purgeAnswers := [(0, 2)] }
    (LinkZero s1 ∧ s1.mail.planAnswers = [p] ∧ p.seq = (s1.link 0).aux.seq ∧ (s1.link 0).aux.planOut = true ∧
      (s1.link 0).vis.seqKind = .enable ∧ (s1.link 0).vis.state = .planning) ∧
    (∀ r ∈ [ResultCode.ok, .contended], LinkZero (s2 r) ∧ (s2 r).mail.insertAnswers = [a r] ∧ (a r).seq = ((s2 r).link 0).aux.seq ∧
      ((s2 r).link 0).vis.phase = .inserting ∧ ((s2 r).link 0).vis.seqKind = .enable ∧ ((s2 r).link 0).vis.state = .tuning ∧
      ((s2 r).link 0).aux.began = .parked ∧ ((s2 r).link 0).aux.order = some (orderOf .enable)) ∧
    (∀ r ∈ [ResultCode.ok, .noReserve], LinkZero (s3 r) ∧ (s3 r).mail.takeAnswers = [a r] ∧ (a r).seq = ((s3 r).link 0).aux.seq ∧
      ((s3 r).link 0).vis.phase = .inserting ∧ ((s3 r).link 0).vis.seqKind = .failover ∧ ((s3 r).link 0).vis.state = .retuning ∧
      ((s3 r).link 0).aux.began = .active ∧ ((s3 r).link 0).aux.order = none ∧ (s3 r).onProgramme camDef.camera = false) ∧
    (LinkZero s4 ∧ s4.mail.learnAnswers = [learned] ∧ learned.seq = (s4.link 0).aux.seq ∧ (s4.link 0).vis.state = .learning ∧
      s4.kc.asserted = false ∧ camDef.auto = false ∧ camDef.outRole.isSome = true) ∧
    (LinkZero s5 ∧ s5.mail.liveAnswers = [u] ∧ u.seq = (s5.link 0).aux.seq ∧ (s5.link 0).vis.phase = .unmuting ∧
      (s5.link 0).aux.order = some (orderOf .enable) ∧ (orderOf .enable).kind ≠ .park ∧ (s5.link 0).vis.seqOut = true ∧
      (s5.link 0).vis.outRec.fresh.isSome = true) ∧
    (LinkZero s6 ∧ s6.mail.updateAnswers = [u] ∧ u.link = 0 ∧ (s6.link 0).aux.held = [.purge 0]) ∧
    (LinkZero s7 ∧ s7.mail.purgeAnswers = [(0, 2)] ∧ (s7.link 0).aux.order = some (orderOf .park) ∧ (s7.link 0).aux.purges = 1 ∧
      (s7.link 0).aux.parkMute ≠ .waiting ∧ (s7.link 0).vis.state = .parked) := by
  refine ⟨?_, ?_, ?_, ?_, ?_, ?_, ?_⟩ <;> decide +kernel

theorem witness_ControlOutcomes :
    let x (k : ControlKind) (r : ControlResult) : ControlOutcome := { link := 0, seq := 1, kind := k, result := r }
    let s (v : LinkRec) (a : LinkAux) (k : ControlKind) (r : ControlResult) : State := { linkState v a with mail.controlOutcomes := [x k r] }
    let ended (s : State) (k : ControlKind) (r : ControlResult) : Prop :=
      LinkZero s ∧ s.mail.controlOutcomes = [x k r] ∧ (x k r).seq = (s.link 0).aux.seq
    let e := orderAux .enable
    let sent := seqRec .tuning .enable .tuneSent
    let moved := seqRec .retuning .retune .tuneSent
    let un := seqRec .tuning .enable .unmuting
    let p : LinkAux := { orderAux .park with parkMute := .waiting, parkSeq := 1 }
    (ended (s sent e .tune .acked) .tune .acked ∧ sent.phase = .tuneSent ∧ 0 < largestOf (s sent e .tune .acked) 0 ClassDef.guardMs) ∧
    (ended (s sent e .tune .failed) .tune .failed ∧ sent.seqKind = .enable ∧ e.began = .parked ∧ e.order = some (orderOf .enable) ∧
      e.outstanding = false ∧ e.killWait = [] ∧ sent.newCodes ≠ []) ∧
    (ended (s moved e .tune (.withheld .programmePart)) .tune (.withheld .programmePart) ∧ moved.phase = .tuneSent ∧
      moved.seqKind = .retune) ∧
    ended (s sent e .tune (.withheld .killPart)) .tune (.withheld .killPart) ∧
    (ended (s un e .unmute .acked) .unmute .acked ∧ un.phase = .unmuting) ∧
    (ended (s un e .unmute .failed) .unmute .failed ∧ (orderOf .enable).kind ≠ .park) ∧
    ended (s un e .unmute (.withheld .killPart)) .unmute (.withheld .killPart) ∧
    (∀ st ∈ [LinkState.parked, .learning], (s (recOf st) p .mute .acked).mail.controlOutcomes = [x .mute .acked] ∧
      (x .mute .acked).seq = ((s (recOf st) p .mute .acked).link 0).aux.parkSeq ∧ p.parkMute = .waiting ∧ p.purges = 0 ∧
      p.order = some (orderOf .park) ∧ (orderOf .park).kind = .park ∧ (recOf st).state ≠ .active) ∧
    (ended (s (seqRec .tuning .enable .settling) e .settlePoll .acked) .settlePoll .acked) ∧
    (ended (s (seqRec .tuning .enable .settling) e .tune .acked) .tune .acked) := by
  refine ⟨?_, ?_, ?_, ?_, ?_, ?_, ?_, ?_, ?_, ?_⟩ <;> decide +kernel

theorem witness_LinkTimers :
    let a := orderAux .enable
    let z (s : State) : Prop := LinkZero s ∧ s.part = .running ∧ 0 < s.sup.links.length
    let late (s : State) : State := { s with tb.elapsed := 20 * 768000 }
    let settling (n : Nat) : LinkRec := { seqRec .tuning .enable .settling with repeats := n }
    let poll := linkState (settling 0) { a with pollAt := some 0 }
    let guard := linkState (seqRec .tuning .enable .guarding) { a with guardAt := some 0 }
    let limit (n : Nat) : State := linkState (settling n) { a with settleAt := some 0 }
    let held := late (linkState { recOf .holding with hold := some .order } { a with holdTimer := true, holdAt := some 0 })
    let bad : LinkRec := { recOf .active with outRec := { RoleRec.reset with health := some .degraded } }
    let fails := { late (linkState bad { LinkAux.reset with outDegradedAt := some (17 * 768000) }) with
      sup.defs := [some { camDef with auto := true }] }
    let retry := linkState { recOf .active with block := .noReserve } { LinkAux.reset with retryAt := some 0 }
    let stale := late (linkState (recOf .active) { LinkAux.reset with staleFrom := some (17 * 768000) })
    (z poll ∧ (poll.link 0).aux.pollAt = some 0 ∧ 0 ≤ poll.tb.elapsed ∧ controlWaiting poll 0 = false) ∧
    (z guard ∧ (guard.link 0).aux.guardAt = some 0 ∧ (guard.link 0).vis.phase = .guarding) ∧
    (z (limit 0) ∧ ((limit 0).link 0).aux.settleAt = some 0 ∧ ((limit 0).link 0).vis.repeats = 0 ∧
      ((limit 0).link 0).vis.phase = .settling) ∧
    (z (limit 1) ∧ ((limit 1).link 0).vis.repeats ≠ 0) ∧
    (z held ∧ (held.link 0).vis.hold = some .order ∧ (held.link 0).aux.order = some (orderOf .enable) ∧
      (held.link 0).aux.holdTimer = true ∧ (held.link 0).aux.holdAt = some 0 ∧ 0 + camDef.holdS * 768000 ≤ held.tb.elapsed) ∧
    (fails.linkDef 0 = some { camDef with auto := true } ∧ (fails.link 0).degradedAt .outbound = some (17 * 768000) ∧
      17 * 768000 + camDef.delayS * 768000 ≤ fails.tb.elapsed ∧ (fails.link 0).vis.state = .active ∧
      (fails.link 0).aux.order = none ∧ fails.kc.asserted = false ∧ (fails.link 0).aux.retryAt = none ∧
      failoverWanted fails 0 = true ∧ fails.onProgramme camDef.camera = false ∧ (fails.link 0).aux.outstanding = false ∧
      (fails.link 0).aux.killWait = []) ∧
    (z retry ∧ (retry.link 0).aux.retryAt = some 0 ∧ retry.kc.asserted = false ∧ failoverWanted retry 0 = false ∧
      (retry.link 0).vis.state = .active ∧ (retry.link 0).aux.order = none) ∧
    (z stale ∧ (stale.link 0).aux.staleFrom = some (17 * 768000) ∧
      17 * 768000 + stale.sup.settings.staleFactor * stale.sup.settings.periodMs * 768 ≤ stale.tb.elapsed ∧
      (stale.link 0).aux.staleExpired = false ∧ (stale.link 0).vis.state = .active ∧ camDef.auto = false ∧
      (stale.link 0).vis.misses < stale.sup.settings.missLimit) := by
  refine ⟨?_, ?_, ?_, ?_, ?_, ?_, ?_, ?_⟩ <;> decide +kernel

/-- No link but link 0 is defined where the definitions are these alone. -/
theorem linkState_alone (v : LinkRec) (a : LinkAux) (j : Nat) (h : j ≠ 0) : (linkState v a).linkDef j = none := by
  cases j with
  | zero => exact absurd rfl h
  | succ n => rfl

def roleSeen (code : Nat) (on settled : Bool) : RoleReport := { level := -60, quality := 90, on := on, settled := settled, code := code }

def channelSeen (on : Bool) : ChanReport :=
  { echo := Colours.off, key0 := false, key1 := false, cause := 0, outRep := roleSeen 19400 on true, inRep := roleSeen 0 false false }

def reportSeen (on : Bool) : Report := { unit := 20, channels := [channelSeen on, channelSeen on] }

theorem witness_ReportsMissesAndTally :
    let s (v : LinkRec) (on : Bool) : State := { linkState v LinkAux.reset with mail.supervisorReports := [reportSeen on] }
    let settling := seqRec .tuning .enable .settling
    let miss := { linkState (recOf .active) LinkAux.reset with mail.missedUnits := [20] }
    let held (s : State) : State := { s with mail.tallyChanges := [3] }
    let v := { recOf .holding with hold := some HoldReason.order }
    let h := held (linkState v (orderAux .retune))
    (∀ j e, j ≠ 0 → (s (recOf .parked) true).linkDef j = some e → e.unit ≠ camDef.unit) ∧
    (∀ x ∈ [recOf .parked, recOf .active, settling, recOf .learning, { recOf .learning with learning := 1 }],
      LinkZero (s x false) ∧ (s x false).mail.supervisorReports = [reportSeen false] ∧ (reportSeen false).unit = camDef.unit) ∧
    (∀ x, settling.inSequence x = true → (((reportSeen true).channel camDef.chan).role x).settled = true ∧
      (settling.role x).fresh = some (((reportSeen true).channel camDef.chan).role x).code) ∧
    (∀ x ∈ camDef.declared, (((reportSeen false).channel camDef.chan).role x).on = false) ∧
    (LinkZero miss ∧ miss.mail.missedUnits = [20] ∧ camDef.unit = 20 ∧ (miss.link 0).vis.state = .active ∧
      (miss.link 0).aux.staleExpired = false) ∧
    (LinkZero h ∧ h.mail.tallyChanges = [3] ∧ camDef.camera = 3 ∧ (h.link 0).vis.state = .holding ∧
      (h.link 0).vis.hold = some .order ∧ (h.link 0).aux.order = some (orderOf .retune) ∧ h.onProgramme 3 = false) ∧
    (LinkZero (onAir h) ∧ (onAir h).onProgramme 3 = true) :=
  ⟨fun j e hj he => absurd he (by cases j with
      | zero => exact absurd rfl hj
      | succ n => exact fun x => by cases x), by decide +kernel, by intro x; cases x <;> decide, by decide +kernel, by decide +kernel,
    by decide +kernel, by decide +kernel⟩

/-- TABLE 5-5 and R92 at the bounds of a grade. -/
theorem test_grades :
    let k := { micClass with floor := -85, ceiling := 40 }
    let seen (level : Int) (quality : Nat) : RoleReport := { level := level, quality := quality, on := true, settled := true, code := 7 }
    gradeOf k none (seen (-120) 0) = .lost ∧ gradeOf k none { seen (-60) 0 with on := false } = .lost ∧
    gradeOf k none (seen (-86) 40) = .bad ∧ gradeOf k none (seen (-85) 41) = .bad ∧ gradeOf k (some 8) (seen (-85) 40) = .bad ∧
    gradeOf k (some 7) (seen (-85) 40) = .good := by decide +kernel

theorem witness_KillTreatsEveryLink :
    let s (b : Bool) : State :=
      { run0 with
        sup.defs := [some camDef, some { camDef with outRole := none, inRole := some outRole }]
        sup.links := { vis := recOf (if b then .active else .killed), aux := LinkAux.reset } ::
          { vis := recOf .active, aux := LinkAux.reset } :: List.replicate 94 Link.reset
        mail.killToLinks := [b] }
    (∀ b ∈ [true, false], (s b).sup.links.length = 96 ∧ (s b).mail.killToLinks = [b] ∧ (s b).linkDef 0 = some camDef) ∧
    ((s true).linkRec 1).state = .active ∧ ((s true).linkDef 1).any (fun d => d.outRole.isNone) = true ∧
    ((s false).linkRec 0).state = .killed := by decide +kernel

/-! ### Witnesses: the adoptions and the unit link -/

/-- Bounds of R11: the greatest half widths and edge guards; and a list with no carrier of the zone. -/
theorem witness_SpacingCheck :
    let a : ClassDef := { micClass with hw := 400, eg := 400 }
    (a.hw ≤ 400 ∧ a.eg ≤ 400) ∧ (∀ x ∈ tableCarriers tableABO, x.zone ≠ 1) ∧ requiredSpacing micClass micClass = 12 := by
  decide +kernel

def stationBegun (m : List Host.Cell) : State := { run0 with adopt.station.stage := .begun, adopt.station.tables := m }

def cueBegun (m : List Host.Cell) : State := { run0 with adopt.cue.stage := .begun, adopt.cue.tables := m }

theorem witness_TableAdoptions :
    let failure (m : List Host.Cell) :=
      stationFailure (stationBegun m).adopt.station.tables (stationBegun m).sup.defs ((stationBegun m).sup.links.map fun l => l.vis.state)
    failure (Memory.writeBytes [] (defBase 5) [1, 9]) = some (.badDefinition, 5) ∧ failure [] = none ∧
    (stationBegun []).adopt.station.stage = .begun ∧
    cueFailure (Memory.writeBytes [] 0x43A0 [1, 0]) (cueBegun []).sup.defs = some 2 ∧
    cueFailure (cueBegun []).adopt.cue.tables (cueBegun []).sup.defs = none ∧ (cueBegun []).adopt.cue.stage = .begun := by decide +kernel

/-- A camera definition that passes every test. -/
def rawCam : RawDef :=
  { present := true, kind := 0, unit := 126, chan := 3, camera := 3, zone := 3, auto := false, attn := true, delayS := 3, holdS := 20
    outRole := { cls := some 0, step := 64, off := 63, lo := 19280, hi := 19280 }
    inRole := { cls := some 7, step := 1, off := 0, lo := 0, hi := 131071 } }

/-- TABLE 10-4, each test at the bound of its field. -/
theorem test_station_tests :
    let rules := { rules0 with classes := List.replicate 8 micClass }
    let out (r : RawRole) : RawDef := { rawCam with outRole := r }
    let other : LinkDef := { camDef with unit := 5, camera := 4 }
    let t (d : RawDef) (lower : List (Option LinkDef)) (w : Option LinkDef) (st : LinkState) := stationTest rules d lower w st
    t rawCam [none] none .vacant = none ∧
    t { rawCam with unit := 0 } [] none .vacant = some .badDefinition ∧ t { rawCam with unit := 127 } [] none .vacant = some .badDefinition ∧
    t { rawCam with chan := 4 } [] none .vacant = some .badDefinition ∧ t { rawCam with kind := 5 } [] none .vacant = some .badDefinition ∧
    t (out { rawCam.outRole with cls := none }) [] none .vacant = some .badClass ∧
    t (out { rawCam.outRole with cls := some 8 }) [] none .vacant = some .badClass ∧
    t (out { rawCam.outRole with hi := 19279 }) [] none .vacant = some .badWindow ∧
    t (out { rawCam.outRole with step := 65 }) [] none .vacant = some .badStep ∧
    t (out { rawCam.outRole with off := 64 }) [] none .vacant = some .badStep ∧
    t rawCam [some { other with unit := 126, chan := 3 }] none .vacant = some .duplicateUnit ∧
    t rawCam [some { other with camera := 3 }] none .vacant = some .duplicateCamera ∧
    t rawCam [some other] (some other) .active = some .linkInUse ∧ t rawCam [some other] (some other) .parked = none ∧
    t { rawCam with present := false } [] (some other) .killed = some .linkInUse ∧
    t { rawCam with present := false } [] none .killed = none := by decide +kernel

/-- Bounds of R12: the greatest half widths and guard; and a list whose two emitting carriers make products with a third code. -/
theorem witness_ProductCheck :
    let k : ClassDef := { micClass with hw := 400, g3 := 100, g5 := 100, gx := 100 }
    (k.hw ≤ 400 ∧ k.g3 ≤ 100 ∧ k.g5 ≤ 100 ∧ k.gx ≤ 100) ∧
    (rules0.cls 0).sensitive = true ∧ (rules0.cls 0).emits = true ∧ (tableCarriers tableABO).length = 3 ∧
    productMargin rules0 19440 0 0 none (tableCarriers tableABO) < 4095 := by decide +kernel

theorem witness_DefinitionsReachTheirOwners :
    let copy : StationCopy := { rules := rules0, defs := [some camDef], settings := Settings.reset, killWidth := 8 }
    let s := { run0 with adopt.station.stage := .answered, adopt.copy := some copy }
    let t := { run0 with mail.tallyDefs := [[some camDef]] }
    let pack : LinkDef := { camDef with kind := .beltpack }
    let r := { run0 with router.defs := [some pack, none], router.images := [some (true, false), none]
                         mail.routerDefs := [[some { pack with chan := 2 }, some pack]] }
    (s.adopt.station.stage = .answered ∧ s.adopt.copy = some copy ∧ s.adopt.station.pending = false) ∧
    (t.tally.cams.length = 32 ∧ t.mail.tallyDefs = [[some camDef]]) ∧
    r.mail.routerDefs = [[some { pack with chan := 2 }, some pack]] ∧ r.router.images.length = 2 ∧
    r.router.defs.getD 0 none = some pack ∧ r.router.defs.getD 1 none = none := by decide +kernel

/-- One waiting request of each class, the higher classes empty. -/
theorem witness_ArbiterTakesHighestClass :
    let cue : CueReq := { camera := 2, epoch := 0, unit := 20, chan := 1, colours := Colours.off, call := false, resend := false }
    let a := { run0 with ul.killQ := [.silence], ul.cueQ := [cue], ul.controlQ := [tuneReq] }
    let b := { run0 with ul.cueQ := [cue], ul.controlQ := [tuneReq] }
    let c (k : ControlKind) (killed : Bool) : State := { run0 with kc.asserted := killed, ul.controlQ := [{ tuneReq with kind := k }] }
    let d := { run0 with ul.attnQ := some 20, ul.sweepQ := [.poll 20] }
    let e := { run0 with ul.sweepQ := [.poll 20] }
    let h := { onAir (linkState (recOf .retuning) LinkAux.reset) with ul.controlQ := [{ tuneReq with forRetune := true }] }
    (a.part = .running ∧ a.ul.xact = none ∧ a.ul.killQ = [.silence]) ∧ (b.ul.killQ = [] ∧ b.ul.cueQ = [cue]) ∧
    (∀ k ∈ [ControlKind.mute, .settlePoll, .tune, .unmute], ∀ q, (c k q).ul.killQ = [] ∧ (c k q).ul.cueQ = [] ∧
      (c k q).ul.controlQ = { tuneReq with kind := k } :: [] ∧ (c k q).kc.asserted = q ∧ (c k q).linkOnProgramme 0 = false ∧
      (c k q).ul.attnQ = none ∧ (c k q).ul.sweepQ = []) ∧
    (h.ul.killQ = [] ∧ h.ul.cueQ = [] ∧ h.ul.controlQ = [{ tuneReq with forRetune := true }] ∧ h.kc.asserted = false ∧
      h.linkOnProgramme 0 = true ∧ h.linkDef 0 = some camDef ∧ camDef.camera = 2 + 1) ∧
    (d.ul.controlQ = [] ∧ d.ul.attnQ = some 20) ∧ (e.ul.attnQ = none ∧ e.ul.sweepQ = [.poll 20]) := by decide +kernel

/-- The frame of a good answer. -/
def answerOf (kind : Nat) (payload : List Byte) : List Byte := frameOf 20 kind payload

/-- A REPORT of one channel: no echo, no key, no cause, and two quiet roles. -/
def quietReport : List Byte := answerOf 0x81 (1 :: List.replicate 16 0)

theorem witness_TransactionMachine :
    let waits (r : UlReq) (second : Bool) : Transaction := { req := r, second := second, sending := false, deadline := 0 }
    let s (x : Transaction) : State := { run0 with ul.xact := some x, ul.sweepDue := 5 }
    let killed (x : Transaction) : State := { s x with kc.asserted := true }
    let ctl := UlReq.controlReq tuneReq
    let poll := UlReq.sweepReq (.poll 20)
    (s (onLine ctl)).ul.xact = some (onLine ctl) ∧ (onLine ctl).sending = true ∧ (onLine (.killReq .silence)).sending = true ∧
    run0.ul.xact = none ∧
    ((waits ctl false).sending = false ∧ tuneReq.kind ≠ .settlePoll ∧ goodReply ctl (answerOf 0x82 []) = some .ack) ∧
    ((goodReply poll quietReport).isSome = true ∧ (s (waits poll false)).reached (s (waits poll false)).ul.sweepDue = false) ∧
    ((waits poll false).second = false ∧ goodReply poll (answerOf 0x82 []) = none) ∧
    ((waits ctl false).second = false ∧ goodReply ctl [] = none ∧ (waits ctl false).deadline ≤ (s (waits ctl false)).tb.elapsed ∧
      tuneReq.forRetune = false ∧ (s (waits ctl false)).kc.asserted = false ∧ (killed (waits ctl false)).kc.asserted = true) ∧
    ((waits ctl true).second = true ∧ (waits ctl true).deadline ≤ (s (waits ctl true)).tb.elapsed) ∧
    ((waits poll true).second = true ∧ (waits poll true).req = .sweepReq (.poll 20)) := by decide +kernel

def oneTest (units : List Nat) : LineTest :=
  { tag := tagOf 15, address := 127, pattern := List.replicate 8 0, units := units, tested := 0, failures := [] }

theorem witness_SweepAttentionAndLineTest :
    let a := { linkState (recOf .active) LinkAux.reset with ul.units := [20] }
    let b (o : Nat) (x : Option LineTest) : State := { a with mail.lineTests := [.lineTest (tagOf 15) o], ul.lineTest := x }
    let c (r : LoopResult) : State := { a with mail.loopResults := [r], ul.lineTest := some (oneTest [20]) }
    (a.part = .running ∧ a.ul.sweepOut = false ∧ a.ul.sweepDue ≤ a.tb.elapsed ∧ nextAddress a.ul.units a.ul.sweepPos = some 20) ∧
    (a.ul.uatn = false ∧ a.ul.attnOut = false ∧ attentionCapable a = [20]) ∧
    (∀ o ∈ [1, 126], Memory.wf (b o none).mem ∧ (b o none).mail.lineTests = [.lineTest (tagOf 15) o] ∧ (b o none).ul.lineTest = none) ∧
    (b 127 (some (oneTest [20]))).ul.lineTest = some (oneTest [20]) ∧
    (∀ r ∈ [LoopResult.right, .wrong, .noEcho], Memory.wf (c r).mem ∧ (c r).mail.loopResults = [r] ∧
      (c r).ul.lineTest = some (oneTest [20]) ∧ (oneTest [20]).failures = [] ∧ (oneTest [20]).address < 128) := by decide +kernel

/-! ### Witnesses: kill control, tally, talkback, the timebase, the journal -/

theorem witness_KillControlSteps :
    let a (on : Bool) : State := { run0 with kc.asserted := on, mail.killOrders := [.kill (tagOf 13)] }
    let b (line on : Bool) : State :=
      { run0 with kc.asserted := on, kc.filter.accepted := line, mail.killOrders := [.releaseKill (tagOf 14)] }
    let c := { run0 with kc.filter := { raw := true, accepted := false, runStart := some (⟨0, 0, 0⟩, 0) }, tb.elapsed := 8 * 768 }
    (∀ on, Memory.wf (a on).mem ∧ (a on).mail.killOrders = [.kill (tagOf 13)] ∧ (a on).kc.asserted = on) ∧
    KillReq.silence ∉ run0.ul.killQ ∧
    (∀ line on, (b line on).mail.killOrders = [.releaseKill (tagOf 14)] ∧ (b line on).kc.filter.accepted = line ∧
      (b line on).kc.asserted = on) ∧
    (run0.part = .running ∧ true ≠ run0.kc.filter.raw) ∧
    (c.part = .running ∧ c.kc.filter.runStart = some (⟨0, 0, 0⟩, 0) ∧ 0 + c.kc.width * 768 ≤ c.tb.elapsed) := by decide +kernel

theorem witness_KillMutesAndViews :
    let s : State := { linkState (recOf .killed) LinkAux.reset with kc.asserted := true }
    let x : MuteTarget := { link := 0, unit := 20, chan := 1, roleOut := true, roleIn := false }
    let a := { s with mail.muteLists := [[x]] }
    let w := { a with kc.mutes := s.kc.mutes.set 0 { MuteRec.reset with state := .waiting, target := some x, serial := 1 } }
    let b (ok before : Bool) (n : Nat) : State :=
      { s with
        mail.killMuteOutcomes := [(0, 0, n, ok)]
        kc.mutes := s.kc.mutes.set 0 { state := .inProgress, failedBefore := before, target := some x, serial := 2 } }
    let c := { s with kc.mutes := s.kc.mutes.set 0 { state := .retry 0, failedBefore := true, target := some x, serial := 1 } }
    let clear := { run0 with mail.muteLists := [[x]] }
    let d := { s with mail.killToTally := [true], mail.killToRouter := [true] }
    (a.kc.asserted = true ∧ a.mail.muteLists = [[x]] ∧ x.link < a.kc.mutes.length ∧
      (a.kc.mutes.getD 0 MuteRec.reset).state ≠ .waiting ∧ (w.kc.mutes.getD 0 MuteRec.reset).state = .waiting) ∧
    (clear.kc.asserted = false ∧ clear.mail.muteLists = [[x]]) ∧
    (∀ ok before, ∀ n ∈ [1, 2], (b ok before n).kc.asserted = true ∧
      (b ok before n).mail.killMuteOutcomes = [(0, (b ok before n).kc.epoch, n, ok)] ∧ 0 < (b ok before n).kc.mutes.length ∧
      ((b ok before n).kc.mutes.getD 0 MuteRec.reset).failedBefore = before) ∧
    (c.part = .running ∧ (c.kc.mutes.getD 0 MuteRec.reset).state = .retry 0 ∧ (c.kc.mutes.getD 0 MuteRec.reset).target = some x ∧
      0 ≤ c.tb.elapsed) ∧
    (d.tally.cams.length = 32 ∧ d.mail.killToTally = [true] ∧ d.mail.killToRouter = [true]) := by decide +kernel

theorem witness_TallySources :
    let f : Filter := { raw := true, accepted := false, runStart := some (⟨0, 0, 0⟩, 0) }
    let a := { run0 with tally.inputs := run0.tally.inputs.set 47 f, tb.elapsed := 4 * 768 }
    let b := { run0 with mail.tallyOrders := [.setTally (tagOf 8) 0x8001 0xFFFF], mail.lampApplySent := true }
    (run0.part = .running ∧ 47 < run0.tally.inputs.length ∧ true ≠ (run0.tally.inputs.getD 47 Filter.reset).raw) ∧
    (a.tally.cams.length = 32 ∧ (a.tally.inputs.getD 47 Filter.reset).runStart = some (⟨0, 0, 0⟩, 0) ∧
      0 + a.tally.widths.getD (47 / 16) 4 * 768 ≤ a.tb.elapsed) ∧
    (Memory.wf b.mem ∧ b.mail.tallyOrders = [.setTally (tagOf 8) 0x8001 0xFFFF] ∧ b.tally.virtuals.length = 16 ∧
      b.mail.lampApplySent = true) := by decide +kernel

/-- Camera 3 (place 2), alone, is linked to link 0. -/
def cueState (v : CamRec) : State :=
  { run0 with tally.defs := [some camDef], tally.cams := (List.replicate 32 CamRec.reset).set 2 { v with link := some 0 } }

/-- The lamp of camera 3 is to change, with its delivery live and not (R108). -/
theorem witness_TallySources_apply :
    let s (st : LinkState) : State :=
      { cueState { CamRec.reset with staged := ⟨true, false, false⟩ } with mail.lampApplySent := true, tally.linkStates := [st] }
    ∀ st ∈ [LinkState.active, .faulted], (s st).mail.lampApplySent = true ∧ (s st).tally.cams.length = 32 ∧
      (camOf (s st) 2).staged ≠ (camOf (s st) 2).applied ∧ (camOf (s st) 2).link = some 0 ∧ (s st).tally.killed = false ∧
      (s st).tally.linkStates.getD 0 .vacant = st ∧ (s st).tally.defs.getD 0 none = some camDef := by decide +kernel

theorem cueState_alone (v : CamRec) (k : Nat) (h : k ≠ 2) : (camOf (cueState v) k).link = none := by
  unfold camOf
  show (((List.replicate 32 CamRec.reset).set 2 { v with link := some 0 }).getD k CamRec.reset).link = none
  rw [List.getD_eq_getElem?_getD, List.getElem?_set_ne (Ne.symm h), List.getElem?_replicate]
  split <;> rfl

theorem witness_TallyDelivery :
    let q (resend : Bool) : CueReq := { camera := 2, epoch := 0, unit := 20, chan := 1, colours := Colours.off, call := false, resend := resend }
    let s := cueState { CamRec.reset with delivery := .sent }
    let red := cueState { CamRec.reset with delivery := .sent, applied := ⟨true, false, false⟩, reports := 1 }
    let out := { cueState { CamRec.reset with cueOut := true } with mail.cueOutcomes := [(q false, true)] }
    let lost := { out with mail.cueOutcomes := [(q false, false)] }
    let up := { s with mail.linkToTally := [(0, .active)] }
    let down := { s with mail.linkToTally := [(0, .faulted)], tally.linkStates := s.tally.linkStates.set 0 .active }
    let call := { s with mail.callChanges := [(0, true)] }
    let calling := { call with tally.linkStates := [.holding] }
    let report := { s with mail.tallyReports := [reportSeen true] }
    (∀ k, k ≠ 2 → (camOf s k).link ≠ some 0) ∧
    (s.tally.cams.length = 32 ∧ (camOf s 2).link = some 0 ∧ s.tally.defs.getD 0 none = some camDef ∧ s.tally.killed = false) ∧
    (call.mail.callChanges = [(0, true)] ∧ 0 < call.tally.calls.length ∧ (camOf call 2).call ≠ true ∧
      call.tally.linkStates.getD 0 .vacant = .vacant ∧ calling.tally.linkStates.getD 0 .vacant = .holding) ∧
    (up.mail.linkToTally = [(0, .active)] ∧ 0 < up.tally.linkStates.length ∧
      liveState (up.tally.linkStates.getD 0 .vacant) = false ∧ liveState .active = true) ∧
    (liveState (down.tally.linkStates.getD 0 .vacant) = true ∧ liveState .faulted = false) ∧
    (out.mail.cueOutcomes = [(q false, true)] ∧ (camOf out 2).cueOut = true ∧ (q false).epoch = out.tally.epochs.getD 2 0 ∧
      newerCue { out with mail.cueOutcomes := [] } 2 = false ∧ lost.mail.cueOutcomes = [(q false, false)]) ∧
    (∀ k m e, k ≠ 2 → (camOf s k).link = some m → s.tally.defs.getD m none = some e → e.unit ≠ camDef.unit) ∧
    (report.mail.tallyReports = [reportSeen true] ∧ (reportSeen true).unit = camDef.unit ∧ (camOf report 2).delivery = .sent ∧
      (camOf report 2).cueOut = false ∧ (reportSeen true).echoOn camDef.chan = (camOf report 2).applied) ∧
    ((reportSeen true).echoOn camDef.chan ≠ (camOf red 2).applied ∧ (camOf red 2).reports = 1) := by
  refine ⟨fun k h => ?_, ?_, ?_, ?_, ?_, ?_, fun k m e h hm => ?_, ?_, ?_⟩
  · rw [cueState_alone _ k h]; simp
  · decide +kernel
  · decide +kernel
  · decide +kernel
  · decide +kernel
  · decide +kernel
  · rw [cueState_alone _ k h] at hm; cases hm
  · decide +kernel
  · decide +kernel

def keyOf (source : Nat) (latch : Bool) : KeyRec :=
  { source := source, dest := 5, priority := 4, latch := latch, level := 0, byBeltpack := false, keyed := ⟨0, 0, 0⟩ }

theorem witness_ClearKeysRemovesBySource :
    let s := { run0 with router.keys := run0.router.keys.set 63 (some (keyOf 2 true)), mail.routerOrders := [.clearKeys (tagOf 10) (some 2)]
                         router.images := run0.router.images.set 0 (some (true, false)) }
    (Memory.wf s.mem ∧ s.mail.routerOrders = [.clearKeys (tagOf 10) (some 2)] ∧ s.router.keys.length = 64) ∧
    (0 < s.router.images.length ∧ s.router.images.getD 0 none = some (true, false)) := by decide +kernel

/-- Section 7.9: destination 5 is an earpiece on bus 1, sources 0, 1 and 2 are panels. -/
def earPlan : TalkPlan :=
  { TalkPlan.reset with
    sources := [{ kind := .panel, link := none, trim := 0 }, { kind := .panel, link := none, trim := -6 },
      { kind := .panel, link := none, trim := 0 }] ++ List.replicate 21 { kind := .unused, link := none, trim := 0 }
    dests := TalkPlan.reset.dests.set 5 { kind := .wired, link := none, bus := some 1, level := -12, dim := 24, trim := 4 } }

def earKeys (n : Nat) : List (Option KeyRec) :=
  ([some (keyOf 0 true), some { keyOf 1 true with level := 3 }, some (keyOf 2 true)].take n) ++ List.replicate (64 - min n 3) none

def earRouter (n : Nat) : Router := ({ Router.reset with plan := earPlan, keys := earKeys n } : Router).recompute

/-- TABLE 7-6, and the third key of section 7.9. -/
theorem test_row_of_earpiece :
    let row (n : Nat) := (earRouter n).staged.getD 5 []
    ((row 2).getD 0 9, (row 2).getD 1 9, (row 2).getD 2 9, (row 2).getD 25 9) = (159, 156, 0, 129) ∧
    ((row 3).getD 0 9, (row 3).getD 1 9, (row 3).getD 2 9, (row 3).getD 25 9) = (155, 152, 155, 129) := by decide +kernel

theorem witness_RouterSteps :
    let k (n m : Nat) : Order := .key (tagOf 9) n m 7 true true (-40)
    let s (keys : List (Option KeyRec)) (n m : Nat) : State :=
      { run0 with router.plan := earPlan, router.keys := keys, mail.routerOrders := [k n m] }
    let full := (List.range 64).map fun j => some { keyOf 20 true with dest := j }
    let pack : LinkDef := { camDef with kind := .beltpack }
    let b := { run0 with router.defs := [some pack], mail.routerReports := [reportSeen true] }
    let c := { run0 with mail.colourChanges := [[(2, ⟨true, false, false⟩)]], mail.linkToRouter := [(0, .active, some .good)]
                         mail.xpApplySent := true, router.portSending := some { output := 5, input := 0, code := 159 } }
    ((s [] 0 39).router.plan.usable 0 39 = false ∧ (s [] 0 39).mail.routerOrders = [k 0 39] ∧ Memory.wf (s [] 0 39).mem) ∧
    ((s (earKeys 2) 2 5).router.plan.usable 2 5 = true ∧ findKey (s (earKeys 2) 2 5).router 2 5 = none ∧
      (s (earKeys 2) 2 5).router.keys[2]? = some none ∧ ∀ j, j < 2 → (s (earKeys 2) 2 5).router.keys[j]? ≠ some none) ∧
    (findKey (s (earKeys 2) 1 5).router 1 5 = some 1 ∧ (s (earKeys 2) 1 5).router.plan.usable 1 5 = true) ∧
    (findKey (s full 2 5).router 2 5 = none ∧ ∀ x ∈ (s full 2 5).router.keys, x ≠ none) ∧
    (b.mail.routerReports = [reportSeen true] ∧ b.router.defs.getD 0 none = some pack ∧ pack.unit = (reportSeen true).unit ∧
      (reportSeen true).channels[pack.chan]? = some (channelSeen true) ∧ b.router.images.getD 0 none = none) ∧
    (∀ j e, j ≠ 0 → b.router.defs.getD j none = some e → e.unit ≠ (reportSeen true).unit) ∧
    (c.mail.colourChanges = [[(2, ⟨true, false, false⟩)]] ∧ c.mail.linkToRouter = [(0, .active, some .good)] ∧
      c.mail.xpApplySent = true ∧ c.router.portSending = some { output := 5, input := 0, code := 159 }) := by
  refine ⟨by decide +kernel, by decide +kernel, by decide +kernel, by decide +kernel, by decide +kernel, fun j e hj he => ?_,
    by decide +kernel⟩
  cases j with
  | zero => exact absurd rfl hj
  | succ n => cases he

/-- An edge of key 1 of link 0, bound to the panel's key; and a key image that is known. -/
theorem witness_RouterSteps_edges :
    let b : Binding := { enable := true, source := 2, dest := 5, priority := 4, latch := false, level := 0 }
    let plan := { earPlan with bindings := earPlan.bindings.set 1 b }
    let s (n : Nat) : State := { run0 with router := { run0.router with plan := plan, keys := earKeys n } }
    let full := { s 0 with router.keys := (List.range 64).map fun j => some { keyOf 20 true with dest := j } }
    let pack : LinkDef := { camDef with kind := .beltpack }
    let seen : Report := { unit := 20, channels := [channelSeen true, { channelSeen true with key1 := true }] }
    let known := { s 2 with router.defs := [some pack], mail.routerReports := [seen], router.images := [some (true, false)] }
    ((s 2).router.keys.length = 64 ∧ (s 2).router.plan.bindings[2 * 0 + 1]? = some b ∧ (s 2).router.plan.usable b.source b.dest = true) ∧
    ((s 2).router.keys[2]? = some none ∧ ∀ j, j < 2 → (s 2).router.keys[j]? ≠ some none) ∧
    (full.router.plan.usable 2 5 = true ∧ ∀ x ∈ full.router.keys, x ≠ none) ∧
    (findKey (s 2).router 2 5 = none ∧ findKey full.router 2 5 = none ∧ (s 3).router.keys[2]? = some (some (keyOf 2 true)) ∧
      findKey (s 3).router 2 5 = some 2) ∧
    (known.mail.routerReports = [seen] ∧ seen.unit = pack.unit ∧ known.router.defs.getD 0 none = some pack ∧
      seen.channels[pack.chan]? = some { channelSeen true with key1 := true } ∧ known.router.images.getD 0 none = some (true, false)) := by
  decide +kernel

/-- A destination and a key of each form that the routes distinguish. -/
theorem witness_RoutesAndGains :
    let k (n : Nat) : KeyRec := { keyOf 0 true with dest := n }
    let dests := (earRouter 3).plan.dests
    let r := earRouter 3
    (∀ n ∈ [0, 31], (k n).dest < 32) ∧ (∀ n ∈ [32, 39], 32 ≤ (k n).dest) ∧
    (dests[5]?.map (·.kind) = some .wired ∧ dests[6]?.map (·.kind) = some .unused) ∧
    ((DestRec.at r.dests 5).routes = [(0, .slotted), (1, .slotted), (2, .slotted)]) ∧
    (r.keys[1]? = some (some { keyOf 1 true with level := 3 }) ∧ keyReaches r { keyOf 1 true with level := 3 } 5 = true) := by
  decide +kernel

theorem witness_TimebaseReference :
    let free := run0
    let locked (n : Nat) : State := { run0 with tb.locked := true, tb.misses := n }
    let rate (frame : Nat) : State := { run0 with tb.buffered := some 30, tb.frame := frame }
    let clock (frame : Nat) : State := { rate 0 with tb.clockWait := some (tagOf 12, 7, frame) }
    let tick := { run0 with tb.tick := 255 }
    let apply (lamp xp : Bool) : State :=
      { run0 with tb.lampSet.order := lamp, tb.xpSet.order := xp, mail.timebaseOrders := [.apply (tagOf 11) true true] }
    let a : ApplyOrder := { tag := tagOf 11, lampWait := .waiting, xpWait := .waiting }
    let answer (a : ApplyOrder) (o : Output) : State := { run0 with tb.applies := [a], mail.applyAnswers := [(o, 2)] }
    (free.part = .running ∧ free.tb.clockWait = none ∧ free.tb.buffered = none ∧ free.tb.locked = false) ∧
    (∀ n ∈ [0, 1], (locked n).part = .running ∧ (locked n).tb.clockWait = none ∧ (locked n).tb.buffered = none ∧
      (locked n).tb.locked = true ∧ (locked n).tb.misses = n) ∧
    192 ≤ ({ run0 with tb.tick := 192 } : State).tb.tick ∧
    (∀ n ∈ [23, 24], (rate n).tb.clockWait = none ∧ (rate n).tb.buffered = some 30 ∧ (rate n).tb.locked = false ∧ (rate n).tb.frame = n ∧
      (rate n).tb.rate = 25) ∧
    (∀ n ∈ [0, 1], (clock n).tb.clockWait = some (tagOf 12, 7, n) ∧ (clock n).tb.buffered = some 30 ∧ (clock n).tb.locked = false) ∧
    (tick.pending = [] ∧ tick.part = .running ∧ 255 ≤ tick.tb.tick ∧ tick.jw.walking = false) ∧
    ({ run0 with mail.stagedChanges := [.lamps] } : State).mail.stagedChanges = [.lamps] ∧
    (∀ l x, Memory.wf (apply l x).mem ∧ (apply l x).mail.timebaseOrders = [.apply (tagOf 11) true true] ∧
      (apply l x).tb.lampSet.order = l ∧ (apply l x).tb.xpSet.order = x) ∧
    ((answer a .lamps).mail.applyAnswers = [(.lamps, 2)] ∧ (answer a .lamps).tb.applies = [a]) ∧
    ((answer { a with lampWait := .answered 3 } .crosspoints).mail.applyAnswers = [(.crosspoints, 2)] ∧
      ApplyWait.answered 3 ≠ .waiting ∧ ApplyWait.notNamed ≠ .waiting) := by decide +kernel

theorem witness_TimebaseSteps :
    let late := { run0 with tb.tick := 192 }
    let take := { run0 with tb.takeFilter := { raw := true, accepted := false, runStart := some (⟨0, 0, 0⟩, 0) }, tb.elapsed := 4 * 768 }
    let change := { run0 with mail.stagedChanges := [.crosspoints] }
    let apply (on : Bool) : State := { run0 with tb.lampSet.order := on, mail.timebaseOrders := [.apply (tagOf 11) true false] }
    let a : ApplyOrder := { tag := tagOf 11, lampWait := .waiting, xpWait := .notNamed }
    let answer := { run0 with tb.applies := [a], mail.applyAnswers := [(.lamps, 2)] }
    let clock (w : Option (OrderTag × Nat × Nat)) : State :=
      { run0 with tb.clockWait := w, mail.timebaseOrders := [.setClock (tagOf 12) 86399 24] }
    (run0.part = .running ∧ run0.tb.clockWait = none ∧ run0.tb.buffered = none ∧ run0.tb.locked = false) ∧
    (({ run0 with tb.tick := 191 } : State).tb.tick < 192) ∧
    (late.part = .running ∧ 192 ≤ late.tb.tick ∧ late.tb.clockWait = none ∧ late.tb.buffered = none) ∧
    true ≠ run0.tb.takeFilter.raw ∧
    (take.tb.takeFilter.runStart = some (⟨0, 0, 0⟩, 0) ∧ 0 + take.tb.takeWidth * 768 ≤ take.tb.elapsed) ∧
    change.mail.stagedChanges = [.crosspoints] ∧
    (∀ on, Memory.wf (apply on).mem ∧ (apply on).mail.timebaseOrders = [.apply (tagOf 11) true false] ∧
      (apply on).tb.lampSet.order = on) ∧
    (answer.mail.applyAnswers = [(.lamps, 2)] ∧ answer.tb.applies = [a] ∧ a.lampWait = .waiting ∧ a.xpWait = .notNamed) ∧
    ((clock none).mail.timebaseOrders = [.setClock (tagOf 12) 86399 24] ∧ (clock none).tb.clockWait = none ∧
      (clock (some (tagOf 12, 86399, 24))).tb.clockWait.isSome = true) ∧
    (Memory.wf (clock (some (tagOf 12, 86399, 24))).mem ∧
      (clock (some (tagOf 12, 86399, 24))).tb.clockWait = some (tagOf 12, 86399, 24)) := by decide +kernel

def reportOf (f : PendingOf) (n : NoticeOf) : JReport :=
  { kind := .table, stamp := ⟨0, 0, 0⟩, subject := 0, values := 0, dropped := false, clamped := false, flagOf := f, notice := n }

theorem witness_JournalSteps :
    let r := reportOf .tableFlag .none
    let s (head : Nat) : State := { run0 with jw.head := head, mail.reports := [(.killControl, reportOf .killFlag .kill), (.adoption, r)] }
    let d := { run0 with jw.delayCount := some 25 }
    (∀ h ∈ [0, 127, 128], (s h).mail.reports = [(.killControl, reportOf .killFlag .kill)] ++ (.adoption, r) :: [] ∧
      (∀ x ∈ [((.killControl, reportOf .killFlag .kill) : Owner × JReport)], x.1 ≠ .adoption) ∧ firstPending (s h) = none ∧
      (s h).jw.walking = false ∧ (s h).jw.head < 65536 ∧ (s h).jw.entries.length = 128 ∧
      (s h).jw.head + 65536 - takenWord (s h) = h + 65536) ∧
    (r.flagOf = .tableFlag ∧ r.notice = .none) ∧ (d.jw.delayCount = some 25 ∧ d.jw.delayFrames ≤ 25) ∧
    (∀ x ∈ (s 0).mail.reports, x.1 ≠ .router) := by decide +kernel

/-- The kill flag is pending: with a full journal, with one place, and with an empty one; and two flags, and none. -/
theorem witness_ResyncWalk :
    let s (head : Nat) : State :=
      { run0 with jw.killPending := true, jw.head := head, mail.reports := [(.adoption, reportOf .tableFlag .none)] }
    let two := { s 0 with sup.links := Link.reset :: { Link.reset with vis := { LinkRec.reset with pending := true } } :: [] }
    let going := { two with jw.walking := true }
    (∀ h ∈ [0, 127, 128], firstPending (s h) = some .kill ∧ ((s h).jw.head + 65536 - takenWord (s h)) % 65536 = h ∧
      (s h).jw.head < 65536 ∧ (s h).jw.entries.length = 128 ∧ (s h).mail.reports = [(.adoption, reportOf .tableFlag .none)]) ∧
    (two.jw.killPending = true ∧ (two.linkRec 1).pending = true ∧ firstPending { two with jw.killPending := false } = some (.link 1)) ∧
    (firstPending run0 = none ∧ run0.jw.walking = false ∧ run0.pending = [] ∧ run0.part = .running) ∧
    ((2 : Word).getLsbD 1 = true ∧ going.jw.walking = true) := by decide +kernel

/-- One entry of the walk: the kill's RESYNC entry is appended, its flag alone is cleared, and the walk ends with it (R166). -/
theorem test_resync_step :
    let s := { run0 with jw.killPending := true, jw.walking := true, jw.head := 127 }
    let t := resyncStep s
    t.jw.head = 128 ∧ t.jw.killPending = false ∧ t.jw.walking = false ∧
      ((t.jw.entries.getD 127 none).map fun e => (e.kind, e.resync, e.sequence)) = some (.kill, true, 127) := by decide +kernel

/-! ### Witnesses of the statements' further clauses -/

/-- A header byte of each kind, and a cell that has the state byte 3. -/
theorem witness_DispatcherRefusesInOrder_kinds :
    (∀ k ∈ [0, 1, 2, 3, 4, 5, 7, 8, 9, 10, 11, 12, 13, 14, 15, 16],
      byteAt (cellState k []).mem (cellBase 3 + 1) = k) ∧
    (let s := { run0 with disp.intake := [3], mem := Memory.writeBytes [] (cellBase 3) [3, 9] }
     Memory.wf s.mem ∧ s.disp.waiting = none ∧ byteAt s.mem (cellBase 3) ≠ 1) ∧
    (parseOrder (cellState 9 [23, 40]).mem 3 = .refused 1 false ∧ parseOrder (cellState 15 [128]).mem 3 = .refused 0 false) := by
  decide +kernel

/-- A TAKE, a CUE_ADOPTION and a report of keys for the clauses of records changed and brought back. -/
theorem witness_ChangeCountsFollowRecords_paths :
    ∀ c ∈ [Instr.take, .failoverTakeAnswer, .cueAdoption, .beltpackKeyReport],
      c ≠ .powerOnReset ∧ c ≠ .partReset ∧ (∀ o ∈ [Owner.router, .tally], c ≠ .journalReport o) ∧ c ≠ .noticeClear 2 ∧
        ∃ t, exec c run0 = .next t := by
  intro c h
  fin_cases h <;> exact ⟨by decide, by decide, by decide, by decide, _, rfl⟩

/-- Link 9 asks for both roles, in either order. -/
def nineOut : RolePlan := planOf .outbound 19280 19600

def asksTwo (swap : Bool) (co ci : Nat) : State :=
  asks (.insert false 9 1 (if swap then [(linkNine, ci), (nineOut, co)] else [(nineOut, co), (linkNine, ci)]))

def outEntry (co : Nat) : CarrierEntry := { entryOf 9 .outbound co .reserved with since := run0.now }

/-- INSERT of both roles: two entries there, one free slot, OUTBOUND failing, INBOUND failing, both passing; and the engine's. -/
theorem witness_InsertOfOneRole_both :
    let roles := [(nineOut, 19560), (linkNine, 19451)]
    let s (a b : Nat) : State := asksTwo false a b
    let v (c : Nat) := verdictOf rulesOpen (tableCarriers tableABO) c 0 0 (some (9, .outbound)) (some nineOut.window)
    let u (o c : Nat) :=
      verdictOf rulesOpen (tableCarriers tableABO ++ [(outEntry o).carrier]) c 0 0 (some (9, .inbound)) (some linkNine.window)
    let count (t : List (Option CarrierEntry)) (r : Role) := roleEntries t 9 r
    let pair (r : Role) : List (Option CarrierEntry) := [some (entryOf 9 r 100 .live), some (entryOf 9 r 200 .live), none, none]
    ((s 19560 19451).ctl.queue = [.insert false 9 1 roles] ∧ nineOut.role = .outbound ∧ linkNine.role = .inbound ∧
      (asksTwo true 19560 19451).ctl.queue = [.insert false 9 1 [(linkNine, 19451), (nineOut, 19560)]]) ∧
    (2 ≤ count (pair .outbound) .outbound ∧ 2 ≤ count (pair .inbound) .inbound) ∧
    (¬(2 ≤ count tableABO .outbound ∨ 2 ≤ count tableABO .inbound) ∧ 2 ≤ tableABO.countP Option.isNone ∧
      (tableABO.take 4).countP Option.isNone < 2) ∧
    (v 19421).eligibility ≠ .acceptable ∧ ((v 19560).eligibility = .acceptable ∧ (u 19560 19421).eligibility ≠ .acceptable) ∧
    ((u 19560 19451).eligibility = .acceptable ∧ lowestFree tableABO = some 3 ∧
      lowestFree (tableABO.set 3 (some (outEntry 19560))) = some 4) ∧
    (asks (.insert true 9 1 roles)).ctl.queue = [.insert true 9 1 roles] := by decide +kernel

/-- TAKE: too many entries, too few slots, the walk past, over and onto a spare, and both roles with and without a second spare. -/
theorem witness_TakeAndAppend_both :
    let s := asks (.take 5 1 [linkFive])
    let three (t : List (Option CarrierEntry)) (roles : List RolePlan) : Prop :=
      ∃ p ∈ roles, 2 < roleEntries t 5 p.role + (roles.map (·.role)).count p.role
    let two := [some (entryOf 5 .outbound 100 .live), some (entryOf 5 .outbound 200 .live), none, none]
    let fits (p : RolePlan) (e : ReserveEntry) : Prop :=
      e.cls = p.cls ∧ e.zone = p.zone ∧ p.lo ≤ e.code ∧ e.code ≤ p.hi ∧ onGrid e.code p.step p.off = true
    let v (left : List ReserveEntry) (code : Nat) := verdictOf rulesOpen (tableCarriers tableABO ++ reserveCarriers left) code 0 0
      (some (5, .outbound)) (some linkFive.window)
    let wide := planOf .inbound 19700 19800
    let w (code : Nat) := verdictOf rulesOpen
      (tableCarriers tableABO ++ [({ entryOf 5 .outbound 19451 .reserved with since := run0.now } : CarrierEntry).carrier]) code 0 0
      (some (5, .inbound)) (some wide.window)
    (s.ctl.queue = [.take 5 1 [linkFive]] ∧ three two [linkFive] ∧ ¬three tableABO [linkFive] ∧ ¬three fullTable [linkFive] ∧
      fullTable.countP Option.isNone < 1) ∧
    (s.ctl.reserve[2]? = none ∧ s.ctl.reserve[0]? = some (spareOf 19451) ∧ ¬fits linkFive (spareOf 19481) ∧
      fits linkFive (spareOf 19451) ∧ fits linkFive (spareOf 19421) ∧ (v [] 19421).eligibility ≠ .acceptable ∧
      (v [spareOf 19470] 19451).eligibility = .acceptable) ∧
    (spareMatches linkFive (spareOf 19421) = true ∧ spareMatches linkFive (spareOf 19481) = false ∧
      (v [spareOf 19481] 19421).eligibility ≠ .acceptable) ∧
    (linkFive.role = .outbound ∧ wide.role = .inbound ∧ roleEntries tableABO 5 .outbound < 2 ∧ roleEntries tableABO 5 .inbound < 2 ∧
      2 ≤ tableABO.countP Option.isNone ∧ lowestFree tableABO = some 3 ∧ spareMatches linkFive (spareOf 19451) = true ∧
      (v [spareOf 19470] 19451).eligibility = .acceptable ∧ spareMatches wide (spareOf 19470) = false ∧
      ([spareOf 19451, spareOf 19470].map (·.code)).Nodup) ∧
    ((v [spareOf 19750] 19451).eligibility = .acceptable ∧ spareMatches wide (spareOf 19750) = true ∧ (w 19750).eligibility = .acceptable ∧
      lowestFree (tableABO.set 3 (some { entryOf 5 .outbound 19451 .reserved with since := run0.now })) = some 4) := by
  decide +kernel

theorem witness_LearnOfOneRole_both :
    let r (swap : Bool) : CtlReq :=
      .learn 9 1 0 (if swap then [(.inbound, 19451, 0), (.outbound, 19560, 0)] else [(.outbound, 19560, 0), (.inbound, 19451, 0)])
    ∀ b, (asks (r b)).ctl.queue = [r b] := by decide

/-- A reserve list whose second entry alone is ACCEPTABLE, and a table of three entries. -/
theorem witness_AuditSteps_findings :
    let c := { twoInsertions.ctl with reserve := [spareOf 19421, spareOf 25000] }
    let e := AuditRun.idle.toEnd c
    e.failing = [19421] ∧ e.findings.map (·.slot) = [0, 1, 2] ∧ e.reserveMeasured = 2 := by decide +kernel

def undefined (s : State) : State := { s with sup.defs := [none] }

/-- ENABLE_LINK of a link without a definition, of a code for a role that is not declared, and of a barred link; and the
re-tune-needed mark in PARKED and in FAULTED. -/
theorem witness_EnableLinkSteps_refused :
    let o := orderOf .enable
    let x : LinkOrder := { o with codeIn := some 19400 }
    let s (o : LinkOrder) (st : LinkState) : State := ordering o { recOf st with retuneNeeded := true } LinkAux.reset
    let none' (k : Bool) : State := { undefined (s o .vacant) with kc.asserted := k }
    let barred := { s o .parked with adopt.barred := [0] }
    (∀ k, Memory.wf (none' k).mem ∧ (none' k).mail.linkOrders = [o] ∧ (none' k).linkDef 0 = none ∧ (none' k).kc.asserted = k ∧
      ((none' k).link 0).aux.order = none ∧ (none' k).adopt.barred.contains 0 = false ∧ ((none' k).linkRec 0).state = .vacant) ∧
    (Ordered (s x .parked) x ∧ givesUndeclared x camDef = true ∧ (s x .parked).kc.asserted = false) ∧
    (Ordered barred o ∧ givesUndeclared o camDef = false ∧ barred.adopt.barred.contains 0 = true) ∧
    (∀ st ∈ [LinkState.parked, .faulted], ((s o st).linkRec 0).state = st ∧ ((s o st).linkRec 0).retuneNeeded = true) := by
  decide +kernel

/-- RETUNE_LINK, each test of TABLE 4-5 and each way in which it is taken. -/
theorem witness_RetuneLinkSteps_refused :
    let o := orderOf .retune
    let f : LinkOrder := { o with force := true }
    let s (o : LinkOrder) (v : LinkRec) : State := ordering o v LinkAux.reset
    let hold (h : HoldReason) : LinkRec := { recOf .holding with hold := some h }
    let both : LinkDef := { camDef with inRole := some outRole }
    let silent (e : List (Option CarrierEntry)) (d : LinkDef) : State := { s f (recOf .faulted) with sup.defs := [some d], ctl.table := e }
    let passed (s : State) (o : LinkOrder) (d : LinkDef) : Prop :=
      Memory.wf s.mem ∧ s.mail.linkOrders = [o] ∧ s.linkDef 0 = some d ∧ s.kc.asserted = false ∧ d.outRole.isSome = true ∧
        badRoleSet o d = false ∧ givesUndeclared o d = false ∧ (s.link 0).aux.order = none ∧ (s.link 0).aux.outstanding = false ∧
        (s.link 0).aux.killWait = []
    let none' (k : Bool) : State := { undefined (s o (recOf .vacant)) with kc.asserted := k }
    (∀ k, (none' k).mail.linkOrders = [o] ∧ (none' k).linkDef 0 = none ∧ (none' k).kc.asserted = k ∧
      ((none' k).link 0).aux.order = none ∧ ((none' k).linkRec 0).state = .vacant) ∧
    badRoleSet { o with roleOut := false } camDef = true ∧ badRoleSet { o with roleIn := true } camDef = true ∧
    (badRoleSet { o with codeIn := some 1 } camDef = false ∧ givesUndeclared { o with codeIn := some 1 } camDef = true) ∧
    ((ordering o (recOf .active) busyAux).link 0).aux.order.isSome = true ∧
    (∀ st ∈ [LinkState.planning, .tuning, .retuning, .killed, .active, .faulted], passed (s o (recOf st)) o camDef) ∧
    (passed (s o (hold .failover)) o camDef ∧ passed (s f (hold .order)) f camDef ∧ passed (s f (hold .failover)) f camDef) ∧
    (passed (silent [some (entryOf 0 .inbound 19300 .silent)] both) f both ∧ f.names .inbound = false ∧
      entryOf 0 .inbound 19300 .silent ∈ entriesOf (silent [some (entryOf 0 .inbound 19300 .silent)] both) 0) ∧
    (passed (silent [some (entryOf 0 .outbound 19300 .silent)] camDef) f camDef ∧
      ∀ r ∈ bothRoles, (camDef.role r).isSome = true → f.names r = true) ∧
    (o.toSearch (bothRoles.filter o.names) ≠ [] ∧ o.force = false ∧ (s o (recOf .active)).onProgramme camDef.camera = false) := by
  refine ⟨?_, ?_, ?_, ?_, ?_, ?_, ?_, ?_, ?_, ?_⟩ <;> decide +kernel

theorem witness_LinkTimers_failover :
    let auto : LinkDef := { camDef with auto := true }
    let late (s : State) : State := { s with tb.elapsed := 20 * 768000, sup.defs := [some auto] }
    let bad (st : LinkState) (h : Option HoldReason) : LinkRec :=
      { recOf st with outRec := { RoleRec.reset with health := some .degraded }, hold := h }
    let hold := late (linkState (bad .holding (some .failover)) { LinkAux.reset with holdTimer := true, holdAt := some 0, outDegradedAt := some 0 })
    let delay := onAir (late (linkState (bad .active none) { LinkAux.reset with outDegradedAt := some (17 * 768000) }))
    let guard : State :=
      { linkState (seqRec .tuning .enable .guarding) { LinkAux.reset with seq := 1, guardAt := some 0 } with
        ctl.table := [some (entryOf 0 .outbound 19300 .live), some (entryOf 0 .outbound 19400 .reserved)] }
    ((hold.link 0).vis.state = .holding ∧ (hold.link 0).vis.hold = some .failover ∧ (hold.link 0).aux.holdTimer = true ∧
      (hold.link 0).aux.holdAt = some 0 ∧ 0 + auto.holdS * 768000 ≤ hold.tb.elapsed ∧ failoverWanted hold 0 = true ∧
      (hold.link 0).aux.outstanding = false ∧ (hold.link 0).aux.killWait = [] ∧ hold.linkDef 0 = some auto ∧ hold.part = .running) ∧
    ((delay.link 0).degradedAt .outbound = some (17 * 768000) ∧ 17 * 768000 + auto.delayS * 768000 ≤ delay.tb.elapsed ∧
      (delay.link 0).vis.state = .active ∧ (delay.link 0).aux.order = none ∧ delay.kc.asserted = false ∧
      (delay.link 0).aux.retryAt = none ∧ failoverWanted delay 0 = true ∧ delay.onProgramme auto.camera = true) ∧
    failingRoles hold 0 = [.outbound] ∧
    ((guard.link 0).aux.guardAt = some 0 ∧ (guard.link 0).aux.outstanding = false ∧ (guard.link 0).aux.killWait = [] ∧
      ((entriesOf guard 0).filter fun e => (guard.link 0).vis.inSequence e.role && ((guard.link 0).vis.role e.role).fresh ≠ some e.code)
        = [entryOf 0 .outbound 19300 .live]) := by decide +kernel

/-- One link in each row of TABLE 9-1, with its insertion outstanding and not; and the answers that a kill waits for. -/
theorem witness_KillTreatsEveryLink_treated :
    let s (v : LinkRec) (a : LinkAux) : State := { linkState v a with ctl.table := [some (entryOf 0 .outbound 19300 .live)] }
    let e := orderAux .enable
    let from' (st : LinkState) : LinkAux := { e with began := st }
    let stands (s : State) : Prop := Memory.wf s.mem ∧ 0 < s.sup.links.length ∧ s.linkDef 0 = some camDef
    (∀ st ∈ [LinkState.vacant, .parked, .learning, .faulted, .killed, .planning, .holding, .active],
      stands (s (recOf st) e) ∧ ((s (recOf st) e).link 0).vis.state = st ∧ ((s (recOf st) e).link 0).vis.seqKind ≠ .restore ∧
        ((s (recOf st) e).link 0).vis.phase ≠ .inserting ∧ ((s (recOf st) e).link 0).aux.order = some (orderOf .enable)) ∧
    ((orderOf .enable).kind ≠ .park ∧ camDef.outRole.isSome = true) ∧
    (∀ p ∈ [Phase.tuneSent, .guarding, .settling, .unmuting, .inserting], ∀ b ∈ [LinkState.parked, .faulted],
      let x := s (seqRec .tuning .enable p) (from' b)
      stands x ∧ (x.link 0).vis.phase = p ∧ (x.link 0).aux.began = b ∧ (x.link 0).aux.outstanding = false ∧
        (x.link 0).aux.killWait = [] ∧ (x.link 0).aux.afterKill = [] ∧ (x.link 0).vis.inSequence .outbound = true ∧
        ((x.link 0).vis.role .outbound).fresh = some 19400 ∧ awaitsEntries x 0 = decide (p = .inserting)) ∧
    ((s (seqRec .killed .restore .tuneSent) e).link 0).vis.seqKind = .restore ∧
    (let a := { LinkAux.reset with killWait := [1], killChanges := [{ role := .outbound, code := 19300, change := .become .silent }] }
     a.killWait = [1] ∧ a.afterKill = [] ∧ a.outstanding = false ∧ a.killChanges ≠ [] ∧ 2 ∉ a.killWait) := by decide +kernel

/-- Cue tables that fail, of which an earlier destination does not; and good ones. -/
theorem witness_TableAdoptions_read :
    let m := Memory.writeBytes (Memory.writeBytes [] 0x4380 [4]) 0x4390 [3, 0]
    cueFailure m [some { camDef with kind := .iem }] = some 1 ∧ cueFailure m [some camDef] = none ∧
    ((readPlan m).dest 0).kind = .wired ∧ (readCueSettings []).widths = [1, 1, 1] ∧ (readCueSettings []).rate = 24 := by decide +kernel

/-- Link 0 at an accepted adoption: new, removed, changed in PARKED, and held. -/
theorem witness_DefinitionsReachTheirOwners_links :
    let copy (d : Option LinkDef) : StationCopy := { rules := rules0, defs := [d], settings := Settings.reset, killWidth := 8 }
    let s (v : LinkRec) (a : LinkAux) (old new : Option LinkDef) : State :=
      { linkState v a with sup.defs := [old], sup.links := { vis := v, aux := a } :: List.replicate 95 Link.reset
                           adopt.station.stage := .answered, adopt.copy := some (copy new), tb.elapsed := 20 * 768000 }
    let moved : LinkDef := { camDef with unit := 21 }
    let short : LinkDef := { camDef with holdS := 5 }
    let stands (s : State) (new : Option LinkDef) : Prop :=
      s.adopt.station.stage = .answered ∧ s.adopt.copy = some (copy new) ∧ s.adopt.station.pending = false ∧ s.sup.links.length = 96
    let hold (h : HoldReason) : LinkRec := { recOf .holding with hold := some h }
    let o := { orderAux .retune with holdAt := some (17 * 768000), holdTimer := true }
    let late := { o with holdAt := some 0 }
    let shown (s : State) : Bool := (camOf s 2).staged.programme || (camOf s 2).applied.programme
    (stands (s (recOf .vacant) LinkAux.reset none (some camDef)) (some camDef) ∧
      stands (s (recOf .parked) LinkAux.reset (some camDef) none) none ∧
      stands (s (recOf .parked) LinkAux.reset (some camDef) (some moved)) (some moved) ∧
      ¬(camDef.unit = moved.unit ∧ camDef.chan = moved.chan)) ∧
    (stands (onAir (s (hold .order) o (some camDef) (some short))) (some short) ∧ camDef ≠ short ∧ short.camera = 2 + 1 ∧
      shown (onAir (s (hold .order) o (some camDef) (some short))) = true ∧ ¬(17 * 768000 + short.holdS * 768000 ≤ 20 * 768000)) ∧
    (shown (s (hold .order) o (some camDef) (some short)) = false ∧ o.order = some (orderOf .retune)) ∧
    (late.holdAt = some 0 ∧ short.holdS ≠ 0 ∧ 0 + short.holdS * 768000 ≤ 20 * 768000) ∧
    (((s (hold .failover) LinkAux.reset (some camDef) (some short)).linkRec 0).hold = some .failover ∧ short.auto = false) ∧
    (linkedLink [none, some camDef, some camDef] 3 = some 1 ∧ linkedLink [some camDef] 4 = none ∧
      unitList [some camDef, none, some { camDef with unit := 9 }] = [9, 20]) := by decide +kernel

def waitsFor (r : UlReq) (second : Bool) : State :=
  { linkState (recOf .active) LinkAux.reset with
    sup.defs := [some camDef, some { camDef with unit := 30 }], ul.units := [20, 30], ul.uatn := true, ul.roundSet := [20, 30]
    ul.attnPos := some 20, ul.attnOut := true
    ul.xact := some { req := r, second := second, sending := false, deadline := 0 } }

/-- CUE, kill MUTE, LOOP, settle poll and attention poll: each answered well at the first frame, and failed at the second. -/
theorem witness_TransactionMachine_owners :
    let cue : CueReq := { camera := 2, epoch := 0, unit := 20, chan := 1, colours := Colours.off, call := false, resend := false }
    let mute := UlReq.killReq (.mute 0 4 1 20 1 true false)
    let loop := UlReq.sweepReq (.loop 20 (List.replicate 8 0))
    let settle := UlReq.controlReq { tuneReq with kind := .settlePoll }
    let echo (b : Byte) : List Byte := answerOf 0x87 (List.replicate 32 b)
    let ready (r : UlReq) : Prop := ((waitsFor r false).ul.xact.any fun x => !x.sending && !x.second && decide (x.req = r)) = true ∧
      ((waitsFor r true).ul.xact.any fun x => !x.sending && x.second && decide (x.deadline ≤ (waitsFor r true).tb.elapsed)) = true ∧
      goodReply r [3] = none
    (∀ r ∈ [UlReq.cueReq cue, mute, loop, settle, .attentionPoll 20], ready r) ∧
    (goodReply (.cueReq cue) (answerOf 0x82 []) = some .ack ∧ goodReply mute (answerOf 0x82 []) = some .ack ∧
      goodReply loop (echo 0) = some (.echo (List.replicate 8 0)) ∧ goodReply loop (echo 1) = some (.echo (List.replicate 8 0x01010101)) ∧
      (goodReply settle quietReport).isSome = true ∧ (goodReply (.attentionPoll 20) quietReport).isSome = true) ∧
    ((waitsFor (.attentionPoll 20) false).part = .running ∧ (waitsFor (.attentionPoll 20) false).ul.uatn = true ∧
      [20, 30].filter (· ≠ 20) = [30] ∧ nextAddress [30] (some 20) = some 30 ∧ [20].filter (· ≠ 20) = [] ∧
      attentionCapable (waitsFor (.attentionPoll 20) false) = [20, 30] ∧ nextAddress [20, 30] none = some 20) := by decide +kernel

/-- A REPORT of one channel is good; with a byte too many, with no channel, or with a code above the greatest it is not. -/
theorem witness_TransactionMachine_replies :
    let q := UlReq.sweepReq (.poll 20)
    let pay (n : Nat) (l : List Byte) : List Byte := answerOf 0x81 (BitVec.ofNat 8 n :: l)
    q.address < 256 ∧ (goodReply q quietReport).isSome = true ∧ goodReply q (pay 1 (List.replicate 17 0)) = none ∧
    goodReply q (pay 0 []) = none ∧ goodReply q (pay 1 ((List.replicate 16 0).set 7 2)) = none := by decide +kernel

/-- LINE_TEST of no units and of two, the LOOP of one that is not the last, and the addresses of a list. -/
theorem witness_SweepAttentionAndLineTest_all :
    let b (units : List Nat) : State := { run0 with ul.units := units, mail.lineTests := [.lineTest (tagOf 15) 127] }
    let c := { run0 with mail.loopResults := [.noEcho], ul.lineTest := some (oneTest [20, 30]) }
    (Memory.wf (b []).mem ∧ (b []).mail.lineTests = [.lineTest (tagOf 15) 127] ∧ (b []).ul.lineTest = none ∧ (b []).ul.units = []) ∧
    ((b [20, 30]).ul.lineTest = none ∧ (b [20, 30]).ul.units = 20 :: [30]) ∧
    (c.mail.loopResults = [.noEcho] ∧ c.ul.lineTest = some (oneTest [20, 30]) ∧ (oneTest [20, 30]).units = 20 :: 30 :: []) ∧
    [20, 30].Pairwise (· < ·) ∧ nextAddress [20, 30] (some 25) = some 30 ∧ nextAddress [20, 30] (some 30) = some 20 := by
  decide +kernel

/-- The release of a kill at a linked camera whose link is live, at one whose link is not, and at an unlinked one. -/
theorem witness_KillMutesAndViews_release :
    let s (st : LinkState) : State :=
      { cueState { CamRec.reset with delivery := .suspended } with mail.killToTally := [false], tally.linkStates := [st] }
    (∀ st ∈ [LinkState.active, .holding, .retuning, .killed], (s st).tally.cams.length = 32 ∧ (s st).mail.killToTally = [false] ∧
      (camOf (s st) 2).link = some 0 ∧ (s st).tally.linkStates.getD 0 .vacant = st ∧ (s st).tally.defs.getD 0 none = some camDef) ∧
    (camOf (s .active) 31).link = none := by decide +kernel

/-- An entry that matches sources 48 and 49 with a spread, as its mask allows. -/
theorem witness_TallySources_colours :
    let e : MapEntry := { base := 48, mask := 1, camera := 3, colour := some .preview, spread := true, enable := true }
    let u := { TallyUnit.reset with map := [e], virtuals := true :: true :: List.replicate 14 false }
    (∀ x ∈ u.map, x.mask < 64) ∧ (resolvedColours u 3).preview = true ∧ (resolvedColours u 4).preview = true ∧
      (resolvedColours u 5).preview = false := by decide +kernel

/-- A stale outcome of each kind, a resend that ends either way, and an echo in each delivery state. -/
theorem witness_TallyDelivery_resends :
    let q (resend : Bool) (epoch : Nat) : CueReq :=
      { camera := 2, epoch := epoch, unit := 20, chan := 1, colours := Colours.off, call := false, resend := resend }
    let s (d : Delivery) (out : Bool) (x : CueReq) : State :=
      { cueState { CamRec.reset with delivery := d, cueOut := out } with mail.cueOutcomes := [(x, true)] }
    let newer (s : State) : Prop := (∃ x ∈ s.ul.cueQ, x.camera = 2) ∨
      (s.ul.xact.any fun x => match x.req with | .cueReq y => y.camera = 2 | _ => false) = true
    let red (out : Bool) (n : Nat) : State :=
      { cueState { CamRec.reset with delivery := .unconfirmed, applied := ⟨true, false, false⟩, cueOut := out, reports := n } with
        mail.tallyReports := [reportSeen true] }
    (newer { s .sent true (q false 0) with ul.cueQ := [q true 0] } ∧ (camOf (s .sent false (q false 0)) 2).cueOut = false ∧
      (q false 1).epoch ≠ (s .sent true (q false 1)).tally.epochs.getD 2 0) ∧
    (∀ d ∈ [Delivery.confirmed, .unconfirmed], ∀ b, ¬newer (s d true (q b 0)) ∧ (camOf (s d true (q b 0)) 2).cueOut = true ∧
      (q b 0).epoch = (s d true (q b 0)).tally.epochs.getD 2 0 ∧ (camOf (s d true (q b 0)) 2).delivery = d ∧
      (s d true (q b 0)).mail.cueOutcomes = [(q b 0, true)]) ∧
    (∀ out, (red out 0).mail.tallyReports = [reportSeen true] ∧ (camOf (red out 0) 2).delivery = .unconfirmed ∧
      (camOf (red out 0) 2).cueOut = out ∧ (reportSeen true).echoOn camDef.chan ≠ (camOf (red out 0) 2).applied) ∧
    ((reportSeen true).channels.length ≤ 2 ∧ (reportSeen true).channels[1]? = some (channelSeen true)) := by
  refine ⟨?_, ?_, ?_, ?_⟩ <;> decide +kernel

/-- Two beltpacks on one unit, one with a known image: one edge; and a REPORT that shows the images kept. -/
theorem witness_RouterSteps_reports :
    let pack : LinkDef := { camDef with kind := .beltpack }
    let seen : Report := { unit := 20, channels := [channelSeen true, { channelSeen true with key1 := true }] }
    let s (im : Option (Bool × Bool)) : State :=
      { run0 with router.defs := [some pack, some { pack with chan := 0 }, none], router.images := [im, none, none]
                  mail.routerReports := [seen] }
    (∀ im ∈ [none, some (true, false)], (s im).mail.routerReports = [seen]) ∧
    ((channelSeen true).key0 = false ∧ edgesOf seen (s (some (true, true))).router = [{ link := 0, key := 0, press := false }] ∧
      edgesOf seen (s none).router = []) ∧
    (let t := { s (some (false, true)) with router.images := [some (false, true), some (false, false), none] }
     t.mail.routerReports = [seen] ∧ edgesOf seen t.router = []) := by decide +kernel

/-- A crosspoint word that waits is replaced where it stands, and another joins the end. -/
theorem witness_RouterSteps_words :
    let w (code : Nat) : XWord := { output := 3, input := 4, code := code }
    let v : XWord := { output := 3, input := 5, code := 7 }
    (∃ x ∈ [v, w 1], x.output = (w 2).output ∧ x.input = (w 2).input) ∧ (∀ x ∈ [v], ¬(x.output = (w 2).output ∧ x.input = (w 2).input)) ∧
      placeWord [v, w 1, v] (w 2) = [v, w 2, v] ∧ placeWord [v] (w 2) = [v, w 2] := by decide +kernel

/-! ### Witnesses of the clauses on writes of the directory, spares, REPORTs and delays -/

/-- A boundary at which a SET_CLOCK sets the reading that stood there, and a rejection of the same tables again: the directory's count
goes up by 2 (R134 step 3, R158). -/
theorem test_directory_written_again :
    let clock := { run0 with tb.sec := 5, tb.frame := 3, tb.clockWait := some (tagOf 12, 5, 3) }
    let shut : AdoptStatus := { result := .rejected, reason := .badReference, subject := some 0, gen := 0 }
    let cue := { cueBegun (Memory.writeBytes [] 0x4380 [3#8, 0#8]) with adopt.cue.status := shut }
    (match exec .frameBoundary clock with
      | .next t => decide (t.tb.sec = 5 ∧ t.tb.frame = 3 ∧ t.counts.directory = 2)
      | _ => false) = true ∧
    (match exec .cueAdoption cue with
      | .next t => decide (t.adopt.cue.status = shut ∧ t.counts.directory = 2)
      | _ => false) = true := by decide +kernel

theorem witness_ChangeCountsFollowRecords_directory :
    let m := Memory.writeBytes [] 0x4380 [3#8, 0#8]
    (run0.part = .running ∧ 192 ≤ ({ run0 with tb.tick := 192 } : State).tb.tick) ∧
    ((cueBegun m).adopt.cue.stage = .begun ∧ (stationBegun []).adopt.station.stage = .begun) ∧
    (writesDirectory run0 { run0 with tb.frames := 1 } .timebase = true ∧ writesDirectory run0 run0 .timebase = false ∧
      writesDirectory run0 { run0 with adopt.cue.written := 1 } .adoption = true ∧ writesDirectory run0 run0 .adoption = false) := by
  decide +kernel

/-- One spare added of three: with places left, and with none. -/
theorem witness_FillReserveSteps_next :
    let sv : Service := { filling with awaiting := true, fill.added := 0, search.best := [(25000, 7)] }
    let s (n : Nat) : State :=
      { serving sv with
        mail.engineAnswers := [.appended .ok none]
        ctl.reserve := (List.range n).map fun i => { code := i, cls := 0, zone := 0, fill := ⟨0, 0, 0⟩ } }
    (sv.req = .fill (tagOf 5) caseOne ∧ sv.fill.added + 1 ≠ caseOne.count ∧ sv.search.best = [(25000, 7)]) ∧
    (∀ n ∈ [31, 32], Memory.wf (s n).mem ∧ (s n).eng.service = some sv ∧ (s n).mail.engineAnswers = [.appended .ok none]) ∧
    ((s 31).ctl.reserve.length < 32 ∧ 32 ≤ (s 32).ctl.reserve.length) := by decide +kernel

/-- A link held for its order, and the second REPORT of a LEARNING link with its role on. -/
theorem witness_ReportsMissesAndTally_held :
    let s (v : LinkRec) : State := { linkState v LinkAux.reset with mail.supervisorReports := [reportSeen true] }
    let hold := { recOf .holding with hold := some HoldReason.order }
    let learning := { recOf .learning with learning := 1 }
    (∀ v ∈ [hold, learning], LinkZero (s v) ∧ (s v).mail.supervisorReports = [reportSeen true] ∧ (reportSeen true).unit = camDef.unit) ∧
    (((s hold).link 0).vis.state = .holding ∧ ((s hold).link 0).vis.hold = some .order) ∧
    (((s learning).link 0).vis.learning = 1 ∧ ((s learning).link 0).aux.outstanding = false ∧
      ((s learning).link 0).aux.killWait = [] ∧
      ∃ x ∈ camDef.declared, (((reportSeen true).channel camDef.chan).role x).on = true) := by
  decide +kernel

/-- A KEY below -20.0 dB. -/
theorem witness_RouterSteps_level :
    let s := { run0 with router.plan := earPlan, router.keys := earKeys 2, mail.routerOrders := [.key (tagOf 9) 2 5 7 true true (-41)] }
    s.router.plan.usable 2 5 = true ∧ s.router.keys[2]? = some none ∧
      (match exec .key s with
        | .next t => decide ((t.router.keys.getD 2 none).map (·.level) = some (-40))
        | _ => false) = true := by decide +kernel

/-- A running delay count below the delay and at it; the flags of the records a report can have. -/
theorem witness_delays_and_flags :
    let s (n : Nat) : State := { run0 with jw.delayCount := some n }
    ((s 24).jw.delayCount = some 24 ∧ 24 < (s 24).jw.delayFrames ∧ ¬25 < (s 25).jw.delayFrames) ∧
    (95 < run0.sup.links.length ∧ 31 < run0.tally.cams.length ∧ 31 < run0.router.dests.length ∧ 63 < run0.jw.cellPending.length) := by
  decide +kernel

/-! ### Witnesses of the clauses added for the fifth review -/

/-- A word of the highest code on the crosspoint port (R128), and a step. -/
theorem witness_RouteLawKept_codes :
    let s := { run0 with router.portSending := some { output := 0, input := 0, code := 185 }, pending := [.post 5] }
    CodeLaw s ∧ ∃ t, step s = .next t := by
  refine ⟨⟨?_, ?_⟩, _, rfl⟩
  · rintro w (h | h)
    · exact absurd h (List.not_mem_nil)
    · cases h; decide
  · rintro r (h | h) c hc
    · have : ∀ r ∈ Router.reset.staged, ∀ c ∈ r, c ≤ 185 := by decide +kernel
      exact this r h c hc
    · have : ∀ r ∈ Router.reset.applied, ∀ c ∈ r, c ≤ 185 := by decide +kernel
      exact this r h c hc

/-- The TUNE of a retune on the line of camera 3, which shows programme since (R72). -/
theorem witness_NoPermitFrameBegunWhileKilled_programme :
    let r := { tuneReq with forRetune := true }
    let s := onAir { linkState (recOf .retuning) LinkAux.reset with ul.xact := some (onLine (.controlReq r)), pending := [.post 5] }
    ∃ t x, step s = .next t ∧ t.permitFrame = some x ∧ x.req = .controlReq r ∧ r.kind = .tune ∧ r.forRetune = true ∧
      t.linkDef r.link = some camDef ∧ camDef.camera = 2 + 1 ∧ (camOf t 2).applied.programme = true :=
  ⟨_, _, rfl, rfl, rfl, rfl, rfl, rfl, rfl, by decide +kernel⟩

/-- A host word 129 behind the head, with 128 it is read as it stands (R164). -/
theorem witness_NoticeRegisterWrites_behind :
    let s (n : Nat) : State := { run0 with jw.head := n }
    (2 : Word).getLsbD 1 = true ∧ (s 129).jw.head < 65536 ∧ 1 ≤ (s 129).jw.threshold ∧
      128 < ((s 129).jw.head + 65536 - takenWord (s 129)) % 65536 ∧ ¬128 < ((s 128).jw.head + 65536 - takenWord (s 128)) % 65536 ∧
      (s 129).jw.entries.length = 128 ∧ (readTaken (s 129)).jw.taken = 129 ∧ (readTaken (s 129)).jw.killPending = true ∧
      (readTaken (s 128)).jw.taken = 0 ∧ (readTaken (s 128)).jw.killPending = false := by decide +kernel

/-- A plan order with a free place, with none, and behind a request that stands by (R43, R156). -/
theorem witness_PlanQueuePlaces_dispatch :
    let audit := cellState 7 []
    let full := { audit with eng.queue := List.replicate 8 .internalAudit }
    let behind := { audit with eng.standby := [planReq0] }
    let joins (s : State) : Bool := match exec .auditPlan s with
      | .next t => decide (t.eng.queue = s.eng.queue ++ [.audit (tagOf 7)] ∧ t.disp.intake = [])
      | _ => false
    let waits (s : State) : Bool := match exec .auditPlan s with
      | .next t => decide (t.eng.queue = s.eng.queue ∧ t.disp.intake = [3] ∧ t.disp.waiting = some (.plan (.audit (tagOf 7))))
      | _ => false
    (∀ s ∈ [audit, full, behind], Memory.wf s.mem ∧ s.disp.waiting = none ∧ s.disp.intake = [3] ∧
      byteAt s.mem (cellBase 3) = 1 ∧ parseOrder s.mem 3 = .taken (.plan (.audit (tagOf 7)))) ∧
    (audit.eng.queue.length < 8 ∧ audit.placeWanted = false ∧ 8 ≤ full.eng.queue.length ∧ behind.placeWanted = true) ∧
    joins audit = true ∧ waits full = true ∧ waits behind = true := by decide +kernel

/-- Cells that hold a PLAN_QUERY and a FILL_RESERVE. -/
theorem witness_PlanQueuePlaces_kinds :
    let params : List Byte := [0, 0, 1, 0] ++ leBytes 19380 4 ++ leBytes 19460 4 ++ leBytes 0xFFFFFFFF 4 ++ [3]
    let s (k : Nat) : State := cellState k params
    (∀ k ∈ [4, 5], Memory.wf (s k).mem ∧ (s k).disp.waiting = none ∧ (s k).disp.intake = [3] ∧
      byteAt (s k).mem (cellBase 3) = 1) ∧
    (∃ p, parseOrder (s 4).mem 3 = .taken (.plan (.query (tagOf 4) p))) ∧
    (∃ p, parseOrder (s 5).mem 3 = .taken (.plan (.fill (tagOf 5) p))) := by
  refine ⟨by decide +kernel, ⟨caseOne, by decide +kernel⟩, ⟨caseOne, by decide +kernel⟩⟩

/-- A LIVE UPDATE of two changes: a removal, and a new entry made LIVE. -/
theorem witness_UpdateOfOneEntry_list :
    let c (code : Nat) (x : EntryChange) : CarrierChange := { role := .inbound, code := code, change := x }
    let r : CtlReq := .update 4 1 true [c 19420 .remove, c 19440 (.become .live)]
    let s := { asks r with ctl.table := tableABO.set 3 (some (entryOf 4 .inbound 19440 .reserved)) }
    s.ctl.queue = [r] ∧ s.ctl.carrierGen < 65536 ∧
    (match exec .update s with
      | .next t => decide (slotOf t.ctl.table 1 = none ∧ (slotOf t.ctl.table 3).map (·.state) = some .live ∧
          t.mail.liveAnswers.map (·.outcomes) = [[.ok, .ok]])
      | _ => false) = true := by decide +kernel

/-- The window of a role, of one that is not declared, and of a link that is not defined (R46). -/
theorem witness_ServiceStartTakesTheHead_roles :
    let s := linkState (recOf .planning) LinkAux.reset
    s.linkDef 0 = some camDef ∧ s.linkDef 1 = none ∧ (s.rolePlan 0 .outbound).isSome = true ∧ s.rolePlan 0 .inbound = none ∧
      firstOnGrid 19381 20 7 = 19387 ∧ SearchRun.idle.found ≤ 65535 ∧ SearchRun.idle.evaluated ≤ 65535 := by decide +kernel

/-- Both roles to be searched: OUTBOUND first, and INBOUND with the code chosen beside it. -/
theorem witness_PlanningAttempts_roles :
    let r := { planReq0 with search := [.inbound, .outbound] }
    let narrow := some { outRole with lo := 19280, hi := 19282 }
    let s := { linkState (recOf .planning) { LinkAux.reset with seq := 1 } with
      sup.defs := [some { camDef with outRole := narrow, inRole := some { outRole with lo := 30000, hi := 30002 } }] }
    let v := beginAttempt r (Service.idle (.planning r)) s
    v.role = some .outbound ∧ v.todo = [.inbound] ∧ (v.search.toEnd s.ctl).best ≠ [] ∧
      (finishAttempt r s 2 v).role = none ∧ (finishAttempt r s 2 v).chosen.map (·.1) = [.outbound, .inbound] := by decide +kernel

/-- An earlier PARK in service, its PURGE waiting and answered (R75). -/
theorem witness_ParkLinkSteps_overlap :
    let o := { orderOf .park with tag := { cell := 4, kind := 2, clamped := false } }
    let a : LinkAux := { orderAux .park with purges := 1, parkMute := .waiting }
    let s (q : List CtlReq) : State := { ordering o (recOf .parked) a with ctl.queue := q }
    ∀ q ∈ [[CtlReq.purge 0], []], Ordered (s q) o ∧ o.kind = .park ∧ ((s q).link 0).vis.state = .parked ∧
      ((s q).link 0).aux.order = some (orderOf .park) ∧ (orderOf .park).tag.cell ≠ o.tag.cell := by decide +kernel

/-- Answers that refuse, and OK on programme to a retune and a failover whose permit is not kept (R64, R72, R74). -/
theorem witness_LinkAnswers_refused :
    let role : RoleAnswer := { role := .outbound, result := .ok, code := 19400, slot := some 0, verdict := none }
    let p (r : ResultCode) : PlanAnswer :=
      { link := 0, seq := 1, result := r, afterCancel := false, roles := [role], attempts := 2, nothingFor := none, genChanged := false }
    let i (r : ResultCode) : InsertAnswer := { link := 0, seq := 1, result := r, roles := [role] }
    let retune (b : Bool) : State := onAir (linkState (seqRec .retuning .retune .inserting)
      { orderAux .retune with began := .active, planOut := b, outstanding := !b })
    let failover := linkState (seqRec .retuning .failover .inserting) { LinkAux.reset with seq := 1, began := .active }
    let planned (r : ResultCode) : State := { retune true with mail.planAnswers := [p r] }
    let own (r : ResultCode) : State := { retune false with mail.insertAnswers := [i r] }
    let taken (r : ResultCode) : State := { onAir failover with mail.takeAnswers := [i r] }
    (∀ r ∈ [ResultCode.ok, .noCandidate, .contended, .cancelled], LinkZero (planned r) ∧ (planned r).mail.planAnswers = [p r] ∧
      (p r).seq = ((planned r).link 0).aux.seq ∧ ((planned r).link 0).aux.planOut = true ∧
      ((planned r).link 0).aux.order = some (orderOf .retune) ∧ (orderOf .retune).kind ≠ .park ∧
      ((planned r).link 0).aux.outstanding = false) ∧
    (∀ r ∈ [ResultCode.ok, .tableFull], LinkZero (own r) ∧ (own r).mail.insertAnswers = [i r] ∧ (i r).seq = ((own r).link 0).aux.seq ∧
      ((own r).link 0).vis.phase = .inserting ∧ ((own r).link 0).aux.order = some (orderOf .retune)) ∧
    (∀ s ∈ [planned .ok, own .ok], (s.link 0).vis.seqKind = .retune ∧ (s.link 0).aux.permitKept = false ∧
      s.onProgramme camDef.camera = true ∧ (s.link 0).aux.held = [] ∧ (s.link 0).aux.killWait = [] ∧
      ∀ r ∈ bothRoles, ((s.link 0).vis.inSequence r = true ↔ r = role.role)) ∧
    (∀ r ∈ [ResultCode.ok, .tableFull, .wrongState], LinkZero (taken r) ∧ (taken r).mail.takeAnswers = [i r] ∧
      (i r).seq = ((taken r).link 0).aux.seq ∧ ((taken r).link 0).vis.phase = .inserting ∧
      ((taken r).link 0).vis.seqKind = .failover ∧ ((taken r).link 0).vis.state = .retuning ∧
      ((taken r).link 0).aux.began = .active ∧ ((taken r).link 0).aux.order = none ∧ ((taken r).link 0).aux.permitKept = false ∧
      (taken r).onProgramme camDef.camera = true ∧ ((taken r).link 0).aux.staleExpired = false ∧
      ((taken r).link 0).vis.misses < (taken r).sup.settings.missLimit) := by
  refine ⟨?_, ?_, ?_, ?_⟩ <;> decide +kernel

/-- LEARN of two roles, one TABLE_FULL, with the kill clear and ASSERTED, with and without an OUTBOUND role (R76). -/
theorem witness_LinkAnswers_learn :
    let x (r : Role) (c : ResultCode) : RoleAnswer := { role := r, result := c, code := 19400, slot := none, verdict := none }
    let a : InsertAnswer := { link := 0, seq := 1, result := .ok, roles := [x .outbound .ok, x .inbound .tableFull] }
    let two := { camDef with inRole := some outRole, auto := true }
    let s (d : LinkDef) (b : Bool) : State :=
      { linkState (recOf .learning) { LinkAux.reset with seq := 1 } with
        sup.defs := [some d], kc.asserted := b, mail.learnAnswers := [a] }
    let deaf := { two with outRole := none }
    (∀ d ∈ [two, deaf], ∀ b ∈ [true, false], Memory.wf (s d b).mem ∧ 0 < (s d b).sup.links.length ∧ (s d b).linkDef 0 = some d ∧
      (s d b).mail.learnAnswers = [a] ∧ a.seq = ((s d b).link 0).aux.seq ∧ ((s d b).link 0).vis.state = .learning ∧
      (s d b).kc.asserted = b ∧ ((s d b).link 0).aux.held = [] ∧ ((s d b).link 0).aux.killWait = [] ∧
      ((s d b).link 0).vis.misses < (s d b).sup.settings.missLimit) ∧
    two.outRole.isSome = true ∧ deaf.outRole = none ∧
    (match exec .learnAnswer (s two true) with
      | .next t => decide ((t.linkRec 0).state = .killed ∧ (t.linkRec 0).untracked = true ∧ t.mail.muteLists.length = 1)
      | _ => false) = true := by
  refine ⟨?_, ?_, ?_, ?_⟩ <;> decide +kernel

/-- A guard interval of 0, and TUNEs and an UNMUTE that failed without an order or of a retune. -/
theorem witness_ControlOutcomes_failed :
    let x (k : ControlKind) (r : ControlResult) : ControlOutcome := { link := 0, seq := 1, kind := k, result := r }
    let s (v : LinkRec) (a : LinkAux) (k : ControlKind) (r : ControlResult) : State := { linkState v a with mail.controlOutcomes := [x k r] }
    let ended (s : State) (k : ControlKind) (r : ControlResult) : Prop :=
      LinkZero s ∧ s.mail.controlOutcomes = [x k r] ∧ (x k r).seq = (s.link 0).aux.seq ∧ (s.link 0).aux.outstanding = false ∧
        (s.link 0).aux.killWait = []
    let free := { LinkAux.reset with seq := 1, began := .active }
    let quick := { s (seqRec .tuning .enable .tuneSent) (orderAux .enable) .tune .acked with ctl.rules := PlanRules.reset }
    let moved := s (seqRec .retuning .retune .tuneSent) { orderAux .retune with began := .active } .tune .failed
    let failover := s (seqRec .retuning .failover .tuneSent) free .tune .failed
    let restore := s (seqRec .killed .restore .tuneSent) { free with began := .killed } .tune .failed
    let deaf := s (seqRec .killed .restore .unmuting) { free with began := .killed } .unmute .failed
    (ended quick .tune .acked ∧ (quick.link 0).vis.phase = .tuneSent ∧ largestOf quick 0 ClassDef.guardMs = 0) ∧
    (ended moved .tune .failed ∧ (moved.link 0).vis.seqKind = .retune ∧ (moved.link 0).aux.order = some (orderOf .retune) ∧
      (orderOf .retune).kind ≠ .park ∧ (moved.link 0).vis.newCodes ≠ []) ∧
    (ended failover .tune .failed ∧ (failover.link 0).vis.seqKind = .failover ∧ (failover.link 0).aux.began = .active ∧
      (failover.link 0).aux.order = none) ∧
    (ended restore .tune .failed ∧ (restore.link 0).vis.seqKind = .restore ∧ (restore.link 0).aux.order = none) ∧
    (ended deaf .unmute .failed ∧ (deaf.link 0).vis.phase = .unmuting ∧ (deaf.link 0).aux.order = none) := by
  refine ⟨?_, ?_, ?_, ?_, ?_⟩ <;> decide +kernel

/-- A link of camDef with automatic failover and a LOST role, 20 s after the start. -/
def failing (v : LinkRec) (a : LinkAux) : State :=
  { linkState { v with outRec := { RoleRec.reset with health := some .lost } } a with
    sup.defs := [some { camDef with auto := true }], tb.elapsed := 20 * 768000 }

/-- An evaluation that is wanted, on programme and off, and a FAILOVER hold that is over (R71, R73). -/
theorem witness_LinkTimers_evaluation :
    let off := failing (recOf .active) LinkAux.reset
    let held := { failing { recOf .holding with hold := some .failover } LinkAux.reset with sup.defs := [some camDef] }
    (∀ s ∈ [off, onAir off], 0 < s.sup.links.length ∧ s.linkDef 0 = some { camDef with auto := true } ∧
      (s.link 0).vis.state = .active ∧ (s.link 0).aux.order = none ∧ s.kc.asserted = false ∧ failoverWanted s 0 = true ∧
      (s.link 0).aux.retryAt = none ∧ (s.link 0).aux.outstanding = false ∧ (s.link 0).aux.killWait = []) ∧
    (off.onProgramme camDef.camera = false ∧ (onAir off).onProgramme camDef.camera = true) ∧
    (held.linkDef 0 = some camDef ∧ (held.link 0).vis.state = .holding ∧ (held.link 0).vis.hold = some .failover ∧
      failoverWanted held 0 = false) := by
  refine ⟨?_, ?_, ?_⟩ <;> decide +kernel

/-- The retry timer with a role failing, while ASSERTED and in HOLDING; the stale timer in a FAILOVER hold, in PARKED and at the miss
limit (R74, R90, R94). -/
theorem witness_LinkTimers_retry_and_stale :
    let retry := failing (recOf .active) { LinkAux.reset with retryAt := some 0 }
    let hold := { recOf .holding with hold := some HoldReason.failover }
    let stale (v : LinkRec) : State := failing v { LinkAux.reset with staleFrom := some (17 * 768000), retryAt := some 0 }
    let z (s : State) : Prop := 0 < s.sup.links.length ∧ s.part = .running ∧ s.linkDef 0 = some { camDef with auto := true } ∧
      (s.link 0).aux.retryAt = some 0 ∧ 0 ≤ s.tb.elapsed
    (z retry ∧ retry.kc.asserted = false ∧ failoverWanted retry 0 = true ∧ (retry.link 0).vis.state = .active ∧
      (retry.link 0).aux.order = none) ∧
    ({ retry with kc.asserted := true } : State).kc.asserted = true ∧
    (∀ v ∈ [hold, recOf .parked, { recOf .active with misses := 8 }], z (stale v) ∧
      (stale v).kc.asserted = false ∧ ((stale v).link 0).aux.staleFrom = some (17 * 768000) ∧
      17 * 768000 + (stale v).sup.settings.staleFactor * (stale v).sup.settings.periodMs * 768 ≤ (stale v).tb.elapsed ∧
      ((stale v).link 0).aux.staleExpired = false) ∧
    ((stale hold).link 0).vis.state ≠ .active ∧ ¬((recOf .parked).state = .active ∨ (recOf .parked).state = .holding) := by
  refine ⟨?_, ?_, ?_, ?_, ?_⟩ <;> decide +kernel

/-- REPORTs and misses with automatic failover in ACTIVE and in a FAILOVER hold, and of a restoration in SETTLING (R67, R91, R94). -/
theorem witness_ReportsMissesAndTally_rated :
    let seen (s : State) (on : Bool) : State := { s with mail.supervisorReports := [reportSeen on], mail.missedUnits := [20] }
    let hold := { recOf .holding with hold := some HoldReason.failover }
    let restoring := seqRec .killed .restore .settling
    let moving := { restoring with outRec := { RoleRec.reset with fresh := some 19401 } }
    (∀ v ∈ [recOf .active, hold], ∀ b ∈ [true, false],
      let s := seen (failing v LinkAux.reset) b
      0 < s.sup.links.length ∧ s.linkDef 0 = some { camDef with auto := true } ∧ s.mail.supervisorReports = [reportSeen b] ∧
        (reportSeen b).unit = camDef.unit ∧ s.mail.missedUnits = [20] ∧ (s.link 0).vis.state = v.state ∧ s.linkDef 1 = none) ∧
    (∀ v ∈ [restoring, moving], LinkZero (seen (linkState v LinkAux.reset) true) ∧ v.state ∈ [LinkState.tuning, .retuning, .killed] ∧
      v.phase = .settling) ∧
    (∀ x ∈ bothRoles, restoring.inSequence x = true → (((reportSeen true).channel camDef.chan).role x).settled = true ∧
      (restoring.role x).fresh = some (((reportSeen true).channel camDef.chan).role x).code) ∧
    (moving.inSequence .outbound = true ∧
      (moving.role .outbound).fresh ≠ some (((reportSeen true).channel camDef.chan).role .outbound).code) := by
  refine ⟨?_, ?_, ?_, ?_⟩ <;> decide +kernel

/-- A list of two MUTEs while ASSERTED, one of a link whose MUTE waits already, and a release at the router. -/
theorem witness_KillMutesAndViews_lists :
    let x (l : Nat) : MuteTarget := { link := l, unit := 20, chan := 1, roleOut := true, roleIn := false }
    let s := { run0 with
      kc.asserted := true, mail.muteLists := [[x 0, x 1]]
      kc.mutes := { MuteRec.reset with state := .waiting, target := some (x 0) } :: List.replicate 95 MuteRec.reset }
    let one := { run0 with kc.asserted := true, mail.muteLists := [[x 1]] }
    let r := { run0 with router.killed := true, mail.killToRouter := [false] }
    (s.kc.asserted = true ∧ s.mail.muteLists = [[x 0, x 1]] ∧ (s.kc.mutes.getD 0 MuteRec.reset).state = .waiting ∧
      (match exec .killMuteList { s with ul.xact := some (onLine (.killReq .silence)) } with
        | .next t => decide (t.ul.killQ = [.mute 1 s.kc.epoch 1 20 1 true false])
        | _ => false) = true) ∧
    (one.mail.muteLists = [[x 1]] ∧ one.kc.mutes.getD 1 MuteRec.reset = MuteRec.reset ∧ 1 < one.kc.mutes.length) ∧
    (r.mail.killToRouter = [false] ∧
      (match exec .routerKillState r with
        | .next t => decide (t.router.killed = false)
        | _ => false) = true) := by
  refine ⟨?_, ?_, ?_⟩ <;> decide +kernel

/-- A host word far behind at a report and at the walk's own read (R164, R166). -/
theorem witness_ResyncWalk_behind :
    let r := reportOf (.linkRec 0) .none
    let s := { run0 with jw.head := 129, mail.reports := [(.supervisor, r)] }
    s.mail.reports = [] ++ (.supervisor, r) :: [] ∧ 128 < (s.jw.head + 65536 - takenWord s) % 65536 ∧ s.jw.head < 65536 ∧
      s.jw.entries.length = 128 ∧
      (takeOldestReport .supervisor s).jw.taken = 129 ∧ (takeOldestReport .supervisor s).jw.walking = true ∧
      (resyncStep s).jw.head = 130 ∧ (resyncStep s).jw.killPending = false ∧ (resyncStep s).jw.tablePending = true := by
  decide +kernel

/-! ### States of the statements on reports, rebuilds, holds and the timebase -/

/-- A NOTICE_CLEAR of JOURNAL with a record pending, with room and with 128 unread (R164, R168). -/
theorem witness_NoticeRegisterWrites_pending :
    let s (n : Nat) : State := { run0 with jw.head := n, jw.killPending := true }
    (2 : Word).getLsbD 1 = true ∧ ∀ n ∈ [127, 128], (s n).jw.head < 65536 ∧ (firstPending (s n)).isSome = true ∧
      ((s n).jw.head + 65536 - takenWord (s n)) % 65536 = n := by decide +kernel

/-- A tally change in a FAILOVER hold: on programme still, off it with a role failing, and off it with none (R71). -/
theorem witness_ReportsMissesAndTally_failoverHold :
    let told (s : State) : State := { s with mail.tallyChanges := [3] }
    let hold := told (failing { recOf .holding with hold := some .failover } LinkAux.reset)
    let ended := { hold with sup.defs := [some camDef] }
    (∀ s ∈ [hold, onAir hold, ended], 0 < s.sup.links.length ∧ s.sup.defs.length = 1 ∧ s.mail.tallyChanges = [3] ∧
      (s.link 0).vis.state = .holding ∧ (s.link 0).vis.hold = some .failover ∧ (s.link 0).aux.outstanding = false ∧
      (s.link 0).aux.killWait = []) ∧
    (∀ s ∈ [hold, onAir hold], s.linkDef 0 = some { camDef with auto := true }) ∧ ended.linkDef 0 = some camDef ∧
    camDef.camera = 3 ∧ (onAir hold).onProgramme 3 = true ∧ hold.onProgramme 3 = false ∧ failoverWanted hold 0 = true ∧
    ended.onProgramme 3 = false ∧ failoverWanted ended 0 = false := by
  refine ⟨?_, ?_, ?_, ?_, ?_, ?_, ?_, ?_, ?_⟩ <;> decide +kernel

/-- A rebuild of the unit list whose round keeps its unit, and one whose round is left without any, with a poll out and not (R96). -/
theorem witness_SweepAttentionAndLineTest_rebuild :
    let s (round : List Nat) (out : Bool) : State :=
      { linkState (recOf .active) LinkAux.reset with ul.uatn := true, ul.roundSet := round, ul.attnOut := out }
    let capable (s : State) : List Nat := attentionCapable { s with ul.units := unitList s.sup.defs }
    let kept (s : State) : List Nat := s.ul.roundSet.filter fun u => (capable s).contains u
    (∀ out, kept (s [9] out) = [] ∧ kept (s [9, 20] out) = [20] ∧ capable (s [9] out) = [20] ∧ (s [9] out).ul.uatn = true ∧
      (s [9] out).ul.attnOut = out ∧ (s [9] out).part = .running) ∧
    nextAddress [20] none = some 20 := by decide +kernel

/-- R96: the round is filled again in the rebuild itself, also while an attention poll is out. -/
theorem test_rebuild_refills_with_poll_out :
    let s := { linkState (recOf .active) LinkAux.reset with ul.uatn := true, ul.roundSet := [9], ul.attnOut := true }
    (rebuildUnits s).ul.roundSet = [20] := by decide +kernel

/-- The KILL class with a SILENCE and the waiting MUTE of a link, and empty in CLEAR (R85). -/
theorem witness_ArbiterTakesHighestClass_kill :
    let x : MuteTarget := { link := 0, unit := 20, chan := 1, roleOut := true, roleIn := false }
    let s := { run0 with
      kc.asserted := true, ul.killQ := [.silence, .mute 0 0 1 20 1 true false]
      kc.mutes := run0.kc.mutes.set 0 { MuteRec.reset with state := .waiting, target := some x, serial := 1 } }
    KillClassLaw s ∧ KillClassLaw run0 := by decide +kernel

/-- R85: a MUTE listed again while the first is IN_PROGRESS waits; the failure of the first leaves it the only one. -/
theorem test_kill_mute_listed_again :
    let x : MuteTarget := { link := 0, unit := 20, chan := 1, roleOut := true, roleIn := false }
    let first := { state := MuteState.inProgress, failedBefore := false, target := some x, serial := 1 }
    let s := placeMute x { run0 with kc.asserted := true, kc.mutes := run0.kc.mutes.set 0 first }
    let t := killMuteOutcomeStep { s with mail.killMuteOutcomes := [(0, 0, 1, false)] }
    t.ul.killQ = [.mute 0 0 2 20 1 true false] ∧ t.kc.mutes.getD 0 MuteRec.reset =
      { state := .waiting, failedBefore := true, target := some x, serial := 2 } := by decide +kernel

/-- A SET_CLOCK that waits at a boundary and at a pulse (R137). -/
theorem witness_TimebaseSteps_clock :
    let s (tick : Nat) : State := { run0 with tb.tick := tick, tb.clockWait := some (tagOf 12, 86399, 24) }
    ∀ tick ∈ [191, 192], Memory.wf (s tick).mem ∧ (s tick).part = .running ∧ (s tick).tb.clockWait = some (tagOf 12, 86399, 24) ∧
      (s tick).tb.buffered = none ∧ (s tick).tb.locked = false ∧ (192 ≤ (s tick).tb.tick ↔ tick = 192) := by decide +kernel

/-- An APPLY whose crosspoints answer first, and two of one output (R142). -/
theorem witness_TimebaseReference_applies :
    let a : ApplyOrder := { tag := tagOf 11, lampWait := .waiting, xpWait := .waiting }
    let b (x y : ApplyWait) (c : Nat) : ApplyOrder := { tag := { tagOf 11 with cell := c }, lampWait := x, xpWait := y }
    let s (l : List ApplyOrder) (o : Output) : State := { run0 with tb.applies := l, mail.applyAnswers := [(o, 2)] }
    let lamps := [b .waiting .notNamed 3, b .waiting .notNamed 4]
    let xp := [b .notNamed .waiting 3, b .notNamed .waiting 4]
    ((s [a] .crosspoints).tb.applies = [a] ∧ (s [a] .crosspoints).mail.applyAnswers = [(.crosspoints, 2)]) ∧
    ((s [b .waiting (.answered 7) 3] .lamps).mail.applyAnswers = [(.lamps, 2)] ∧ Memory.wf (s [a] .lamps).mem) ∧
    (∀ p ∈ [(lamps, Output.lamps), (xp, .crosspoints)], (s p.1 p.2).tb.applies = p.1 ∧
      (s p.1 p.2).mail.applyAnswers = [(p.2, 2)] ∧ (p.1.map fun x => x.tag.cell) = [3, 4]) := by decide +kernel

/-- R40: a LEARN whose entry bears both marks makes three CARRIER entries: LEARNED (3), with CONFLICT (bit 3) and with EXCLUDED (bit 4), by TABLE 12-10. -/
theorem test_learn_reports_each_change :
    let table := put twoInsertions.ctl.table 0 (some (entryOf 1 .outbound 19456 .live))
    let s := { twoInsertions with
      ctl.queue := [.learn 9 1 0 [(.inbound, 19456, 0)]], ctl.table := table, ctl.reserve := [], ctl.rules := rules0 }
    ((learnStep s).mail.reports.drop s.mail.reports.length).map (fun r => (r.2.kind, r.2.values)) =
      [(JKind.carrier, 3 * 2 ^ 24), (.carrier, 3 + 11 * 2 ^ 24), (.carrier, 11 + 27 * 2 ^ 24)] := by decide +kernel

/-- The LINK entries of a step as old and new values. -/
def linkValues (s t : State) : List (Nat × Nat) :=
  (t.mail.reports.drop s.mail.reports.length).filterMap fun r =>
    if r.2.kind = .link then some (r.2.values % 2 ^ 24, r.2.values / 2 ^ 24) else none

/-- TABLE 4-9 step 11, with both roles DEGRADED: ACTIVE (5) from RETUNING (7), then each role's health from DEGRADED (1) to GOOD (0)
with the link health that results (TABLE 12-10: link health from bit 4, role healths from bits 7 and 10). -/
theorem test_active_reports_state_and_health :
    let sick : RoleRec := { RoleRec.reset with health := some .degraded, fresh := some 19400 }
    let v := { seqRec .retuning .failover .unmuting with outRec := sick, inRec := sick, seqOut := true, seqIn := true }
    let s := { linkState v { LinkAux.reset with seq := 1, began := .active } with
      mail.liveAnswers := [{ link := 0, seq := 1, outcomes := [.ok] }] }
    linkValues s (liveUpdateAnswerStep s) =
      [(7 + 7 * 16 + 128 + 1024, 5 + 16 + 128 + 1024), (5 + 16 + 128 + 1024, 5 + 16 + 1024), (5 + 16 + 1024, 5)] := by decide +kernel

/-- TABLE 4-10, variation D: the return to ACTIVE and the block NO_RESERVE (1, from bit 16) are one LINK entry. -/
theorem test_no_reserve_reports_once :
    let a : InsertAnswer := { link := 0, seq := 1, result := .noReserve, roles := [] }
    let v := { seqRec .retuning .failover .inserting with outRec := { RoleRec.reset with health := some .good } }
    let s := { linkState v { LinkAux.reset with seq := 1, began := .active } with mail.takeAnswers := [a] }
    linkValues s (failoverTakeAnswerStep s) = [(7 + 7 * 16 + 7 * 1024, 5 + 7 * 1024 + 2 ^ 16)] := by decide +kernel

/-- OK to a retune's planning request and INSERT and to a failover's TAKE, off programme or with the permit kept: TUNE_SENT (R65). -/
theorem witness_LinkAnswers_permitted :
    let role : RoleAnswer := { role := .outbound, result := .ok, code := 19400, slot := some 0, verdict := none }
    let p : PlanAnswer :=
      { link := 0, seq := 1, result := .ok, afterCancel := false, roles := [role], attempts := 2, nothingFor := none, genChanged := false }
    let a : InsertAnswer := { link := 0, seq := 1, result := .ok, roles := [role] }
    let retune (kept : Bool) : State :=
      linkState (seqRec .retuning .retune .inserting) { orderAux .retune with began := .active, planOut := true, permitKept := kept }
    let failover (kept : Bool) : State :=
      linkState (seqRec .retuning .failover .inserting) { LinkAux.reset with seq := 1, began := .active, permitKept := kept }
    let sent (c : Instr) (s : State) : Bool := match exec c s with
      | .next t => decide ((t.linkRec 0).state = .retuning ∧ (t.linkRec 0).phase = .tuneSent)
      | _ => false
    ∀ s ∈ [(retune false, failover false), (onAir (retune true), onAir (failover true))],
      LinkZero s.1 ∧ LinkZero s.2 ∧ (s.1.link 0).vis.seqKind = .retune ∧ (s.1.link 0).vis.state = .retuning ∧
      (s.1.link 0).vis.phase = .inserting ∧ (s.1.link 0).aux.planOut = true ∧ (s.2.link 0).vis.seqKind = .failover ∧
      ((s.1.link 0).aux.permitKept = true ∨ s.1.onProgramme camDef.camera = false) ∧
      ((s.2.link 0).aux.permitKept = true ∨ s.2.onProgramme camDef.camera = false) ∧
      sent .planningAnswer { s.1 with mail.planAnswers := [p] } = true ∧
      sent .insertionAnswer { s.1 with mail.insertAnswers := [a] } = true ∧
      sent .failoverTakeAnswer { s.2 with mail.takeAnswers := [a] } = true := by decide +kernel

/-- The LIVE UPDATE of a failover and of a restoration is answered (R68, R149). -/
theorem witness_LinkAnswers_live :
    let s (v : LinkRec) : State :=
      { linkState { v with block := .timeout, retuneNeeded := true } { LinkAux.reset with seq := 1, began := .active } with
        mail.liveAnswers := [{ link := 0, seq := 1, outcomes := [.ok] }] }
    ∀ x ∈ [s (seqRec .retuning .failover .unmuting), s (seqRec .killed .restore .unmuting)],
      LinkZero x ∧ (x.link 0).aux.seq = 1 ∧ (x.link 0).vis.phase = .unmuting ∧ (x.link 0).aux.order = none ∧
      (match exec .liveUpdateAnswer x with
        | .next t => decide ((t.linkRec 0).state = .active ∧ (t.linkRec 0).block = .clear ∧ (t.linkRec 0).retuneNeeded = false ∧
            (t.linkRec 0).outRec.present = (x.linkRec 0).outRec.fresh ∧ (x.linkRec 0).outRec.fresh.isSome = true)
        | _ => false) = true := by decide +kernel

/-- A TUNE of a failover withheld for programme, with and without a change of health at the entry into HOLDING; the repeated TUNE failed
and withheld; and the MUTE of a PARK whose link is ACTIVE again (R67, R72, R73, R75). -/
theorem witness_ControlOutcomes_more :
    let x (k : ControlKind) (r : ControlResult) : ControlOutcome := { link := 0, seq := 1, kind := k, result := r }
    let s (v : LinkRec) (a : LinkAux) (k : ControlKind) (r : ControlResult) : State := { linkState v a with mail.controlOutcomes := [x k r] }
    let free := { LinkAux.reset with seq := 1, began := .active }
    let held (stale : Bool) : State :=
      s { seqRec .retuning .failover .tuneSent with outRec := { RoleRec.reset with health := some .good, fresh := some 19400 } }
        { free with staleExpired := stale } .tune (.withheld .programmePart)
    let settling (r : ControlResult) := s (seqRec .tuning .enable .settling) (orderAux .enable) .tune r
    let parked := s (recOf .active) { orderAux .park with parkMute := .waiting, parkSeq := 1 } .mute .failed
    (∀ b ∈ [true, false], LinkZero (held b) ∧ ((held b).link 0).aux.seq = 1 ∧ ((held b).link 0).vis.newCodes ≠ [] ∧
      ((held b).link 0).vis.phase = .tuneSent ∧ ((held b).link 0).vis.seqKind = .failover ∧
      ((held b).link 0).aux.outstanding = false ∧ ((held b).link 0).aux.killWait = [] ∧
      (match exec .tuneWithheld (held b) with
        | .next t => decide ((t.linkRec 0).state = if b then .active else .holding)
        | _ => false) = true) ∧
    (LinkZero (settling .failed) ∧ ((settling .failed).link 0).aux.seq = 1 ∧ ((settling .failed).link 0).vis.phase = .settling) ∧
    (∀ c ∈ [(Instr.tuneFailed, ControlResult.failed), (.tuneWithheld, .withheld .killPart)],
      (match exec c.1 (settling c.2) with
        | .next t => decide ((t.link 0).aux.pollAt = some 7680)
        | _ => false) = true) ∧
    (LinkZero parked ∧ (parked.link 0).aux.parkMute = .waiting ∧ (parked.link 0).aux.purges = 0 ∧ (parked.link 0).aux.parkSeq = 1 ∧
      (parked.link 0).vis.state = .active ∧ (parked.link 0).aux.order = some (orderOf .park)) := by
  refine ⟨?_, ?_, ?_, ?_⟩ <;> decide +kernel

/-- The ends of the adoptions: nothing pending, a request pending with the lock flag clear and set, and the cue adoption that follows
RUN's station adoption (R157, R162). -/
theorem witness_TableAdoptions_ends :
    let bad := Memory.writeBytes [] 0x2400 [1, 9]
    let station (p l q : Bool) : State := { stationBegun bad with
      mem := Memory.writeBytes [] 0x2400 [1, 7], adopt.station.pending := p, lockP.flag := l, lockC.flag := l, adopt.cueAfterStation := q }
    let cue (p l : Bool) : State := { cueBegun [] with adopt.cue.pending := p, lockC.flag := l }
    let ended (c : Instr) (s : State) : List (AdoptStage × Bool × Bool × AdoptStage × Bool) := match exec c s with
      | .next t => [(t.adopt.station.stage, t.adopt.station.pending, t.adopt.station.held, t.adopt.cue.stage, t.adopt.cue.held)]
      | _ => []
    (stationFailure bad [] []).isSome = true ∧ cueFailure [] [] = none ∧
    ended .stationAdoption (station false false true) = [(.idle, false, false, .begun, false)] ∧
    ended .stationAdoption (station true false false) = [(.begun, false, false, .idle, false)] ∧
    ended .stationAdoption (station true true true) = [(.idle, false, true, .idle, true)] ∧
    ended .cueAdoption (cue false false) = [(.idle, false, false, .idle, false)] ∧
    ended .cueAdoption (cue true false) = [(.idle, false, false, .begun, false)] ∧
    ended .cueAdoption (cue true true) = [(.idle, false, false, .idle, true)] := by
  refine ⟨?_, ?_, ?_, ?_, ?_, ?_, ?_, ?_⟩ <;> decide +kernel

theorem witness_DefinitionsReachTheirOwners_ends :
    ∀ p ∈ [true, false], ∀ l ∈ [true, false],
      let s : State := { run0 with
        adopt.station := { AdoptState.reset with stage := .answered, pending := p }, lockP.flag := l, adopt.cueAfterStation := true
        adopt.copy := some (readStation []) }
      s.adopt.station.stage = .answered ∧ s.adopt.copy = some (readStation []) ∧ s.adopt.station.pending = p ∧ s.lockP.flag = l := by
  decide +kernel

end Sys2Proof.Tests
end

section
/-! PROOFS. Chapter 1: what a least margin is, and the spacing check (R11, R14). -/

namespace Sys2Proof.Machine

/-! ### Least margins -/

theorem distance_eq_abs (a b : Int) : distance a b = |a - b| := Int.natCast_natAbs _

/-- A least margin is the least member of the list with the cap at its head. -/
theorem leastMargin_min? (l : List Int) : (4095 :: l).min? = some (leastMargin l) := List.min?_cons' ..

theorem leastMargin_mem (l : List Int) : leastMargin l = 4095 ∨ leastMargin l ∈ l :=
  List.mem_cons.1 (List.min?_eq_some_iff.1 (leastMargin_min? l)).1

theorem leastMargin_le_cap (l : List Int) : leastMargin l ≤ 4095 :=
  (List.min?_eq_some_iff.1 (leastMargin_min? l)).2 _ List.mem_cons_self

theorem leastMargin_le {l : List Int} {m : Int} (h : m ∈ l) : leastMargin l ≤ m :=
  (List.min?_eq_some_iff.1 (leastMargin_min? l)).2 _ (List.mem_cons_of_mem _ h)

@[simp] theorem mem_inZone {zone : Nat} {l : List Carrier} {a : Carrier} : a ∈ inZone zone l ↔ a ∈ l ∧ a.zone = zone := by
  simp [inZone]

/-! ### The spacing check (R11) -/

theorem spacingTo_eq (r : PlanRules) (c k : Nat) (a : Carrier) : spacingTo r c k a =
    |(c : Int) - a.code| - ((r.cls k).hw + (r.cls a.cls).hw + max (r.cls k).eg (r.cls a.cls).eg) := by
  simp [spacingTo, distance_eq_abs, requiredSpacing]

theorem spacingTo_congr {r q : PlanRules} (h : ∀ n, (r.cls n).hw = (q.cls n).hw ∧ (r.cls n).eg = (q.cls n).eg) (c k : Nat)
    (a : Carrier) : spacingTo r c k a = spacingTo q c k a := by
  simp only [spacingTo_eq, h]

theorem spacingMargin_le {r : PlanRules} {c k zone : Nat} {l : List Carrier} {a : Carrier} (ha : a ∈ l) (hz : a.zone = zone) :
    spacingMargin r c k zone l ≤ spacingTo r c k a :=
  leastMargin_le (List.mem_map_of_mem (mem_inZone.2 ⟨ha, hz⟩))

theorem spacingMargin_attained (r : PlanRules) (c k zone : Nat) (l : List Carrier) :
    spacingMargin r c k zone l = 4095 ∨ ∃ a ∈ l, a.zone = zone ∧ spacingMargin r c k zone l = spacingTo r c k a := by
  refine (leastMargin_mem _).imp_right fun h => ?_
  obtain ⟨a, ha, he⟩ := List.mem_map.1 h
  obtain ⟨hl, hz⟩ := mem_inZone.1 ha
  exact ⟨a, hl, hz, he.symm⟩

/-- Settles O41: the least margin is a member of its list or the cap, and each spacing margin reads half widths and edge guards alone. -/
theorem spacingCheck : Obligations.SpacingCheck := by
  refine ⟨spacingTo_eq, ?bound, ?empty, ?least, ?congr⟩
  case bound =>
    intro a b _ _ _ _
    unfold requiredSpacing
    omega
  case empty =>
    intro r c k zone l h
    obtain he | ⟨a, ha, hz, -⟩ := spacingMargin_attained r c k zone l
    · exact he
    · exact absurd hz (h a ha)
  case least =>
    exact fun r c k zone l =>
      ⟨fun _ ha hz => spacingMargin_le ha hz, leastMargin_le_cap _, spacingMargin_attained r c k zone l⟩
  case congr =>
    intro r q c k zone l h
    simp only [spacingMargin, funext (spacingTo_congr h c k)]

end Sys2Proof.Machine
end

section
/-! PROOFS. Members of a list at distinct places, as the formers of a product are (R12, R13): sublists up to order. -/

namespace Sys2Proof.Machine

open scoped List

/-! ### Members of a list at distinct places -/

variable {α : Type} {a b d : α} {l s : List α}

theorem cons_subperm_iff_getElem? : (a :: s) <+~ l ↔ ∃ i, l[i]? = some a ∧ s <+~ l.eraseIdx i := by
  have perm {i : Nat} (h : l[i]? = some a) : (a :: l.eraseIdx i) ~ l := by
    obtain ⟨hi, rfl⟩ := List.getElem?_eq_some_iff.1 h
    exact List.getElem_cons_eraseIdx_perm hi
  constructor
  · intro h
    obtain ⟨i, hi⟩ := List.mem_iff_getElem?.1 (h.subset List.mem_cons_self)
    exact ⟨i, hi, List.subperm_cons a |>.1 (h.trans (perm hi).symm.subperm)⟩
  · rintro ⟨i, hi, h⟩
    exact ((List.subperm_cons a).2 h).trans (perm hi).subperm

theorem pair_subperm_iff : [a, b] <+~ l ↔ ∃ i j : Nat, i ≠ j ∧ l[i]? = some a ∧ l[j]? = some b := by
  simp only [cons_subperm_iff_getElem? (s := [b]), List.singleton_subperm_iff, List.mem_eraseIdx_iff_getElem?]
  constructor
  · rintro ⟨i, hi, j, hj, hb⟩
    exact ⟨i, j, hj.symm, hi, hb⟩
  · rintro ⟨i, j, hij, hi, hb⟩
    exact ⟨i, hi, j, hij.symm, hb⟩

/-- Where place `k` of a list stands once another place is taken out. -/
theorem getElem?_eraseIdx_moved {i k : Nat} (hk : k ≠ i) : (l.eraseIdx i)[if k < i then k else k - 1]? = l[k]? := by
  rw [List.getElem?_eraseIdx]
  by_cases h : k < i
  · simp [h]
  · rw [if_neg h, if_neg (by omega), Nat.sub_add_cancel (by omega)]

theorem pair_subperm_eraseIdx_iff {i : Nat} : [b, d] <+~ l.eraseIdx i ↔
    ∃ j n : Nat, j ≠ i ∧ n ≠ i ∧ j ≠ n ∧ l[j]? = some b ∧ l[n]? = some d := by
  rw [pair_subperm_iff]
  constructor
  · rintro ⟨j, n, hjn, hj, hn⟩
    rw [List.getElem?_eraseIdx, ← apply_ite (l[·]?)] at hj hn
    exact ⟨_, _, by split <;> omega, by split <;> omega, by split <;> split <;> omega, hj, hn⟩
  · rintro ⟨j, n, hj, hn, hjn, hb, hd⟩
    exact ⟨_, _, by split <;> split <;> omega, (getElem?_eraseIdx_moved hj).trans hb, (getElem?_eraseIdx_moved hn).trans hd⟩

theorem triple_subperm_iff : [a, b, d] <+~ l ↔
    ∃ i j n : Nat, i ≠ j ∧ n ≠ i ∧ n ≠ j ∧ l[i]? = some a ∧ l[j]? = some b ∧ l[n]? = some d := by
  simp only [cons_subperm_iff_getElem? (s := [b, d]), pair_subperm_eraseIdx_iff]
  constructor
  · rintro ⟨i, hi, j, n, hj, hn, hjn, hb, hd⟩
    exact ⟨i, j, n, hj.symm, hn, hjn.symm, hi, hb, hd⟩
  · rintro ⟨i, j, n, hij, hn, hnj, hi, hb, hd⟩
    exact ⟨i, hi, j, n, hij.symm, hn, hnj.symm, hb, hd⟩

theorem subperm_filter_iff {p : α → Bool} : s <+~ l.filter p ↔ s <+~ l ∧ ∀ x ∈ s, p x = true := by
  simpa using Multiset.le_filter (p := fun x => p x = true) (s := (s : Multiset α)) (t := l)

theorem mem_picks {o : List α} : (a, o) ∈ picks l ↔ ∃ i, l[i]? = some a ∧ o = l.eraseIdx i := by
  induction l generalizing o with
  | nil => simp [picks]
  | cons x xs ih =>
    simp only [picks, List.mem_cons, Prod.mk.injEq, List.mem_map, Prod.exists]
    constructor
    · rintro (⟨rfl, rfl⟩ | ⟨y, o', h, rfl, rfl⟩)
      · exact ⟨0, rfl, rfl⟩
      · obtain ⟨i, hi, rfl⟩ := ih.1 h
        exact ⟨i + 1, hi, rfl⟩
    · rintro ⟨i, hi, rfl⟩
      cases i with
      | zero => exact Or.inl ⟨(Option.some.inj hi).symm, rfl⟩
      | succ i => exact Or.inr ⟨a, _, ih.2 ⟨i, hi, rfl⟩, rfl, rfl⟩

/-- An element picked and a sublist of the others. -/
theorem exists_mem_picks_iff : (∃ o, (a, o) ∈ picks l ∧ s <+~ o) ↔ (a :: s) <+~ l := by
  simp only [mem_picks, cons_subperm_iff_getElem?]
  constructor
  · rintro ⟨_, ⟨i, hi, rfl⟩, h⟩
    exact ⟨i, hi, h⟩
  · rintro ⟨i, hi, h⟩
    exact ⟨_, ⟨i, hi, rfl⟩, h⟩

theorem exists_mem_picks_pair : (∃ o, (a, o) ∈ picks l ∧ b ∈ o) ↔ [a, b] <+~ l := by
  simp only [← exists_mem_picks_iff (s := [b]), List.singleton_subperm_iff]

theorem exists_mem_picks_triple : (∃ o, (a, o) ∈ picks l ∧ ∃ o', (b, o') ∈ picks o ∧ d ∈ o') ↔ [a, b, d] <+~ l := by
  simp only [← exists_mem_picks_iff (s := [b, d]), exists_mem_picks_pair]

end Sys2Proof.Machine
end

section
/-! PROOFS. Chapter 1: the comparisons of the product checks, the product margin, and what makes a code acceptable (R10, R12 to R15, R18). -/

namespace Sys2Proof.Machine

open scoped List

/-! ### The comparisons of the product checks (R12, R13) -/

theorem distance_comm (a b : Int) : distance a b = distance b a := by
  simp only [distance_eq_abs, abs_sub_comm]

/-- m is the margin of a carrier of the harmed class at code `at'` against a kept product (R10, R12). -/
def ProductCompared (harmed : ClassDef) (q : ProductOrder) (pw : Nat) (value at' m : Int) : Prop :=
  0 ≤ value ∧ value ≤ 131071 ∧ m = |at' - value| - (harmed.hw + pw + harmed.guardFor q : Nat)

theorem Product.kept_iff {x : Product} : x.kept = true ↔ 0 ≤ x.value ∧ x.value ≤ 131071 := by
  simp only [Product.kept, Bool.and_eq_true, decide_eq_true_eq]
  rfl

theorem kept_and_margin_iff {x : Product} {harmed : ClassDef} {at' m : Int} :
    (x.kept = true ∧ distance at' x.value - (harmed.hw + x.pw + harmed.guardFor x.order : Nat) = m) ↔
      ProductCompared harmed x.order x.pw x.value at' m := by
  rw [Product.kept_iff, distance_eq_abs, ProductCompared, and_assoc, eq_comm (a := m)]

/-- The greater half width of two classes. -/
def pairWidth (r : PlanRules) (a b : Carrier) : Nat := max (r.cls a.cls).hw (r.cls b.cls).hw

theorem mem_receivedProducts {r : PlanRules} {e : List Carrier} {x : Product} : x ∈ receivedProducts r e ↔
    (∃ a b, [a, b] <+~ e ∧
      (x = { order := .third, value := 2 * (a.code : Int) - b.code, pw := pairWidth r a b } ∨
        r.fifth = true ∧ x = { order := .fifth, value := 3 * (a.code : Int) - 2 * b.code, pw := pairWidth r a b })) ∨
    (∃ a b d, [a, b, d] <+~ e ∧ r.three = true ∧
      x = { order := .three, value := (a.code : Int) + b.code - d.code, pw := max (pairWidth r a b) (r.cls d.cls).hw }) := by
  simp only [receivedProducts, List.mem_flatMap, Prod.exists, List.mem_append, List.mem_map, List.mem_ite_nil_right]
  constructor
  · rintro ⟨a, o, ho, (⟨b, hb, rfl⟩ | ⟨h5, b, hb, rfl⟩) | ⟨h3, b, o', ho', d, hd, rfl⟩⟩
    · exact .inl ⟨a, b, exists_mem_picks_pair.1 ⟨o, ho, hb⟩, .inl rfl⟩
    · exact .inl ⟨a, b, exists_mem_picks_pair.1 ⟨o, ho, hb⟩, .inr ⟨h5, rfl⟩⟩
    · exact .inr ⟨a, b, d, exists_mem_picks_triple.1 ⟨o, ho, o', ho', hd⟩, h3, rfl⟩
  · rintro (⟨a, b, h, hx⟩ | ⟨a, b, d, h, h3, rfl⟩)
    · obtain ⟨o, ho, hb⟩ := exists_mem_picks_pair.2 h
      obtain rfl | ⟨h5, rfl⟩ := hx
      · exact ⟨a, o, ho, .inl (.inl ⟨b, hb, rfl⟩)⟩
      · exact ⟨a, o, ho, .inl (.inr ⟨h5, b, hb, rfl⟩)⟩
    · obtain ⟨o, ho, o', ho', hd⟩ := exists_mem_picks_triple.2 h
      exact ⟨a, o, ho, .inr ⟨h3, b, o', ho', d, hd, rfl⟩⟩

/-- A comparison of the received check for a candidate of class k at code c, its formers named by their places (R12). -/
def ReceivedComparison (r : PlanRules) (c k : Nat) (p : List Carrier) (m : Int) : Prop :=
  (r.cls k).sensitive = true ∧ ∃ (i j : Nat) (a b : Carrier), i ≠ j ∧ p[i]? = some a ∧ p[j]? = some b ∧
    (r.cls a.cls).emits = true ∧ (r.cls b.cls).emits = true ∧
    (ProductCompared (r.cls k) .third (pairWidth r a b) (2 * (a.code : Int) - b.code) c m ∨
      (r.fifth = true ∧ ProductCompared (r.cls k) .fifth (pairWidth r a b) (3 * (a.code : Int) - 2 * b.code) c m) ∨
      (r.three = true ∧ ∃ (n : Nat) (d : Carrier), n ≠ i ∧ n ≠ j ∧ p[n]? = some d ∧ (r.cls d.cls).emits = true ∧
        ProductCompared (r.cls k) .three (max (pairWidth r a b) (r.cls d.cls).hw) ((a.code : Int) + b.code - d.code) c m))

theorem mem_receivedMargins {r : PlanRules} {c k : Nat} {p : List Carrier} {m : Int} :
    m ∈ receivedMargins r c k p ↔ ReceivedComparison r c k p m := by
  simp only [receivedMargins, List.mem_ite_nil_right, List.mem_map, List.mem_filter, mem_receivedProducts, and_assoc,
    kept_and_margin_iff, subperm_filter_iff, pair_subperm_iff, triple_subperm_iff, List.forall_mem_cons]
  refine and_congr_right fun _ => ?_
  constructor
  · rintro ⟨x, ⟨a, b, ⟨i, j, hij, hi, hj⟩, ha, hb, -, rfl | ⟨h5, rfl⟩⟩ |
      ⟨a, b, d, ⟨i, j, n, hij, hni, hnj, hi, hj, hn⟩, ha, hb, hd, -, h3, rfl⟩, hm⟩
    · exact ⟨i, j, a, b, hij, hi, hj, ha, hb, .inl hm⟩
    · exact ⟨i, j, a, b, hij, hi, hj, ha, hb, .inr (.inl ⟨h5, hm⟩)⟩
    · exact ⟨i, j, a, b, hij, hi, hj, ha, hb, .inr (.inr ⟨h3, n, d, hni, hnj, hn, hd, hm⟩)⟩
  · rintro ⟨i, j, a, b, hij, hi, hj, ha, hb, hm | ⟨h5, hm⟩ | ⟨h3, n, d, hni, hnj, hn, hd, hm⟩⟩
    · exact ⟨_, .inl ⟨a, b, ⟨i, j, hij, hi, hj⟩, ha, hb, nofun, .inl rfl⟩, hm⟩
    · exact ⟨_, .inl ⟨a, b, ⟨i, j, hij, hi, hj⟩, ha, hb, nofun, .inr ⟨h5, rfl⟩⟩, hm⟩
    · exact ⟨_, .inr ⟨a, b, d, ⟨i, j, n, hij, hni, hnj, hi, hj, hn⟩, ha, hb, hd, nofun, h3, rfl⟩, hm⟩

/-- The products that two formers make with the candidate as one of them, of the orders now formed (TABLE 1-9, middle column). -/
def PairProduct (r : PlanRules) (c hc : Nat) (a : Carrier) (x : Product) : Prop :=
  let w := max hc (r.cls a.cls).hw
  x = { order := .third, value := 2 * (c : Int) - a.code, pw := w } ∨
    x = { order := .third, value := 2 * (a.code : Int) - c, pw := w } ∨
    r.fifth = true ∧ (x = { order := .fifth, value := 3 * (c : Int) - 2 * a.code, pw := w } ∨
      x = { order := .fifth, value := 3 * (a.code : Int) - 2 * c, pw := w })

/-- The products that the candidate makes with two carriers (TABLE 1-9, middle column). -/
def TripleProduct (r : PlanRules) (c hc : Nat) (a d : Carrier) (x : Product) : Prop :=
  let w := max (max hc (r.cls a.cls).hw) (r.cls d.cls).hw
  x = { order := .three, value := (c : Int) + a.code - d.code, pw := w } ∨
    x = { order := .three, value := (a.code : Int) + d.code - c, pw := w }

theorem mem_emittedProducts {r : PlanRules} {c hc : Nat} {p o : List Carrier} {x : Product} :
    (x, o) ∈ emittedProducts r c hc p ↔ ∃ a others, (a, others) ∈ picks p ∧ (r.cls a.cls).emits = true ∧
      (PairProduct r c hc a x ∧ o = others ∨
        r.three = true ∧ ∃ d, (d, o) ∈ picks others ∧ (r.cls d.cls).emits = true ∧ TripleProduct r c hc a d x) := by
  simp only [emittedProducts, List.mem_flatMap, Prod.exists, List.mem_append, List.mem_ite_nil_right, List.mem_cons,
    List.not_mem_nil, or_false, Prod.mk.injEq, PairProduct, TripleProduct]
  refine exists_congr fun a => exists_congr fun others => and_congr_right fun _ => and_congr_right fun _ => or_congr ?_ ?_
  · tauto
  · refine and_congr_right fun _ => exists_congr fun d => ?_
    constructor
    · rintro ⟨o', ho, hd, h⟩
      obtain rfl : o = o' := h.elim And.right And.right
      exact ⟨ho, hd, by simpa using h⟩
    · rintro ⟨ho, hd, h⟩
      exact ⟨o, ho, hd, by simpa using h⟩

/-- A comparison of the emitted check for a candidate of class k at code c, its formers and the carrier harmed named by their
places (R13). -/
def EmittedComparison (r : PlanRules) (c k : Nat) (p : List Carrier) (m : Int) : Prop :=
  (r.cls k).emits = true ∧ ∃ (i n : Nat) (a b : Carrier), i ≠ n ∧ p[i]? = some a ∧ p[n]? = some b ∧
    (r.cls a.cls).emits = true ∧ (r.cls b.cls).sensitive = true ∧
    let w := max (r.cls k).hw (r.cls a.cls).hw
    let harms (q : ProductOrder) (pw : Nat) (value : Int) : Prop := ProductCompared (r.cls b.cls) q pw value b.code m
    (harms .third w (2 * (c : Int) - a.code) ∨ harms .third w (2 * (a.code : Int) - c) ∨
      (r.fifth = true ∧ (harms .fifth w (3 * (c : Int) - 2 * a.code) ∨ harms .fifth w (3 * (a.code : Int) - 2 * c))) ∨
      (r.three = true ∧ ∃ (j : Nat) (d : Carrier), j ≠ i ∧ j ≠ n ∧ p[j]? = some d ∧ (r.cls d.cls).emits = true ∧
        (harms .three (max w (r.cls d.cls).hw) ((c : Int) + a.code - d.code) ∨
          harms .three (max w (r.cls d.cls).hw) ((a.code : Int) + d.code - c))))

/-- A product that harms a carrier: it is kept, and m is the carrier's margin against it. -/
def Product.Harms (r : PlanRules) (x : Product) (b : Carrier) (m : Int) : Prop :=
  ProductCompared (r.cls b.cls) x.order x.pw x.value b.code m

theorem exists_pairProduct_harms_iff {r : PlanRules} {c hc : Nat} {a b : Carrier} {m : Int} :
    (∃ x, PairProduct r c hc a x ∧ x.Harms r b m) ↔
      let harms (q : ProductOrder) (value : Int) : Prop :=
        ProductCompared (r.cls b.cls) q (max hc (r.cls a.cls).hw) value b.code m
      harms .third (2 * (c : Int) - a.code) ∨ harms .third (2 * (a.code : Int) - c) ∨
        r.fifth = true ∧ (harms .fifth (3 * (c : Int) - 2 * a.code) ∨ harms .fifth (3 * (a.code : Int) - 2 * c)) := by
  simp only [PairProduct, Product.Harms, or_and_right, exists_or, exists_eq_left, and_assoc, exists_and_left]

theorem exists_tripleProduct_harms_iff {r : PlanRules} {c hc : Nat} {a b d : Carrier} {m : Int} :
    (∃ x, TripleProduct r c hc a d x ∧ x.Harms r b m) ↔
      let harms (value : Int) : Prop :=
        ProductCompared (r.cls b.cls) .three (max (max hc (r.cls a.cls).hw) (r.cls d.cls).hw) value b.code m
      harms ((c : Int) + a.code - d.code) ∨ harms ((a.code : Int) + d.code - c) := by
  simp only [TripleProduct, Product.Harms, or_and_right, exists_or, exists_eq_left]

/-- A product with the candidate as a former harms a sensitive carrier that is not a former. -/
def EmittedProductHarms (r : PlanRules) (c hc : Nat) (p : List Carrier) (m : Int) : Prop :=
  ∃ x o b, (x, o) ∈ emittedProducts r c hc p ∧ b ∈ o ∧ (r.cls b.cls).sensitive = true ∧ x.Harms r b m

theorem mem_emittedMargins_iff_products {r : PlanRules} {c k : Nat} {p : List Carrier} {m : Int} :
    m ∈ emittedMargins r c k p ↔ (r.cls k).emits = true ∧ EmittedProductHarms r c (r.cls k).hw p m := by
  simp only [emittedMargins, List.mem_ite_nil_right, List.mem_flatMap, List.mem_map, List.mem_filter, Prod.exists,
    EmittedProductHarms, Product.Harms, ← kept_and_margin_iff, distance_comm (Product.value _)]
  refine and_congr_right fun _ => exists_congr fun x => exists_congr fun o => ?_
  constructor
  · rintro ⟨⟨hx, hk⟩, b, ⟨hb, hs⟩, hm⟩
    exact ⟨b, hx, hb, hs, hk, hm⟩
  · rintro ⟨b, hx, hb, hs, hk, hm⟩
    exact ⟨⟨hx, hk⟩, b, ⟨hb, hs⟩, hm⟩

theorem mem_emittedMargins {r : PlanRules} {c k : Nat} {p : List Carrier} {m : Int} :
    m ∈ emittedMargins r c k p ↔ EmittedComparison r c k p m := by
  rw [mem_emittedMargins_iff_products]
  refine and_congr_right fun _ => ?_
  constructor
  · rintro ⟨x, o, b, hx, hb, hs, hm⟩
    obtain ⟨a, others, ha, hea, ⟨hp, rfl⟩ | ⟨h3, d, hd, hed, hp⟩⟩ := mem_emittedProducts.1 hx
    · obtain ⟨i, n, hin, hi, hn⟩ := pair_subperm_iff.1 (exists_mem_picks_pair.1 ⟨_, ha, hb⟩)
      obtain h | h | h := exists_pairProduct_harms_iff.1 ⟨x, hp, hm⟩
      · exact ⟨i, n, a, b, hin, hi, hn, hea, hs, .inl h⟩
      · exact ⟨i, n, a, b, hin, hi, hn, hea, hs, .inr (.inl h)⟩
      · exact ⟨i, n, a, b, hin, hi, hn, hea, hs, .inr (.inr (.inl h))⟩
    · obtain ⟨i, j, n, hij, hni, hnj, hi, hj, hn⟩ := triple_subperm_iff.1 (exists_mem_picks_triple.1 ⟨_, ha, _, hd, hb⟩)
      exact ⟨i, n, a, b, hni.symm, hi, hn, hea, hs,
        .inr (.inr (.inr ⟨h3, j, d, hij.symm, hnj.symm, hj, hed, exists_tripleProduct_harms_iff.1 ⟨x, hp, hm⟩⟩))⟩
  · rintro ⟨i, n, a, b, hin, hi, hn, hea, hs, h⟩
    have pair (h : ∃ x, PairProduct r c (r.cls k).hw a x ∧ x.Harms r b m) :
        EmittedProductHarms r c (r.cls k).hw p m := by
      obtain ⟨x, hp, hm⟩ := h
      obtain ⟨o, ho, hb⟩ := exists_mem_picks_pair.2 (pair_subperm_iff.2 ⟨i, n, hin, hi, hn⟩)
      exact ⟨x, o, b, mem_emittedProducts.2 ⟨a, o, ho, hea, .inl ⟨hp, rfl⟩⟩, hb, hs, hm⟩
    obtain h | h | h | ⟨h3, j, d, hji, hjn, hj, hed, h⟩ := h
    · exact pair (exists_pairProduct_harms_iff.2 (.inl h))
    · exact pair (exists_pairProduct_harms_iff.2 (.inr (.inl h)))
    · exact pair (exists_pairProduct_harms_iff.2 (.inr (.inr h)))
    · obtain ⟨x, hp, hm⟩ := exists_tripleProduct_harms_iff.2 h
      obtain ⟨o, ho, o', ho', hb⟩ :=
        exists_mem_picks_triple.2 (triple_subperm_iff.2 ⟨i, j, n, hji.symm, hin.symm, hjn.symm, hi, hj, hn⟩)
      exact ⟨x, o', b, mem_emittedProducts.2 ⟨a, o, ho, hea, .inr ⟨h3, d, ho', hed, hp⟩⟩, hb, hs, hm⟩

/-! ### The product margin and the verdict (R14, R15, R18) -/

theorem mem_considered_iff {subject : Option (Nat × Role)} {zone : Nat} {l : List Carrier} {a : Carrier} :
    a ∈ lessSubject subject (inZone zone l) ↔ a ∈ l ∧ a.zone = zone ∧ ∀ o, subject = some o → a.owner ≠ some o := by
  cases subject <;> simp [lessSubject, and_assoc]

theorem guardFor_le {harmed : ClassDef} {n : Nat} (h3 : harmed.g3 ≤ n) (h5 : harmed.g5 ≤ n) (hx : harmed.gx ≤ n)
    (q : ProductOrder) : harmed.guardFor q ≤ n := by
  cases q
  · exact h3
  · exact h5
  · exact hx

@[simp] theorem onGrid_iff {c step off : Nat} : onGrid c step off = true ↔ ((c : Int) - off) % step = 0 := by
  simp [onGrid]

theorem eligibilityOf_acceptable_iff {r : PlanRules} {c k zone : Nat} {w : Option Window} {margin : Int} :
    eligibilityOf r c k zone w margin = .acceptable ↔
      (∀ x, w = some x → x.lo ≤ c ∧ c ≤ x.hi ∧ ((c : Int) - x.off) % x.step = 0) ∧ bandExcluded r c k zone = false ∧
        0 ≤ margin := by
  cases w with
  | none =>
    simp only [eligibilityOf, Option.any_none]
    grind
  | some w =>
    simp only [eligibilityOf, Option.any_some, Option.some.injEq, forall_eq', ← onGrid_iff]
    grind

/-- Settles O42: both lists of margins are exactly the comparisons of R12 and R13, and the product margin is their least. -/
theorem productCheck : Obligations.ProductCheck := by
  refine ⟨?margin, ?clearance, ?verdict⟩
  case margin =>
    intro r c k zone subject l
    have margins (m : Int) : m ∈ receivedMargins r c k (lessSubject subject (inZone zone l)) ++
        emittedMargins r c k (lessSubject subject (inZone zone l)) ↔
        ReceivedComparison r c k (lessSubject subject (inZone zone l)) m ∨
          EmittedComparison r c k (lessSubject subject (inZone zone l)) m := by
      rw [List.mem_append, mem_receivedMargins, mem_emittedMargins]
    exact ⟨fun _ => mem_considered_iff, leastMargin_le_cap _, fun m h => leastMargin_le ((margins m).2 h),
      (leastMargin_mem _).imp_right (margins _).1⟩
  case clearance =>
    intro harmed q pw _ _ h3 h5 hx
    have := guardFor_le h3 h5 hx q
    omega
  case verdict =>
    exact fun r l c k zone subject w => ⟨rfl, rfl, rfl, eligibilityOf_acceptable_iff⟩

end Sys2Proof.Machine
end

section
/-! PROOFS. The station tables: what the adoption reads from them (TABLE 12-6) and the tests of TABLE 10-4 (R159). -/

namespace Sys2Proof.Machine

/-! ### Reading a station copy (R2, R4, R58, R143, R159) -/

theorem byteAt_lt (m : List Host.Cell) (a : Nat) : byteAt m a < 256 := (Memory.read m a).isLt

@[simp] theorem fieldAt_one (m : List Host.Cell) (a : Nat) : fieldAt m a 1 = byteAt m a := rfl

theorem clampNat_eq {lo hi : Nat} (h : lo ≤ hi) (v : Nat) : clampNat lo hi v = max lo (min hi v) := by
  unfold clampNat
  split
  · omega
  · split <;> omega

/-- A one-byte field brought into -120..0: a byte below 128 is not negative (R2, R170). -/
theorem clampInt_signedAt_floor (m : List Host.Cell) (a : Nat) :
    clampInt (-120) 0 (signedAt m a 1) = if byteAt m a < 128 then 0 else max (-120) ((byteAt m a : Int) - 256) := by
  have hlt := byteAt_lt m a
  have hsigned : signedAt m a 1 = if byteAt m a < 128 then (byteAt m a : Int) else byteAt m a - 256 := rfl
  rw [hsigned, clampInt]
  by_cases h : byteAt m a < 128
  · simp only [if_pos h]
    split_ifs <;> omega
  · simp only [if_neg h]
    split_ifs <;> omega

theorem readRules_cls (m : List Host.Cell) {k : Nat} (h : k < 8) : (readRules m).cls k = readClass m k := by
  simp [PlanRules.cls, readRules, h]

theorem readClass_eq (m : List Host.Cell) (k : Nat) : readClass m k =
    let a := 0x3C00 + 32 * k
    { hw := min (fieldAt m a 2) 400, eg := min (fieldAt m (a + 2) 2) 400, g3 := min (byteAt m (a + 4)) 100
      g5 := min (byteAt m (a + 5)) 100, gx := min (byteAt m (a + 6)) 100, emits := (byteAt m (a + 7)).testBit 0
      sensitive := (byteAt m (a + 7)).testBit 1
      floor := if byteAt m (a + 8) < 128 then 0 else max (-120) ((byteAt m (a + 8) : Int) - 256)
      ceiling := min (byteAt m (a + 9)) 100, guardMs := byteAt m (a + 10)
      settleMs := max 20 (min 1000 (fieldAt m (a + 12) 2)) } := by
  simp only [readClass, clampInt_signedAt_floor, clampNat_eq (show 20 ≤ 1000 by decide)]

theorem readRules_exclusions (m : List Host.Cell) {r : Nat} (h : r < 48) :
    (readRules m).exclusions[r]? = some (readExcl m r) := by
  simp [readRules, h]

theorem readSettings_eq (m : List Host.Cell) : readSettings m =
    { periodMs := max 100 (min 5000 (fieldAt m 0x3E80 2)), staleFactor := max 2 (min 8 (byteAt m 0x3E82))
      missLimit := max 1 (min 8 (byteAt m 0x3E83)), persistence := max 1 (min 8 (byteAt m 0x3E84))
      pattern := (List.range 8).map fun i => BitVec.ofNat 32 (fieldAt m (0x3E88 + 4 * i) 4) } := by
  simp only [readSettings, settingsBase, clampNat_eq (show 100 ≤ 5000 by decide), clampNat_eq (show 2 ≤ 8 by decide),
    clampNat_eq (show 1 ≤ 8 by decide)]

theorem readKillWidth_eq (m : List Host.Cell) : readKillWidth m = max 1 (min 64 (byteAt m 0x3E86)) :=
  clampNat_eq (by decide) _

/-! ### The first failure (R159) -/

theorem findSome?_range_eq_some_iff {α : Type} {f : Nat → Option α} {n : Nat} {x : α} :
    (List.range n).findSome? f = some x ↔ ∃ i < n, f i = some x ∧ ∀ j < i, f j = none := by
  induction n with
  | zero => simp
  | succ n ih =>
    have hnone : (List.range n).findSome? f = none ↔ ∀ j < n, f j = none := by simp
    rw [List.range_succ, List.findSome?_append, List.findSome?_singleton, Option.or_eq_some_iff, ih, hnone,
      Nat.exists_lt_succ_right, and_comm (a := ∀ _, _)]

/-- The test of link i of a station copy. -/
def copyTest (m : List Host.Cell) (working : List (Option LinkDef)) (states : List LinkState) (i : Nat) : Option Reason :=
  stationTest (readRules m) (readDef m i) (((List.range 96).map fun i => (readDef m i).toDef).take i) (working.getD i none)
    (states.getD i .vacant)

theorem stationFailure_eq (m : List Host.Cell) (working : List (Option LinkDef)) (states : List LinkState) :
    stationFailure m working states =
      (List.range 96).findSome? fun i => (copyTest m working states i).map fun r => (r, i) := rfl

theorem stationFailure_eq_none_iff {m : List Host.Cell} {working : List (Option LinkDef)} {states : List LinkState} :
    stationFailure m working states = none ↔ ∀ i, i < 96 → copyTest m working states i = none := by
  simp [stationFailure_eq]

theorem stationFailure_eq_some_iff {m : List Host.Cell} {working : List (Option LinkDef)} {states : List LinkState}
    {reason : Reason} {i : Nat} : stationFailure m working states = some (reason, i) ↔
      i < 96 ∧ copyTest m working states i = some reason ∧ ∀ j, j < i → copyTest m working states j = none := by
  rw [stationFailure_eq, findSome?_range_eq_some_iff]
  simp only [Option.map_eq_some_iff, Option.map_eq_none_iff, Prod.mk.injEq]
  constructor
  · rintro ⟨_, hi, ⟨_, hr, rfl, rfl⟩, hlower⟩
    exact ⟨hi, hr, hlower⟩
  · rintro ⟨hi, hr, hlower⟩
    exact ⟨i, hi, ⟨reason, hr, rfl, rfl⟩, hlower⟩

/-! ### The tests of one link (TABLE 10-4) -/

theorem RawRole.declared_eq_some_iff {b : Bool} {r : RawRole} {x : RoleDef} : r.declared b = some x ↔
    b = true ∧ r.cls = some x.cls ∧ x.lo = r.lo ∧ x.hi = r.hi ∧ x.step = r.step ∧ x.off = r.off := by
  simp only [RawRole.declared, Option.ite_none_right_eq_some, Option.map_eq_some_iff]
  refine and_congr_right fun _ => ?_
  constructor
  · rintro ⟨k, hk, rfl⟩
    exact ⟨hk, rfl, rfl, rfl, rfl⟩
  · rintro ⟨hk, hlo, hhi, hstep, hoff⟩
    exact ⟨x.cls, hk, by simp only [← hlo, ← hhi, ← hstep, ← hoff]⟩

theorem any_or_any_iff {p : RoleDef → Bool} {o i : Option RoleDef} :
    (o.any p || i.any p) = true ↔ ∃ r, (some r = o ∨ some r = i) ∧ p r = true := by
  simp only [Bool.or_eq_true, Option.any_eq_true, or_and_right, exists_or, eq_comm (a := some _)]

theorem any_lower_iff {p : LinkDef → Bool} {lower : List (Option LinkDef)} :
    (lower.any fun o => o.any p) = true ↔ ∃ y, some y ∈ lower ∧ p y = true := by
  simp only [List.any_eq_true, Option.any_eq_true]
  constructor
  · rintro ⟨_, ho, y, rfl, hy⟩
    exact ⟨y, ho, hy⟩
  · rintro ⟨y, ho, hy⟩
    exact ⟨_, ho, y, rfl, hy⟩

/-- A definition declares a role with this class, range, step and offset (R59). -/
def LinkDef.Declares (x : LinkDef) (r : RoleDef) : Prop := some r = x.outRole ∨ some r = x.inRole

/-! The rows of TABLE 10-4 after BAD_DEFINITION, for a definition `x`. -/

def BadClass (rules : PlanRules) (x : LinkDef) : Prop :=
  (x.kind.required.1 = true ∧ x.outRole = none) ∨ (x.kind.required.2 = true ∧ x.inRole = none) ∨
    ∃ r, x.Declares r ∧ (7 < r.cls ∨ (rules.cls r.cls).hw = 0)

def BadWindow (x : LinkDef) : Prop := ∃ r, x.Declares r ∧ r.hi < r.lo

def BadStep (x : LinkDef) : Prop := ∃ r, x.Declares r ∧ (r.step < 1 ∨ 64 < r.step ∨ r.step ≤ r.off)

def SameUnit (lower : List (Option LinkDef)) (x : LinkDef) : Prop :=
  ∃ y, some y ∈ lower ∧ y.unit = x.unit ∧ y.chan = x.chan

def SameCamera (lower : List (Option LinkDef)) (x : LinkDef) : Prop :=
  x.kind = .camera ∧ x.camera ≠ 0 ∧ ∃ y, some y ∈ lower ∧ y.kind = .camera ∧ y.camera = x.camera

def ProtectedFieldChanged (working : Option LinkDef) (x : LinkDef) : Prop :=
  ∃ w, working = some w ∧ (w.kind ≠ x.kind ∨ w.unit ≠ x.unit ∨ w.chan ≠ x.chan ∨ w.zone ≠ x.zone ∨
    w.outRole.map (·.cls) ≠ x.outRole.map (·.cls) ∨ w.inRole.map (·.cls) ≠ x.inRole.map (·.cls))

theorem badRoleClass_eq (rules : PlanRules) (required : Bool) (role : Option RoleDef) :
    badRoleClass rules required role =
      (required && role.isNone || role.any fun r => 7 < r.cls || (rules.cls r.cls).hw = 0) := by
  cases role <;> simp [badRoleClass]

section
variable {rules : PlanRules} {x : LinkDef} {lower : List (Option LinkDef)} {working : Option LinkDef}

theorem badClass_iff : (badRoleClass rules x.kind.required.1 x.outRole || badRoleClass rules x.kind.required.2 x.inRole) = true ↔
    BadClass rules x := by
  have hany := any_or_any_iff (p := fun r => 7 < r.cls || (rules.cls r.cls).hw = 0) (o := x.outRole) (i := x.inRole)
  simp only [Bool.or_eq_true, decide_eq_true_eq] at hany
  simp only [BadClass, LinkDef.Declares, badRoleClass_eq, Bool.or_eq_true, Bool.and_eq_true, Option.isNone_iff_eq_none, ← hany]
  tauto

theorem badWindow_iff : (badRoleWindow x.outRole || badRoleWindow x.inRole) = true ↔ BadWindow x := by
  simp only [badRoleWindow, any_or_any_iff, decide_eq_true_eq, BadWindow, LinkDef.Declares]

theorem badStep_iff : (badRoleStep x.outRole || badRoleStep x.inRole) = true ↔ BadStep x := by
  rw [badRoleStep, badRoleStep, any_or_any_iff]
  simp only [Bool.or_eq_true, decide_eq_true_eq, or_assoc, BadStep, LinkDef.Declares]

theorem sameUnit_iff : (lower.any fun o => o.any fun y => y.unit = x.unit ∧ y.chan = x.chan) = true ↔ SameUnit lower x := by
  simp only [any_lower_iff, decide_eq_true_eq, SameUnit]

theorem sameCamera_iff : (x.kind = .camera && x.camera ≠ 0
    && lower.any (fun o => o.any fun y => y.kind = .camera ∧ y.camera = x.camera)) = true ↔ SameCamera lower x := by
  simp only [any_lower_iff, Bool.and_eq_true, decide_eq_true_eq, SameCamera, and_assoc]

theorem protectedChange_some_iff : protectedChange working (some x) = true ↔ ProtectedFieldChanged working x := by
  cases working <;> simp [protectedChange, ProtectedFieldChanged, or_assoc]

theorem protectedChange_none : protectedChange working none = working.isSome := by
  cases working <;> rfl

end

section
variable {rules : PlanRules} {d : RawDef} {lower : List (Option LinkDef)} {working : Option LinkDef} {st : LinkState}

theorem stationTest_absent (h : d.present = false) : stationTest rules d lower working st =
    if working.isSome ∧ st ≠ .parked ∧ st ≠ .vacant then some .linkInUse else none := by
  simp [stationTest, RawDef.toDef, h, protectedChange_none, and_assoc]

theorem stationTest_badDefinition (hp : d.present = true)
    (h : kindOf d.kind = none ∨ d.unit < 1 ∨ 126 < d.unit ∨ 3 < d.chan ∨ 3 < d.zone) :
    stationTest rules d lower working st = some .badDefinition := by
  rw [stationTest, if_pos]
  simpa [hp, or_assoc] using h

/-- The definition that a present raw definition of kind k stands for (R58, R59). -/
def RawDef.ofKind (d : RawDef) (k : LinkKind) : LinkDef :=
  { kind := k, unit := d.unit, chan := d.chan, camera := d.camera, zone := d.zone
    outRole := d.outRole.declared k.allowed.1, inRole := d.inRole.declared k.allowed.2
    auto := d.auto, attn := d.attn, delayS := d.delayS, holdS := d.holdS }

theorem RawDef.toDef_eq_ofKind {k : LinkKind} (hp : d.present = true) (hk : kindOf d.kind = some k) :
    d.toDef = some (d.ofKind k) := by
  simp [RawDef.toDef, RawDef.ofKind, hp, hk]

open Classical in
/-- The rows of TABLE 10-4 after BAD_DEFINITION, in their order. -/
theorem stationTest_rows {k : LinkKind} (hp : d.present = true) (hk : kindOf d.kind = some k) (hu : 1 ≤ d.unit)
    (hu' : d.unit ≤ 126) (hc : d.chan ≤ 3) (hz : d.zone ≤ 3) : stationTest rules d lower working st =
      if BadClass rules (d.ofKind k) then some .badClass
      else if BadWindow (d.ofKind k) then some .badWindow
      else if BadStep (d.ofKind k) then some .badStep
      else if SameUnit lower (d.ofKind k) then some .duplicateUnit
      else if SameCamera lower (d.ofKind k) then some .duplicateCamera
      else if ProtectedFieldChanged working (d.ofKind k) ∧ st ≠ .parked ∧ st ≠ .vacant then some .linkInUse
      else none := by
  have hgood : ¬(d.present && ((kindOf d.kind).isNone || d.unit < 1 || 126 < d.unit || 3 < d.chan || 3 < d.zone)) = true := by
    simp [hk]
    omega
  have hinUse : (protectedChange working (some (d.ofKind k)) && decide (st ≠ .parked) && decide (st ≠ .vacant)) = true ↔
      ProtectedFieldChanged working (d.ofKind k) ∧ st ≠ .parked ∧ st ≠ .vacant := by
    simp only [Bool.and_eq_true, decide_eq_true_eq, protectedChange_some_iff, and_assoc]
  rw [stationTest, if_neg hgood, RawDef.toDef_eq_ofKind hp hk]
  exact if_congr badClass_iff rfl <| if_congr badWindow_iff rfl <| if_congr badStep_iff rfl <|
    if_congr sameUnit_iff rfl <| if_congr sameCamera_iff rfl <| if_congr hinUse rfl rfl

/-- Each row answers when it is the first that applies. -/
theorem stationTest_first_row {k : LinkKind} (hp : d.present = true) (hk : kindOf d.kind = some k) (hu : 1 ≤ d.unit)
    (hu' : d.unit ≤ 126) (hc : d.chan ≤ 3) (hz : d.zone ≤ 3) :
    let x := d.ofKind k
    let inUse : Prop := st ≠ .parked ∧ st ≠ .vacant
    let answer := stationTest rules d lower working st
    (BadClass rules x → answer = some .badClass) ∧
    (¬BadClass rules x → BadWindow x → answer = some .badWindow) ∧
    (¬BadClass rules x → ¬BadWindow x → BadStep x → answer = some .badStep) ∧
    (¬BadClass rules x → ¬BadWindow x → ¬BadStep x → SameUnit lower x → answer = some .duplicateUnit) ∧
    (¬BadClass rules x → ¬BadWindow x → ¬BadStep x → ¬SameUnit lower x → SameCamera lower x →
      answer = some .duplicateCamera) ∧
    (¬BadClass rules x → ¬BadWindow x → ¬BadStep x → ¬SameUnit lower x → ¬SameCamera lower x →
      ProtectedFieldChanged working x → inUse → answer = some .linkInUse) ∧
    (¬BadClass rules x → ¬BadWindow x → ¬BadStep x → ¬SameUnit lower x → ¬SameCamera lower x →
      ¬(ProtectedFieldChanged working x ∧ inUse) → answer = none) := by
  simp only [stationTest_rows hp hk hu hu' hc hz]
  refine ⟨fun h₁ => ?_, fun h₁ h₂ => ?_, fun h₁ h₂ h₃ => ?_, fun h₁ h₂ h₃ h₄ => ?_, fun h₁ h₂ h₃ h₄ h₅ => ?_,
    fun h₁ h₂ h₃ h₄ h₅ h₆ hst => ?_, fun h₁ h₂ h₃ h₄ h₅ h₆ => ?_⟩
  · rw [if_pos h₁]
  · rw [if_neg h₁, if_pos h₂]
  · rw [if_neg h₁, if_neg h₂, if_pos h₃]
  · rw [if_neg h₁, if_neg h₂, if_neg h₃, if_pos h₄]
  · rw [if_neg h₁, if_neg h₂, if_neg h₃, if_neg h₄, if_pos h₅]
  · rw [if_neg h₁, if_neg h₂, if_neg h₃, if_neg h₄, if_neg h₅, if_pos ⟨h₆, hst⟩]
  · rw [if_neg h₁, if_neg h₂, if_neg h₃, if_neg h₄, if_neg h₅, if_neg h₆]

end

/-- Settles O44: the fields as read with their clamps, the first link that fails, and the tests of one link row by row. -/
theorem stationTests : Obligations.StationTests := by
  refine ⟨?reads, ?first, ?rows, rfl, fun _ _ _ => RawRole.declared_eq_some_iff⟩
  case reads =>
    exact fun m => ⟨fun _ => rfl, rfl, rfl, fun k hk => (readRules_cls m hk).trans (readClass_eq m k), rfl,
      fun _ hr => readRules_exclusions m hr, rfl, rfl, readSettings_eq m, readKillWidth_eq m⟩
  case first =>
    exact fun m working states => ⟨stationFailure_eq_none_iff, fun _ _ => stationFailure_eq_some_iff⟩
  case rows =>
    intro rules d lower working st
    exact ⟨stationTest_absent, stationTest_badDefinition, fun k => stationTest_first_row⟩

end Sys2Proof.Machine
end

section
/-! PROOFS. Lists kept in order, the ranking of candidates (R17), ranges, codes in use and the grid (R4, R7, R8). -/

namespace Sys2Proof.Machine

/-! ### Lists kept in order -/

section
variable {α : Type} {before : α → α → Bool} {x y : α} {l : List α}

@[simp] theorem mem_insertBy : y ∈ insertBy before x l ↔ y = x ∨ y ∈ l := by
  induction l with
  | nil => simp [insertBy]
  | cons z zs ih =>
    rw [insertBy]
    split
    · simp
    · simp only [List.mem_cons, ih]
      tauto

theorem pairwise_insertBy (trans : ∀ a b c, before a b = true → before b c = true → before a c = true)
    (hl : l.Pairwise fun a b => before a b = true) (hx : ∀ y ∈ l, before x y = true ∨ before y x = true) :
    (insertBy before x l).Pairwise fun a b => before a b = true := by
  induction l with
  | nil => simp [insertBy]
  | cons z zs ih =>
    obtain ⟨hz, hzs⟩ := List.pairwise_cons.1 hl
    rw [insertBy]
    split
    · next hxz =>
      refine List.pairwise_cons.2 ⟨fun y hy => ?_, hl⟩
      obtain rfl | hy := List.mem_cons.1 hy
      · exact hxz
      · exact trans _ _ _ hxz (hz y hy)
    · next hxz =>
      refine List.pairwise_cons.2 ⟨fun y hy => ?_, ih hzs fun y hy => hx y (List.mem_cons_of_mem _ hy)⟩
      obtain rfl | hy := mem_insertBy.1 hy
      · exact (hx z List.mem_cons_self).resolve_left hxz
      · exact hz y hy

/-- What stands beyond the places kept has no part in what is kept after an insertion. -/
theorem take_insertBy_take (k : Nat) : (insertBy before x (l.take k)).take k = (insertBy before x l).take k := by
  induction l generalizing k with
  | nil => simp
  | cons z zs ih =>
    cases k with
    | zero => simp
    | succ k =>
      rw [List.take_succ_cons, insertBy, insertBy]
      split
      · cases k <;> simp [List.take_take]
      · rw [List.take_succ_cons, List.take_succ_cons, ih]

end

/-! ### The ranking (R17) -/

theorem ranksBefore_iff {preferred : Option Nat} {a b : Nat × Int} : ranksBefore preferred a b = true ↔
    b.2 < a.2 ∨ (a.2 = b.2 ∧
      ((preferred = none ∧ a.1 < b.1) ∨
        ∃ p, preferred = some p ∧ (|(a.1 : Int) - p| < |(b.1 : Int) - p| ∨
          (|(a.1 : Int) - p| = |(b.1 : Int) - p| ∧ a.1 < b.1)))) := by
  cases preferred with
  | none =>
    simp only [ranksBefore]
    grind
  | some p =>
    simp only [ranksBefore, distance_eq_abs]
    grind

@[simp] theorem ranksBefore_none_iff {a b : Nat × Int} :
    ranksBefore none a b = true ↔ b.2 < a.2 ∨ a.2 = b.2 ∧ a.1 < b.1 := by
  simp [ranksBefore_iff]

@[simp] theorem ranksBefore_some_iff {p : Nat} {a b : Nat × Int} : ranksBefore (some p) a b = true ↔
    b.2 < a.2 ∨ a.2 = b.2 ∧ (|(a.1 : Int) - p| < |(b.1 : Int) - p| ∨ |(a.1 : Int) - p| = |(b.1 : Int) - p| ∧ a.1 < b.1) := by
  simp [ranksBefore_iff]

theorem ranksBefore_trans {preferred : Option Nat} (a b c : Nat × Int) (hab : ranksBefore preferred a b = true)
    (hbc : ranksBefore preferred b c = true) : ranksBefore preferred a c = true := by
  cases preferred with
  | none =>
    rw [ranksBefore_none_iff] at *
    omega
  | some p =>
    rw [ranksBefore_some_iff] at *
    omega

/-- Candidates at different codes are ranked, one before the other. -/
theorem ranksBefore_total {preferred : Option Nat} {a b : Nat × Int} (h : b.1 < a.1) :
    ranksBefore preferred a b = true ∨ ranksBefore preferred b a = true := by
  cases preferred with
  | none =>
    rw [ranksBefore_none_iff, ranksBefore_none_iff]
    omega
  | some p =>
    rw [ranksBefore_some_iff, ranksBefore_some_iff]
    omega

/-! ### Ranges, codes in use and the grid (R4, R7, R8) -/

theorem bandExcluded_iff {r : PlanRules} {code cls zone : Nat} : bandExcluded r code cls zone = true ↔
    ∃ x ∈ r.exclusions, x.low ≤ x.high ∧ x.zones.getLsbD zone = true ∧
      (code : Int) - (r.cls cls).hw ≤ x.high ∧ (x.low : Int) ≤ code + (r.cls cls).hw := by
  simp only [bandExcluded, ExclRange.inUseFor, bandMeets, List.any_eq_true, Bool.and_eq_true, decide_eq_true_eq, ge_iff_le,
    and_assoc]

theorem codeUsed_iff {c : Controller} {code : Nat} :
    codeUsed c code = true ↔ (∃ e, some e ∈ c.table ∧ e.code = code) ∨ ∃ e ∈ c.reserve, e.code = code := by
  simp only [codeUsed, Bool.or_eq_true, List.any_eq_true, Option.any_eq_true, decide_eq_true_eq]
  refine or_congr_left ⟨?_, ?_⟩
  · rintro ⟨_, h, e, rfl, he⟩
    exact ⟨e, h, he⟩
  · rintro ⟨e, h, he⟩
    exact ⟨_, h, e, rfl, he⟩

theorem firstOnGrid_spec {lo step off : Nat} (hstep : 1 ≤ step) : ∃ m : Int, 0 ≤ m ∧ m < step ∧
    (firstOnGrid lo step off : Int) = lo + m ∧ (step : Int) ∣ lo + m - off := by
  have hne : (step : Int) ≠ 0 := by omega
  refine ⟨((off : Int) - lo) % step, Int.emod_nonneg _ hne, Int.emod_lt_of_pos _ (by omega), ?_, ?_⟩
  · rw [firstOnGrid, Nat.cast_add, Int.toNat_of_nonneg (Int.emod_nonneg _ hne)]
  · have := Int.dvd_sub_self_of_emod_eq (a := (off : Int) - lo) (b := step) rfl
    have heq : (lo : Int) + ((off : Int) - lo) % step - off = ((off : Int) - lo) % step - (off - lo) := by omega
    rwa [heq]

theorem firstOnGrid_onGrid {lo step off : Nat} (hstep : 1 ≤ step) :
    lo ≤ firstOnGrid lo step off ∧ ((firstOnGrid lo step off : Int) - off) % step = 0 := by
  obtain ⟨m, hm, -, heq, hdvd⟩ := firstOnGrid_spec (lo := lo) (off := off) hstep
  exact ⟨by omega, by rw [heq]; exact Int.emod_eq_zero_of_dvd hdvd⟩

theorem firstOnGrid_le {lo step off x : Nat} (hstep : 1 ≤ step) (hlo : lo ≤ x) (hx : ((x : Int) - off) % step = 0) :
    firstOnGrid lo step off ≤ x := by
  obtain ⟨m, -, hm, heq, hdvd⟩ := firstOnGrid_spec (lo := lo) (off := off) hstep
  have hdiff : (step : Int) ∣ (lo + m) - x := by
    simpa using dvd_sub hdvd (Int.dvd_of_emod_eq_zero hx)
  by_contra hlt
  have := Int.le_of_dvd (by omega) hdiff
  omega

end Sys2Proof.Machine
end

section
/-! PROOFS. What a search visits, keeps and counts (R8, R45, R49, R50). -/

namespace Sys2Proof.Machine

/-! ### One unit of a search -/

/-- The code's band meets no range, so the search evaluates it (R7, R49). -/
def SearchRun.evaluates (c : Controller) (r : SearchRun) (x : Nat) : Bool := !bandExcluded c.rules x r.cls r.zone

/-- The margin of a code against the tables. -/
def SearchRun.marginAt (c : Controller) (r : SearchRun) (x : Nat) : Int :=
  (verdictOf c.rules (r.considered c) x r.cls r.zone r.subject none).margin

/-- The code is a candidate: evaluated, with a margin of 0 or more, and not in use where the search is a FILL_RESERVE's (R14, R50). -/
def SearchRun.accepts (c : Controller) (r : SearchRun) (x : Nat) : Bool :=
  r.evaluates c x && decide (0 ≤ r.marginAt c x) && !(r.useReserve && codeUsed c x)

/-- The codes of the grid that the search has still to visit. -/
def SearchRun.Covers (r : SearchRun) (x : Nat) : Prop := r.next ≤ x ∧ x ≤ r.hi ∧ (x - r.next) % max r.step 1 = 0

section
variable {c : Controller} {r : SearchRun} {x n : Nat} {y : Nat × Int}

theorem SearchRun.accepts_iff : r.accepts c x = true ↔ bandExcluded c.rules x r.cls r.zone = false ∧ 0 ≤ r.marginAt c x ∧
    (r.useReserve = true → codeUsed c x = false) := by
  simp only [SearchRun.accepts, SearchRun.evaluates, Bool.and_eq_true, Bool.not_eq_true', Bool.and_eq_false_imp,
    decide_eq_true_eq, and_assoc]

theorem SearchRun.finished_iff : r.finished = true ↔ r.hi < r.next := by
  simp [SearchRun.finished]

theorem SearchRun.visit_eq (h : ¬r.finished = true) : r.visit c =
    { r with
      next := r.next + max r.step 1
      evaluated := if r.evaluates c r.next then cap16 (r.evaluated + 1) else r.evaluated
      found := if r.accepts c r.next then cap16 (r.found + 1) else r.found
      best := if r.accepts c r.next then
          (insertBy (ranksBefore r.preferred) (r.next, r.marginAt c r.next) r.best).take r.keep
        else r.best } := by
  have hmargin : r.marginNow c = r.marginAt c r.next := rfl
  rw [SearchRun.visit, if_neg h, SearchRun.accepts, SearchRun.evaluates]
  cases bandExcluded c.rules r.next r.cls r.zone with
  | true => simp
  | false =>
    cases r.useReserve && codeUsed c r.next with
    | true => simp
    | false =>
      by_cases hm : r.marginAt c r.next < 0
      · simp [hmargin, hm]
      · simp [hmargin, hm, not_lt.1 hm]

/-- A unit of a search leaves what the search is about. -/
theorem SearchRun.visit_inputs (c : Controller) (r : SearchRun) : (r.visit c).hi = r.hi ∧ (r.visit c).step = r.step ∧
    (r.visit c).preferred = r.preferred ∧ (r.visit c).keep = r.keep ∧ (r.visit c).useReserve = r.useReserve ∧
    (r.visit c).evaluates c = r.evaluates c ∧ (r.visit c).marginAt c = r.marginAt c ∧ (r.visit c).accepts c = r.accepts c := by
  by_cases h : r.finished = true
  · rw [SearchRun.visit, if_pos h]
    exact ⟨rfl, rfl, rfl, rfl, rfl, rfl, rfl, rfl⟩
  · rw [SearchRun.visit_eq h]
    exact ⟨rfl, rfl, rfl, rfl, rfl, rfl, rfl, rfl⟩

theorem SearchRun.covers_visit_iff (h : ¬r.finished = true) : r.Covers x ↔ x = r.next ∨ (r.visit c).Covers x := by
  have hle : r.next ≤ r.hi := not_lt.1 (mt SearchRun.finished_iff.2 h)
  simp only [SearchRun.Covers, SearchRun.visit_eq h]
  generalize hs : max r.step 1 = s
  have hpos : 1 ≤ s := by omega
  constructor
  · rintro ⟨hx, hhi, hgrid⟩
    obtain rfl | hne := eq_or_ne x r.next
    · exact .inl rfl
    · have hstep : s ≤ x - r.next := Nat.le_of_dvd (by omega) (Nat.dvd_of_mod_eq_zero hgrid)
      refine .inr ⟨by omega, hhi, ?_⟩
      rw [← Nat.sub_sub, ← Nat.mod_eq_sub_mod hstep, hgrid]
  · rintro (rfl | ⟨hx, hhi, hgrid⟩)
    · exact ⟨le_rfl, hle, by simp⟩
    · refine ⟨by omega, hhi, ?_⟩
      rw [Nat.mod_eq_sub_mod (by omega), Nat.sub_sub, hgrid]

/-! ### Runs of a search -/

theorem SearchRun.run_succ (h : ¬r.finished = true) : r.run c (n + 1) = (r.visit c).run c n := by
  rw [SearchRun.run, if_neg h]

theorem SearchRun.run_of_finished (h : r.finished = true) : r.run c n = r := by
  cases n with
  | zero => rfl
  | succ n => rw [SearchRun.run, if_pos h]

/-- What holds of a search and itself, and of a search and a later state of it when it holds after one unit, holds of every run. -/
theorem SearchRun.run_induction {P : SearchRun → SearchRun → Prop} (refl : ∀ r, P r r)
    (visit : ∀ r e, ¬r.finished = true → P (r.visit c) e → P r e) (n : Nat) (r : SearchRun) : P r (r.run c n) := by
  induction n generalizing r with
  | zero => exact refl r
  | succ n ih =>
    by_cases h : r.finished = true
    · rw [SearchRun.run_of_finished h]
      exact refl r
    · rw [SearchRun.run_succ h]
      exact visit r _ h (ih _)

/-- n units pass the end of the window. -/
def SearchRun.EndsWithin (r : SearchRun) (n : Nat) : Prop := r.hi < r.next + n * max r.step 1

theorem SearchRun.endsWithin_left : r.EndsWithin r.left := by
  have := Nat.lt_mul_div_succ (r.hi + 1 - r.next) (show 0 < max r.step 1 by omega)
  rw [SearchRun.EndsWithin, SearchRun.left, mul_comm]
  omega

theorem SearchRun.endsWithin_visit (h : ¬r.finished = true) (hn : r.EndsWithin (n + 1)) : (r.visit c).EndsWithin n := by
  simp only [SearchRun.EndsWithin, SearchRun.visit_eq h] at *
  rw [Nat.succ_mul] at hn
  omega

/-- As `run_induction`, for a search run to its end. -/
theorem SearchRun.toEnd_induction {P : SearchRun → SearchRun → Prop} (done : ∀ r, r.finished = true → P r r)
    (visit : ∀ r e, ¬r.finished = true → P (r.visit c) e → P r e) (r : SearchRun) : P r (r.toEnd c) := by
  suffices ∀ n r, r.EndsWithin n → P r (r.run c n) from this _ _ SearchRun.endsWithin_left
  intro n
  induction n with
  | zero =>
    intro r hn
    exact done r (SearchRun.finished_iff.2 (by simpa [SearchRun.EndsWithin] using hn))
  | succ n ih =>
    intro r hn
    by_cases h : r.finished = true
    · rw [SearchRun.run_of_finished h]
      exact done r h
    · rw [SearchRun.run_succ h]
      exact visit r _ h (ih _ (SearchRun.endsWithin_visit h hn))

/-! ### What a search keeps -/

/-- y is a candidate at a code still to visit, with its margin. -/
def SearchRun.Finds (c : Controller) (r : SearchRun) (y : Nat × Int) : Prop :=
  r.Covers y.1 ∧ r.accepts c y.1 = true ∧ y.2 = r.marginAt c y.1

theorem SearchRun.finds_visit_iff (h : ¬r.finished = true) : r.Finds c y ↔
    (r.accepts c r.next = true ∧ y = (r.next, r.marginAt c r.next)) ∨ (r.visit c).Finds c y := by
  obtain ⟨-, -, -, -, -, -, hmargin, haccepts⟩ := SearchRun.visit_inputs c r
  obtain ⟨x, m⟩ := y
  simp only [SearchRun.Finds, SearchRun.covers_visit_iff (c := c) h, hmargin, haccepts, Prod.mk.injEq]
  constructor
  · rintro ⟨rfl | hx, ha, hm⟩
    · exact .inl ⟨ha, rfl, hm⟩
    · exact .inr ⟨hx, ha, hm⟩
  · rintro (⟨ha, rfl, hm⟩ | ⟨hx, ha, hm⟩)
    · exact ⟨.inl rfl, ha, hm⟩
    · exact ⟨.inr hx, ha, hm⟩

theorem SearchRun.mem_visit_best (h : ¬r.finished = true) (hy : y ∈ (r.visit c).best) : y ∈ r.best ∨ r.Finds c y := by
  rw [SearchRun.visit_eq h] at hy
  by_cases ha : r.accepts c r.next = true
  · simp only [if_pos ha] at hy
    obtain rfl | hy := mem_insertBy.1 (List.mem_of_mem_take hy)
    · exact .inr ((SearchRun.finds_visit_iff h).2 (.inl ⟨ha, rfl⟩))
    · exact .inl hy
  · simp only [if_neg ha] at hy
    exact .inl hy

theorem SearchRun.mem_run_best (n : Nat) (r : SearchRun) : ∀ y ∈ (r.run c n).best, y ∈ r.best ∨ r.Finds c y := by
  refine SearchRun.run_induction (P := fun r e => ∀ y ∈ e.best, y ∈ r.best ∨ r.Finds c y) (fun _ _ => .inl) ?_ n r
  intro r e h ih y hy
  obtain hy | hy := ih y hy
  · exact SearchRun.mem_visit_best h hy
  · exact .inr ((SearchRun.finds_visit_iff h).2 (.inr hy))

theorem SearchRun.run_best_length (n : Nat) (r : SearchRun) :
    r.best.length ≤ r.keep → (r.run c n).best.length ≤ r.keep := by
  refine SearchRun.run_induction (P := fun r e => r.best.length ≤ r.keep → e.best.length ≤ r.keep) (fun _ => id) ?_ n r
  intro r e h ih hr
  have hvisit : (r.visit c).best.length ≤ r.keep := by
    rw [SearchRun.visit_eq h]
    dsimp only
    split
    · exact List.length_take_le ..
    · exact hr
  have hkeep : (r.visit c).keep = r.keep := by rw [SearchRun.visit_eq h]
  rw [hkeep] at ih
  exact ih hvisit

/-- The kept candidates are the first of a ranked list of candidates at codes already visited. -/
def SearchRun.KeepsFirstOf (r : SearchRun) (l : List (Nat × Int)) : Prop :=
  r.best = l.take r.keep ∧ l.Pairwise (fun a b => ranksBefore r.preferred a b = true) ∧ ∀ y ∈ l, y.1 < r.next

theorem SearchRun.keepsFirstOf_visit {l : List (Nat × Int)} (h : ¬r.finished = true) (hl : r.KeepsFirstOf l) :
    (r.visit c).KeepsFirstOf
      (if r.accepts c r.next then insertBy (ranksBefore r.preferred) (r.next, r.marginAt c r.next) l else l) := by
  obtain ⟨hbest, hsorted, hlt⟩ := hl
  have hnext : ∀ y ∈ l, y.1 < r.next + max r.step 1 := fun y hy => by have := hlt y hy; omega
  rw [SearchRun.visit_eq h]
  by_cases ha : r.accepts c r.next = true
  · simp only [SearchRun.KeepsFirstOf, if_pos ha, mem_insertBy, forall_eq_or_imp]
    refine ⟨by rw [hbest, take_insertBy_take], ?_, by omega, hnext⟩
    exact pairwise_insertBy ranksBefore_trans hsorted fun y hy => ranksBefore_total (hlt y hy)
  · simp only [SearchRun.KeepsFirstOf, if_neg ha]
    exact ⟨hbest, hsorted, hnext⟩

/-- In its later state e the search r keeps the first of a ranked list that holds l and every candidate r has still to visit. -/
def SearchRun.KeepsFirstOfAll (c : Controller) (l : List (Nat × Int)) (r e : SearchRun) : Prop :=
  ∃ l' : List (Nat × Int), e.best = l'.take r.keep ∧ l'.Pairwise (fun a b => ranksBefore r.preferred a b = true) ∧
    ∀ y, y ∈ l ∨ r.Finds c y → y ∈ l'

theorem SearchRun.toEnd_keepsFirstOfAll (r : SearchRun) : ∀ l, r.KeepsFirstOf l → r.KeepsFirstOfAll c l (r.toEnd c) := by
  refine SearchRun.toEnd_induction (P := fun r e => ∀ l, r.KeepsFirstOf l → r.KeepsFirstOfAll c l e) ?_ ?_ r
  · rintro r h l ⟨hbest, hsorted, -⟩
    refine ⟨l, hbest, hsorted, fun y hy => hy.resolve_right ?_⟩
    rintro ⟨⟨hlo, hhi, -⟩, -⟩
    have := SearchRun.finished_iff.1 h
    omega
  · intro r e h ih l hl
    obtain ⟨-, -, hpref, hkeep, -⟩ := SearchRun.visit_inputs c r
    obtain ⟨l', hbest, hsorted, hmem⟩ := ih _ (SearchRun.keepsFirstOf_visit h hl)
    rw [hkeep] at hbest
    rw [hpref] at hsorted
    refine ⟨l', hbest, hsorted, fun y hy => hmem y ?_⟩
    rw [SearchRun.finds_visit_iff h] at hy
    obtain hy | ⟨ha, rfl⟩ | hy := hy
    · left
      split
      · exact mem_insertBy.2 (.inr hy)
      · exact hy
    · left
      rw [if_pos ha]
      exact mem_insertBy.2 (.inl rfl)
    · exact .inr hy

/-! ### What a search counts (R49) -/

/-- The codes still to visit, in ascending order. -/
def SearchRun.codes (r : SearchRun) : List Nat :=
  (List.range (r.hi + 1)).filter fun x => r.next ≤ x ∧ (x - r.next) % max r.step 1 = 0

theorem SearchRun.mem_codes : x ∈ r.codes ↔ r.Covers x := by
  simp only [SearchRun.codes, SearchRun.Covers, List.mem_filter, List.mem_range, decide_eq_true_eq, Nat.lt_succ_iff]
  tauto

theorem SearchRun.codes_nodup : r.codes.Nodup := List.nodup_range.filter _

theorem SearchRun.codes_visit_perm (h : ¬r.finished = true) : r.codes.Perm (r.next :: (r.visit c).codes) := by
  have hnext : r.next ∉ (r.visit c).codes := by
    rw [SearchRun.mem_codes, SearchRun.visit_eq h]
    rintro ⟨hle, -⟩
    dsimp only at hle
    omega
  refine (List.perm_ext_iff_of_nodup SearchRun.codes_nodup (List.nodup_cons.2 ⟨hnext, SearchRun.codes_nodup⟩)).2 fun x => ?_
  rw [List.mem_cons, SearchRun.mem_codes, SearchRun.mem_codes, SearchRun.covers_visit_iff h]

theorem SearchRun.codes_of_finished (h : r.finished = true) : r.codes = [] := by
  refine List.eq_nil_iff_forall_not_mem.2 fun x hx => ?_
  obtain ⟨hlo, hhi, -⟩ := SearchRun.mem_codes.1 hx
  have := SearchRun.finished_iff.1 h
  omega

theorem SearchRun.countP_codes (h : ¬r.finished = true) (p : Nat → Bool) :
    r.codes.countP p = (r.visit c).codes.countP p + if p r.next then 1 else 0 := by
  rw [(SearchRun.codes_visit_perm (c := c) h).countP_eq, List.countP_cons]

/-- A count that each unit raises, to at most 65,535, where p holds of its code, counts the codes of the window where p holds. -/
theorem SearchRun.toEnd_count {count : SearchRun → Nat} {p : SearchRun → Nat → Bool}
    (hp : ∀ r : SearchRun, p (r.visit c) = p r)
    (hcount : ∀ r : SearchRun, ¬r.finished = true →
      count (r.visit c) = if p r r.next then cap16 (count r + 1) else count r) (r : SearchRun) :
    count r ≤ 65535 → count (r.toEnd c) = min 65535 (count r + r.codes.countP (p r)) := by
  refine SearchRun.toEnd_induction
    (P := fun r e => count r ≤ 65535 → count e = min 65535 (count r + r.codes.countP (p r))) ?_ ?_ r
  · intro r h hr
    rw [SearchRun.codes_of_finished h, List.countP_nil]
    omega
  · intro r e h ih hr
    have hvisit := hcount r h
    rw [hp] at ih
    rw [SearchRun.countP_codes (c := c) h]
    by_cases hnext : p r r.next = true
    · rw [if_pos hnext, cap16] at hvisit
      rw [if_pos hnext, ih (by omega), hvisit]
      omega
    · rw [if_neg hnext] at hvisit
      rw [if_neg hnext, ih (by omega), hvisit]
      omega

theorem SearchRun.toEnd_evaluated (c : Controller) (r : SearchRun) (hr : r.evaluated ≤ 65535) :
    (r.toEnd c).evaluated = min 65535 (r.evaluated + r.codes.countP (r.evaluates c)) := by
  refine SearchRun.toEnd_count (count := SearchRun.evaluated) (p := SearchRun.evaluates c) (fun r => ?_) (fun r h => ?_) r hr
  · obtain ⟨-, -, -, -, -, hevaluates, -⟩ := SearchRun.visit_inputs c r
    exact hevaluates
  · rw [SearchRun.visit_eq h]

theorem SearchRun.toEnd_found (c : Controller) (r : SearchRun) (hr : r.found ≤ 65535) :
    (r.toEnd c).found = min 65535 (r.found + r.codes.countP (r.accepts c)) := by
  refine SearchRun.toEnd_count (count := SearchRun.found) (p := SearchRun.accepts c) (fun r => ?_) (fun r h => ?_) r hr
  · obtain ⟨-, -, -, -, -, -, -, haccepts⟩ := SearchRun.visit_inputs c r
    exact haccepts
  · rw [SearchRun.visit_eq h]

end

/-- Settles O28: soundness and the number kept by induction on the units done; that no candidate is missed, from the ranked list of all
candidates whose first `keep` the search keeps. -/
theorem searchKeepsAcceptableCandidates : Obligations.SearchKeepsAcceptableCandidates := by
  intro c r n
  refine ⟨?sound, SearchRun.run_best_length n r, ?ranked, fun a b => ranksBefore_iff, ?counts, fun _ _ _ => bandExcluded_iff,
    fun lo step off h => ⟨firstOnGrid_onGrid h, fun x hx => firstOnGrid_le h hx.1 hx.2⟩, fun _ => codeUsed_iff⟩
  case sound =>
    intro y hy
    refine (SearchRun.mem_run_best n r y hy).imp_right ?_
    rintro ⟨⟨hlo, hhi, hgrid⟩, ha, hm⟩
    obtain ⟨hband, hmargin, hused⟩ := SearchRun.accepts_iff.1 ha
    exact ⟨hlo, hhi, hgrid, hband, hm ▸ hmargin, hm, hused⟩
  case ranked =>
    intro hempty
    obtain ⟨l, hbest, hsorted, hmem⟩ := SearchRun.toEnd_keepsFirstOfAll (c := c) r [] ⟨by simp [hempty], .nil, by simp⟩
    rw [hbest]
    refine ⟨hsorted.sublist (List.take_sublist ..), ?_⟩
    intro x hlo hhi hgrid hband m hm hused
    have hx : (x, m) ∈ l := hmem _ (.inr ⟨⟨hlo, hhi, hgrid⟩, SearchRun.accepts_iff.2 ⟨hband, hm, hused⟩, rfl⟩)
    rw [← List.take_append_drop r.keep l] at hx hsorted
    refine (List.mem_append.1 hx).imp_right fun hdrop => ⟨?_, fun y hy => ?_⟩
    · have := List.length_pos_of_mem hdrop
      rw [List.length_drop] at this
      rw [List.length_take]
      omega
    · exact (List.pairwise_append.1 hsorted).2.2 y hy _ hdrop
  case counts =>
    exact fun hfound hevaluated => ⟨SearchRun.toEnd_evaluated c r hevaluated, SearchRun.toEnd_found c r hfound⟩

end Sys2Proof.Machine
end

section
/-! PROOFS. Chapter 2: the slots of the carrier table, what a check reads of them, and the single changes of the table and the
reserve list (R19, R24, R28, R40). -/

namespace Sys2Proof.Machine

/-! ### Slots -/

theorem slotOf_eq_some_iff {t : List (Option CarrierEntry)} {k : Nat} {e : CarrierEntry} :
    slotOf t k = some e ↔ t[k]? = some (some e) := by
  rw [slotOf, List.getD_eq_getElem?_getD]
  cases t[k]? <;> simp

theorem slotOf_set (t : List (Option CarrierEntry)) (k j : Nat) (v : Option CarrierEntry) :
    slotOf (t.set k v) j = if j = k ∧ k < t.length then v else slotOf t j := put_getD t k j v none

theorem slotOf_set_of_ne {t : List (Option CarrierEntry)} {k j : Nat} (v : Option CarrierEntry) (h : j ≠ k) :
    slotOf (t.set k v) j = slotOf t j := by
  rw [slotOf_set, if_neg fun hj => h hj.1]

theorem lt_length_of_slotOf {t : List (Option CarrierEntry)} {k : Nat} {e : CarrierEntry} (h : slotOf t k = some e) :
    k < t.length :=
  (List.getElem?_eq_some_iff.1 (slotOf_eq_some_iff.1 h)).1

@[simp] theorem slotOf_set_none (t : List (Option CarrierEntry)) (k : Nat) : slotOf (t.set k none) k = none := by
  rw [slotOf_set]
  split
  · rfl
  · next h =>
    rw [slotOf, List.getD_eq_getElem?_getD, List.getElem?_eq_none (not_lt.1 fun hk => h ⟨rfl, hk⟩)]
    rfl

theorem slotOf_set_self {t : List (Option CarrierEntry)} {k : Nat} (v : Option CarrierEntry) (h : k < t.length) :
    slotOf (t.set k v) k = v := by
  rw [slotOf_set, if_pos ⟨rfl, h⟩]

theorem some_mem_iff_slotOf {t : List (Option CarrierEntry)} {e : CarrierEntry} : some e ∈ t ↔ ∃ k, slotOf t k = some e := by
  simp only [slotOf_eq_some_iff, List.mem_iff_getElem?]

theorem set_slotOf_self {t : List (Option CarrierEntry)} {k : Nat} {v : Option CarrierEntry} (h : t[k]? = some v) :
    t.set k v = t := by
  obtain ⟨hk, rfl⟩ := List.getElem?_eq_some_iff.1 h
  exact List.set_getElem_self hk

/-- The lowest free slot is free. -/
theorem lowestFree_eq_some {t : List (Option CarrierEntry)} {k : Nat} (h : lowestFree t = some k) : t[k]? = some none := by
  obtain ⟨hk, hfree, -⟩ := List.findIdx?_eq_some_iff_getElem.1 h
  rw [List.getElem?_eq_getElem hk, Option.isNone_iff_eq_none.1 hfree]

theorem slotOf_lowestFree {t : List (Option CarrierEntry)} {k : Nat} (h : lowestFree t = some k) : slotOf t k = none := by
  rw [slotOf, List.getD_eq_getElem?_getD, lowestFree_eq_some h]
  rfl

theorem lowestFree_eq_none {t : List (Option CarrierEntry)} : lowestFree t = none ↔ ∀ x ∈ t, x ≠ none := by
  simp [lowestFree, Option.isSome_iff_ne_none]

/-! ### What a check reads of the table -/

/-- The table as a check sees it, slot by slot. -/
def carrierSlots (t : List (Option CarrierEntry)) : List (Option Carrier) := t.map (Option.map CarrierEntry.carrier)

theorem tableCarriers_eq (t : List (Option CarrierEntry)) : tableCarriers t = (carrierSlots t).filterMap id := by
  simp [tableCarriers, carrierSlots, List.filterMap_map]

theorem carrierSlots_set (t : List (Option CarrierEntry)) (k : Nat) (v : Option CarrierEntry) :
    carrierSlots (t.set k v) = (carrierSlots t).set k (v.map CarrierEntry.carrier) := List.map_set ..

/-- A slot whose entry keeps its carrier. -/
theorem carrierSlots_set_of_carrier {t : List (Option CarrierEntry)} {k : Nat} {e x : CarrierEntry} (h : slotOf t k = some e)
    (hx : x.carrier = e.carrier) : carrierSlots (t.set k (some x)) = carrierSlots t := by
  rw [carrierSlots_set, Option.map_some, hx]
  obtain ⟨hk, he⟩ := List.getElem?_eq_some_iff.1 (slotOf_eq_some_iff.1 h)
  rw [show some e.carrier = (carrierSlots t)[k]'(by simpa [carrierSlots] using hk) by simp [carrierSlots, he]]
  exact List.set_getElem_self _

theorem tableCarriers_congr {t u : List (Option CarrierEntry)} (h : carrierSlots t = carrierSlots u) :
    tableCarriers t = tableCarriers u := by
  rw [tableCarriers_eq, tableCarriers_eq, h]

theorem entryCheck_congr {t u : List (Option CarrierEntry)} (h : carrierSlots t = carrierSlots u) (r : PlanRules) (k : Nat)
    (e : CarrierEntry) : entryCheck r t k e = entryCheck r u k e := by
  have hput : carrierSlots (put t k none) = carrierSlots (put u k none) := by
    rw [put, put, carrierSlots_set, carrierSlots_set, h]
  rw [entryCheck, entryCheck, tableCarriers_congr hput]

theorem mem_tableCarriers {t : List (Option CarrierEntry)} {a : Carrier} :
    a ∈ tableCarriers t ↔ ∃ k e, slotOf t k = some e ∧ e.carrier = a := by
  simp only [tableCarriers, List.mem_filterMap, Option.map_eq_some_iff]
  constructor
  · rintro ⟨-, ht, e, rfl, ha⟩
    obtain ⟨k, hk⟩ := some_mem_iff_slotOf.1 ht
    exact ⟨k, e, hk, ha⟩
  · rintro ⟨k, e, hk, ha⟩
    exact ⟨some e, some_mem_iff_slotOf.2 ⟨k, hk⟩, e, rfl, ha⟩

/-- A spacing margin is not negative when no carrier of the zone is too near. -/
theorem spacingMargin_nonneg_iff {r : PlanRules} {c k zone : Nat} {l : List Carrier} :
    0 ≤ spacingMargin r c k zone l ↔ ∀ a ∈ l, a.zone = zone → 0 ≤ spacingTo r c k a := by
  constructor
  · exact fun h a ha hz => h.trans (spacingMargin_le ha hz)
  · intro h
    rcases leastMargin_mem ((inZone zone l).map (spacingTo r c k)) with hm | hm
    · rw [spacingMargin, hm]
      decide
    · obtain ⟨a, ha, hm⟩ := List.mem_map.1 hm
      obtain ⟨hl, hz⟩ := mem_inZone.1 ha
      rw [spacingMargin, ← hm]
      exact h a hl hz

/-- What the entry check's spacing says of the other entries (R19, R24). -/
theorem entryCheck_spacing_nonneg_iff {r : PlanRules} {t : List (Option CarrierEntry)} {k : Nat} {e : CarrierEntry} :
    0 ≤ (entryCheck r t k e).spacing ↔
      ∀ j y, j ≠ k → slotOf t j = some y → y.zone = e.zone → 0 ≤ spacingTo r e.code e.cls y.carrier := by
  show 0 ≤ spacingMargin r e.code e.cls e.zone (tableCarriers (put t k none)) ↔ _
  rw [spacingMargin_nonneg_iff, put]
  constructor
  · intro h j y hjk hy hz
    exact h _ (mem_tableCarriers.2 ⟨j, y, by rwa [slotOf_set_of_ne _ hjk], rfl⟩) hz
  · rintro h a ha hz
    obtain ⟨j, y, hy, rfl⟩ := mem_tableCarriers.1 ha
    have hjk : j ≠ k := by
      rintro rfl
      simp at hy
    exact h j y hjk (by rwa [slotOf_set_of_ne _ hjk] at hy) hz

theorem spacingTo_comm (r : PlanRules) (a b : Carrier) : spacingTo r a.code a.cls b = spacingTo r b.code b.cls a := by
  rw [spacingTo_eq, spacingTo_eq, abs_sub_comm, max_comm, add_comm ((r.cls a.cls).hw : Int)]

/-! ### The change of one slot (R40) -/

theorem carrierReport_congr {s u : State} (h : u.now = s.now) (k : Nat) (old new : Option CarrierEntry) :
    carrierReport k old new u = carrierReport k old new s := by
  unfold carrierReport
  rw [h]

theorem markReports_congr {s u : State} (h : u.now = s.now) (k : Nat) (old new : CarrierEntry) :
    markReports k old new u = markReports k old new s := by
  simp only [markReports, carrierReport_congr h]

theorem setSlot_eq (k : Nat) (v : Option CarrierEntry) (s : State) :
    setSlot k v s = { s with
      ctl.table := s.ctl.table.set k v
      mail.reports := s.mail.reports ++
        (slotReports k s (slotOf s.ctl.table k) (slotChanges (slotOf s.ctl.table k) v)).map fun r => (.controller, r) } := rfl

/-- The reports of a new entry: the insertion with its marks clear, then each mark it bears. -/
theorem slotReports_insert (k : Nat) (e : CarrierEntry) (s : State) :
    (slotReports k s none (slotChanges none (some e))).map (fun r => ((.controller, r) : Owner × JReport)) =
      (.controller, carrierReport k none (some { e with conflict := false, excluded := false, imSuspect := false }) s) ::
        markReports k { e with conflict := false, excluded := false, imSuspect := false } e s := by
  obtain ⟨link, role, code, cls, zone, st, c, x, i, since⟩ := e
  cases st <;> cases c <;> cases x <;> cases i <;>
    simp [slotChanges, slotReports, markReports, carrierValue, CarrierEntry.marks, CarrierState.toNat, bit]

theorem CarrierState.toNat_inj {a b : CarrierState} (h : a.toNat = b.toNat) : a = b := by
  cases a <;> cases b <;> simp_all [CarrierState.toNat]

/-- The report of a change of state that leaves the marks. -/
theorem slotReports_state (k : Nat) (e : CarrierEntry) (st : CarrierState) (since : Timestamp) (s : State) (h : e.state ≠ st) :
    slotReports k s (some e) (slotChanges (some e) (some { e with state := st, since := since })) =
      [carrierReport k (some e) (some { e with state := st, since := since }) s] := by
  have hval : carrierValue (some e) ≠ carrierValue (some { e with state := st, since := since }) := by
    simpa [carrierValue, CarrierEntry.marks] using fun hst => h (CarrierState.toNat_inj hst)
  simp [slotChanges, slotReports, hval]

/-- Change the entry of a slot, if there is one. -/
def changeSlot (k : Nat) (g : CarrierEntry → CarrierEntry) (s : State) : State :=
  match slotOf s.ctl.table k with
  | none => s
  | some e => setSlot k (some (g e)) s

theorem changeSlot_of_none {k : Nat} {g : CarrierEntry → CarrierEntry} {s : State} (h : slotOf s.ctl.table k = none) :
    changeSlot k g s = s := by
  rw [changeSlot, h]

theorem changeSlot_of_some {k : Nat} {g : CarrierEntry → CarrierEntry} {s : State} {e : CarrierEntry}
    (h : slotOf s.ctl.table k = some e) : changeSlot k g s = setSlot k (some (g e)) s := by
  rw [changeSlot, h]

/-- A change of an entry's marks and of nothing else. -/
def MarksOnly (g : CarrierEntry → CarrierEntry) : Prop :=
  ∀ e, ∃ c x i, g e = { e with conflict := c, excluded := x, imSuspect := i }

theorem MarksOnly.carrier {g : CarrierEntry → CarrierEntry} (hg : MarksOnly g) (e : CarrierEntry) :
    (g e).carrier = e.carrier := by
  obtain ⟨c, x, i, h⟩ := hg e
  rw [h]
  rfl

/-- The reports of a change of marks in a slot. -/
def slotMarks (k : Nat) (g : CarrierEntry → CarrierEntry) (s : State) : List (Owner × JReport) :=
  (slotOf s.ctl.table k).elim [] fun e => markReports k e (g e) s

theorem changeSlot_marks {k : Nat} {g : CarrierEntry → CarrierEntry} {s : State} (hg : MarksOnly g) :
    changeSlot k g s = { s with
      ctl.table := s.ctl.table.set k ((slotOf s.ctl.table k).map g), mail.reports := s.mail.reports ++ slotMarks k g s } := by
  unfold slotMarks
  cases h : slotOf s.ctl.table k with
  | none =>
    have hset : s.ctl.table.set k none = s.ctl.table := by
      rcases lt_or_ge k s.ctl.table.length with hk | hk
      · refine set_slotOf_self ?_
        rw [slotOf, List.getD_eq_getElem?_getD, List.getElem?_eq_getElem hk] at h
        rw [List.getElem?_eq_getElem hk]
        exact congrArg some h
      · exact List.set_eq_of_length_le hk
    rw [changeSlot_of_none h, Option.map_none, Option.elim_none, hset, List.append_nil]
  | some e =>
    obtain ⟨c, x, i, hge⟩ := hg e
    rw [changeSlot_of_some h, Option.map_some, Option.elim_some, hge, ← setSlot_marks c x i h]
    rfl

/-- Rules, carriers and time are the same in two states: a check gives the same word in both. -/
structure SameCarriers (s u : State) : Prop where
  rules : u.ctl.rules = s.ctl.rules
  carriers : carrierSlots u.ctl.table = carrierSlots s.ctl.table
  now : u.now = s.now

theorem SameCarriers.refl (s : State) : SameCarriers s s := ⟨rfl, rfl, rfl⟩

theorem SameCarriers.trans {s u v : State} (h : SameCarriers s u) (h' : SameCarriers u v) : SameCarriers s v :=
  ⟨h'.rules.trans h.rules, h'.carriers.trans h.carriers, h'.now.trans h.now⟩

theorem SameCarriers.entryCheck {s u : State} (h : SameCarriers s u) (k : Nat) (e : CarrierEntry) :
    entryCheck u.ctl.rules u.ctl.table k e = entryCheck s.ctl.rules s.ctl.table k e := by
  rw [h.rules, entryCheck_congr h.carriers]

theorem sameCarriers_changeSlot {k : Nat} {g : CarrierEntry → CarrierEntry} (hg : MarksOnly g) (s : State) :
    SameCarriers s (changeSlot k g s) := by
  cases h : slotOf s.ctl.table k with
  | none => rw [changeSlot_of_none h]; exact .refl s
  | some e => rw [changeSlot_of_some h]; exact ⟨rfl, carrierSlots_set_of_carrier h (hg.carrier e), rfl⟩

/-- A walk over distinct slots that changes the marks of each by what the first state gives. -/
theorem foldl_changeSlot {α : Type} {slot : α → Nat} {g : α → CarrierEntry → CarrierEntry} (hg : ∀ a, MarksOnly (g a))
    {f : State → α → State} {s : State} {l : List α} (hl : (l.map slot).Nodup)
    (hf : ∀ u, SameCarriers s u → ∀ a, f u a = changeSlot (slot a) (g a) u) :
    ∃ T, l.foldl f s = { s with
        ctl.table := T, mail.reports := s.mail.reports ++ l.flatMap fun a => slotMarks (slot a) (g a) s } ∧
      carrierSlots T = carrierSlots s.ctl.table ∧
      (∀ a ∈ l, slotOf T (slot a) = (slotOf s.ctl.table (slot a)).map (g a)) ∧
      ∀ k, k ∉ l.map slot → slotOf T k = slotOf s.ctl.table k := by
  induction l generalizing s with
  | nil => exact ⟨s.ctl.table, by simp, rfl, by simp, fun _ _ => rfl⟩
  | cons a l ih =>
    obtain ⟨ha, hl⟩ := List.nodup_cons.1 hl
    have hsame := sameCarriers_changeSlot (k := slot a) (hg a) s
    obtain ⟨T, hT, hcar, hin, hout⟩ := ih hl fun u hu b => hf u (hsame.trans hu) b
    have hchange := changeSlot_marks (k := slot a) (s := s) (hg a)
    have hother : ∀ k, k ≠ slot a → slotOf (changeSlot (slot a) (g a) s).ctl.table k = slotOf s.ctl.table k := by
      intro k hk
      rw [hchange]
      exact slotOf_set_of_ne _ hk
    have hmarks : ∀ b ∈ l, slotMarks (slot b) (g b) (changeSlot (slot a) (g a) s) = slotMarks (slot b) (g b) s := by
      intro b hb
      have hne : slot b ≠ slot a := fun h => ha (h ▸ List.mem_map_of_mem hb)
      simp only [slotMarks, hother _ hne, markReports_congr hsame.now]
    refine ⟨T, ?_, hcar.trans hsame.carriers, ?_, ?_⟩
    · rw [List.foldl_cons, hf s (.refl s), hT, List.flatMap_congr hmarks, hchange, List.flatMap_cons]
      simp only [List.append_assoc]
    · intro b hb
      rcases List.mem_cons.1 hb with rfl | hb
      · rw [hout _ ha, hchange]
        cases h : slotOf s.ctl.table (slot b) with
        | none => exact slotOf_set_none ..
        | some e => exact slotOf_set_self _ (lt_length_of_slotOf h)
      · rw [hin b hb, hother _ fun h => ha (h ▸ List.mem_map_of_mem hb)]
    · intro k hk
      rw [List.map_cons, List.mem_cons, not_or] at hk
      rw [hout k hk.2, hother k hk.1]

/-- A walk over every slot. -/
theorem foldl_changeSlot_range {g : Nat → CarrierEntry → CarrierEntry} (hg : ∀ k, MarksOnly (g k)) {f : State → Nat → State}
    {s : State} (hf : ∀ u, SameCarriers s u → ∀ k, f u k = changeSlot k (g k) u) :
    ∃ T, (List.range s.ctl.table.length).foldl f s = { s with
        ctl.table := T
        mail.reports := s.mail.reports ++ (List.range s.ctl.table.length).flatMap fun k => slotMarks k (g k) s } ∧
      carrierSlots T = carrierSlots s.ctl.table ∧ ∀ k, slotOf T k = (slotOf s.ctl.table k).map (g k) := by
  obtain ⟨T, hT, hcar, hin, hout⟩ := foldl_changeSlot (slot := id) hg
    (by simpa using List.nodup_range (n := s.ctl.table.length)) hf
  refine ⟨T, hT, hcar, fun k => ?_⟩
  rcases lt_or_ge k s.ctl.table.length with hk | hk
  · exact hin k (List.mem_range.2 hk)
  · have hnone : slotOf s.ctl.table k = none := by rw [slotOf, List.getD_eq_default _ _ hk]
    rw [hout k (by simpa using hk), hnone]
    rfl

/-! ### The reserve list (R28, R40) -/

/-- The reports of the spares that meet p, in the order of the list. -/
def goneReports (p : ReserveEntry → Bool) (ch : ReserveChange) (s : State) : List (Owner × JReport) :=
  (s.ctl.reserve.filter p).map fun e => (.controller, reserveReport e.code ch 0 s)

theorem dropReserve_eq (p : ReserveEntry → Bool) (ch : ReserveChange) (s : State) :
    dropReserve p ch s = { s with
      ctl.reserve := s.ctl.reserve.filter fun e => !p e, mail.reports := s.mail.reports ++ goneReports p ch s } := by
  unfold dropReserve
  exact foldl_report .controller (fun (e : ReserveEntry) u => reserveReport e.code ch 0 u)
    (fun e => reserveReport e.code ch 0 s) _ _ fun e u hu => by unfold reserveReport; rw [hu]; rfl

/-- R28: the spares that a new entry removes. -/
def leavesFor (r : PlanRules) (e : CarrierEntry) (x : ReserveEntry) : Bool :=
  x.code = e.code || (x.zone = e.zone && spacingTo r x.code x.cls e.carrier < 0)

theorem spacingRemoval_eq (e : CarrierEntry) (s : State) :
    spacingRemoval e s = { s with
      ctl.reserve := s.ctl.reserve.filter fun x => !leavesFor s.ctl.rules e x
      mail.reports := s.mail.reports ++ goneReports (leavesFor s.ctl.rules e) .spacing s } := dropReserve_eq ..

theorem insertEntry_eq {e : CarrierEntry} {s : State} {k : Nat} (h : lowestFree s.ctl.table = some k) :
    insertEntry e s = { s with
      ctl.table := s.ctl.table.set k (some e), ctl.carrierGen := bumpGen s.ctl.carrierGen
      mail.reports := s.mail.reports ++
        (.controller, carrierReport k none (some { e with conflict := false, excluded := false, imSuspect := false }) s) ::
          markReports k { e with conflict := false, excluded := false, imSuspect := false } e s } := by
  rw [← slotReports_insert, ← slotOf_lowestFree h]
  unfold insertEntry
  rw [h]
  rfl

theorem insertEntry_of_full {e : CarrierEntry} {s : State} (h : lowestFree s.ctl.table = none) : insertEntry e s = s := by
  unfold insertEntry
  rw [h]

theorem bumpGen_add (g n : Nat) : bumpGen ((g + n) % 65536) = (g + (n + 1)) % 65536 := by
  unfold bumpGen
  omega

end Sys2Proof.Machine
end

section
/-! PROOFS. The carrier table, the reserve list, the plan rules and the two generations under the operations of the other blocks: none
changes them (R26). What these operations do to the controller is to put requests into its queue or to take them out. -/

namespace Sys2Proof.Machine

/-- The controller without its request queue. -/
def Controller.tables (c : Controller) : Controller := { c with queue := [] }

@[simp] theorem Controller.tables_queue (c : Controller) (q : List CtlReq) :
    ({ c with queue := q } : Controller).tables = c.tables := rfl

@[simp] theorem foldl_tables {α : Type} {f : State → α → State} (h : ∀ s a, (f s a).ctl.tables = s.ctl.tables) (l : List α)
    (s : State) : (l.foldl f s).ctl.tables = s.ctl.tables := by
  induction l generalizing s with
  | nil => rfl
  | cons a l ih => rw [List.foldl_cons, ih, h]

@[simp] theorem ite_tables {p : Prop} [Decidable p] (a b : State) :
    (if p then a else b).ctl.tables = if p then a.ctl.tables else b.ctl.tables := by
  split <;> rfl

/-! ### Orders, answers and the grant of a place -/

@[simp] theorem doneOrder_tables (o : Owner) (g : OrderTag) (res : Results) (k : ResultCode) (x : Option Nat) (s : State) :
    (doneOrder o g res k x s).ctl.tables = s.ctl.tables := by
  rw [doneOrder_frame]

@[simp] theorem refuseOrder_tables (o : Owner) (g : OrderTag) (res : Results) (k : ResultCode) (x : Option Nat) (s : State) :
    (refuseOrder o g res k x s).ctl.tables = s.ctl.tables := by
  rw [refuseOrder_frame]

@[simp] theorem answerInsert_tables (byEngine : Bool) (a : InsertAnswer) (s : State) :
    (answerInsert byEngine a s).ctl.tables = s.ctl.tables := by
  cases byEngine <;> rfl

@[simp] theorem clearReserveGrantStep_tables (s : State) : (clearReserveGrantStep s).ctl.tables = s.ctl.tables := by
  unfold clearReserveGrantStep
  (repeat' split) <;> simp

/-! ### The gate -/

@[simp] theorem sendLink_tables (i : Nat) (r : CtlReq) (s : State) : (sendLink i r s).ctl.tables = s.ctl.tables := by
  rw [sendLink_frame]
  rfl

@[simp] theorem linkAnswered_tables (i : Nat) (s : State) : (linkAnswered i s).ctl.tables = s.ctl.tables := by
  rw [linkAnswered_frame]
  rfl

@[simp] theorem answerCancelled_tables (r : CtlReq) (s : State) : (answerCancelled r s).ctl.tables = s.ctl.tables := by
  cases r <;> simp [answerCancelled]

@[simp] theorem dropHeld_tables (s : State) (r : CtlReq) : (dropHeld s r).ctl.tables = s.ctl.tables := by
  unfold dropHeld
  split <;> simp

@[simp] theorem insertAnswered_tables (a : InsertAnswer) (s : State) : (insertAnswered a s).ctl.tables = s.ctl.tables := by
  simp [insertAnswered]

@[simp] theorem sendPurge_tables (i : Nat) (s : State) : (sendPurge i s).ctl.tables = s.ctl.tables := by simp [sendPurge]

@[simp] theorem sendEngineInsert_tables (i seq : Nat) (roles : List (RolePlan × Nat)) (s : State) :
    (sendEngineInsert i seq roles s).ctl.tables = s.ctl.tables := by
  unfold sendEngineInsert
  split <;> simp

/-! ### The unit link -/

@[simp] theorem trySweep_tables (s : State) : (trySweep s).ctl.tables = s.ctl.tables := by
  unfold trySweep
  (repeat' split) <;> simp

@[simp] theorem sweepSpacingExpiryStep_tables (s : State) : (sweepSpacingExpiryStep s).ctl.tables = s.ctl.tables := by
  simp [sweepSpacingExpiryStep]

@[simp] theorem sweepPollEnded_tables (unit : Nat) (s : State) : (sweepPollEnded unit s).ctl.tables = s.ctl.tables := by
  simp [sweepPollEnded]

@[simp] theorem placeAttention_tables (s : State) : (placeAttention s).ctl.tables = s.ctl.tables := by
  unfold placeAttention
  dsimp only
  (repeat' split) <;> simp

@[simp] theorem beginRound_tables (s : State) : (beginRound s).ctl.tables = s.ctl.tables := by simp [beginRound]

@[simp] theorem uatnAssertedStep_tables (s : State) : (uatnAssertedStep s).ctl.tables = s.ctl.tables := by
  simp [uatnAssertedStep]

@[simp] theorem uatnDeassertedStep_tables (s : State) : (uatnDeassertedStep s).ctl.tables = s.ctl.tables := rfl

@[simp] theorem attentionPollEnded_tables (unit : Nat) (quiet : Bool) (s : State) :
    (attentionPollEnded unit quiet s).ctl.tables = s.ctl.tables := by simp [attentionPollEnded]

@[simp] theorem rebuildUnits_tables (s : State) : (rebuildUnits s).ctl.tables = s.ctl.tables := by simp [rebuildUnits]

@[simp] theorem tellKillControl_tables (r : KillReq) (ok : Bool) (s : State) :
    (tellKillControl r ok s).ctl.tables = s.ctl.tables := by
  unfold tellKillControl
  split <;> simp

@[simp] theorem tellLineTest_tables (r : LoopResult) (s : State) : (tellLineTest r s).ctl.tables = s.ctl.tables := rfl

@[simp] theorem endAnswered_tables (req : UlReq) (reply : Reply) (s : State) :
    (endAnswered req reply s).ctl.tables = s.ctl.tables := by
  unfold endAnswered
  split <;> simp

@[simp] theorem endFailed_tables (req : UlReq) (s : State) : (endFailed req s).ctl.tables = s.ctl.tables := by
  unfold endFailed
  split <;> simp

@[simp] theorem sendFrame_tables (req : UlReq) (second : Bool) (s : State) :
    (sendFrame req second s).ctl.tables = s.ctl.tables := by
  rw [sendFrame_frame]

@[simp] theorem arbitrate_tables (s : State) : (arbitrate s).ctl.tables = s.ctl.tables := by
  rw [arbitrate_frame]

@[simp] theorem noReply_tables (x : Transaction) (s : State) : (noReply x s).ctl.tables = s.ctl.tables := by simp [noReply]

@[simp] theorem unitFrameReceivedStep_tables (bytes : List Byte) (s : State) :
    (unitFrameReceivedStep bytes s).ctl.tables = s.ctl.tables := by
  unfold unitFrameReceivedStep
  (repeat' split) <;> simp

@[simp] theorem frameTransmittedStep_tables (s : State) : (frameTransmittedStep s).ctl.tables = s.ctl.tables := by
  unfold frameTransmittedStep
  (repeat' split) <;> simp

@[simp] theorem replyTimeoutStep_tables (s : State) : (replyTimeoutStep s).ctl.tables = s.ctl.tables := by
  unfold replyTimeoutStep
  split <;> simp

@[simp] theorem lineTestGoOn_tables (t : LineTest) (s : State) : (lineTestGoOn t s).ctl.tables = s.ctl.tables := by
  unfold lineTestGoOn
  split <;> simp

@[simp] theorem lineTestStep_tables (s : State) : (lineTestStep s).ctl.tables = s.ctl.tables := by
  unfold lineTestStep
  dsimp only
  (repeat' split) <;> simp

@[simp] theorem loopOutcomeStep_tables (s : State) : (loopOutcomeStep s).ctl.tables = s.ctl.tables := by
  unfold loopOutcomeStep
  (repeat' split) <;> simp

/-! ### Tally -/

@[simp] theorem setCam_tables (c : Nat) (stamp : Timestamp) (r : CamRec) (s : State) :
    (setCam c stamp r s).ctl.tables = s.ctl.tables := by simp [setCam]

@[simp] theorem modCam_tables (c : Nat) (f : CamRec → CamRec) (s : State) : (modCam c f s).ctl.tables = s.ctl.tables := by
  simp [modCam]

@[simp] theorem resolveCam_tables (stamp : Timestamp) (s : State) (c : Nat) :
    (resolveCam stamp s c).ctl.tables = s.ctl.tables := by simp [resolveCam]

@[simp] theorem resolveColours_tables (stamp : Timestamp) (s : State) :
    (resolveColours stamp s).ctl.tables = s.ctl.tables := by simp [resolveColours]

@[simp] theorem contactInputChangeStep_tables (n : Nat) (active : Bool) (s : State) :
    (contactInputChangeStep n active s).ctl.tables = s.ctl.tables := by simp [contactInputChangeStep]

@[simp] theorem contactEdge_tables (n : Nat) (s : State) : (contactEdge n s).ctl.tables = s.ctl.tables := by
  simp [contactEdge]

@[simp] theorem contactFilterRunCompleteStep_tables (n : Nat) (s : State) :
    (contactFilterRunCompleteStep n s).ctl.tables = s.ctl.tables := by simp [contactFilterRunCompleteStep]

@[simp] theorem setTallyStep_tables (s : State) : (setTallyStep s).ctl.tables = s.ctl.tables := by
  unfold setTallyStep
  split <;> simp

@[simp] theorem queueCue_tables (c : Nat) (resend : Bool) (s : State) : (queueCue c resend s).ctl.tables = s.ctl.tables := by
  unfold queueCue
  (repeat' split) <;> simp

@[simp] theorem withdrawCues_tables (c : Nat) (s : State) : (withdrawCues c s).ctl.tables = s.ctl.tables := rfl
@[simp] theorem alarmTest_tables (r : CamRec) (s : State) : (alarmTest r s).ctl.tables = s.ctl.tables := by simp [alarmTest]

@[simp] theorem setDelivery_tables (c : Nat) (d : Delivery) (s : State) : (setDelivery c d s).ctl.tables = s.ctl.tables := by
  simp [setDelivery]

@[simp] theorem decideDelivery_tables (c : Nat) (s : State) : (decideDelivery c s).ctl.tables = s.ctl.tables := by
  simp [decideDelivery]

@[simp] theorem resolveLink_tables (s : State) (c : Nat) : (resolveLink s c).ctl.tables = s.ctl.tables := by
  simp [resolveLink]

@[simp] theorem tallyStationAdoptionStep_tables (s : State) : (tallyStationAdoptionStep s).ctl.tables = s.ctl.tables := by
  unfold tallyStationAdoptionStep
  split <;> simp

@[simp] theorem linkMoved_tables (old new : LinkState) (s : State) (c : Nat) :
    (linkMoved old new s c).ctl.tables = s.ctl.tables := by simp [linkMoved]

@[simp] theorem linkStateToTallyStep_tables (s : State) : (linkStateToTallyStep s).ctl.tables = s.ctl.tables := by
  unfold linkStateToTallyStep
  split <;> simp

@[simp] theorem applyCam_tables (s : State) (c : Nat) : (applyCam s c).ctl.tables = s.ctl.tables := by simp [applyCam]

@[simp] theorem driveLamps_tables (before : List Lamp) (s : State) : (driveLamps before s).ctl.tables = s.ctl.tables := by
  simp [driveLamps]

@[simp] theorem handColours_tables (cams : List Nat) (s : State) : (handColours cams s).ctl.tables = s.ctl.tables := by
  simp [handColours]

@[simp] theorem lampApplyStep_tables (s : State) : (lampApplyStep s).ctl.tables = s.ctl.tables := by simp [lampApplyStep]
@[simp] theorem callMoved_tables (s : State) (c : Nat) : (callMoved s c).ctl.tables = s.ctl.tables := by simp [callMoved]

@[simp] theorem callChangeStep_tables (s : State) : (callChangeStep s).ctl.tables = s.ctl.tables := by
  unfold callChangeStep
  split <;> simp

@[simp] theorem goUnconfirmed_tables (c : Nat) (s : State) : (goUnconfirmed c s).ctl.tables = s.ctl.tables := by
  simp [goUnconfirmed]

@[simp] theorem cueOutcomeStep_tables (s : State) : (cueOutcomeStep s).ctl.tables = s.ctl.tables := by
  unfold cueOutcomeStep
  split <;> simp

@[simp] theorem takeEcho_tables (r : Report) (s : State) (c : Nat) : (takeEcho r s c).ctl.tables = s.ctl.tables := by
  unfold takeEcho
  dsimp only
  (repeat' split) <;> simp

@[simp] theorem tallyEchoReportStep_tables (s : State) : (tallyEchoReportStep s).ctl.tables = s.ctl.tables := by
  unfold tallyEchoReportStep
  split <;> simp

@[simp] theorem tallyKillStateStep_tables (s : State) : (tallyKillStateStep s).ctl.tables = s.ctl.tables := by
  unfold tallyKillStateStep
  split <;> simp

@[simp] theorem completeRun_tables (s : State) (n : Nat) : (completeRun s n).ctl.tables = s.ctl.tables := by
  simp [completeRun]

@[simp] theorem tallyCueAdoption_tables (map : List MapEntry) (widths : List Nat) (s : State) :
    (tallyCueAdoption map widths s).ctl.tables = s.ctl.tables := by simp [tallyCueAdoption]

@[simp] theorem tallyRun_tables (s : State) : (tallyRun s).ctl.tables = s.ctl.tables := by simp [tallyRun]

/-! ### The timebase -/

@[simp] theorem applyRequest_tables (o : Output) (s : State) : (applyRequest o s).ctl.tables = s.ctl.tables := by
  unfold applyRequest
  split <;> simp

@[simp] theorem triggerRequests_tables (p : Triggers → Bool) (s : State) :
    (triggerRequests p s).ctl.tables = s.ctl.tables := by simp [triggerRequests]

@[simp] theorem stagedChangeStep_tables (s : State) : (stagedChangeStep s).ctl.tables = s.ctl.tables := by
  unfold stagedChangeStep
  split <;> simp

@[simp] theorem applyStep_tables (s : State) : (applyStep s).ctl.tables = s.ctl.tables := by
  unfold applyStep
  split <;> simp

@[simp] theorem applyAnswerStep_tables (s : State) : (applyAnswerStep s).ctl.tables = s.ctl.tables := by
  unfold applyAnswerStep
  (repeat' split) <;> simp

@[simp] theorem setClockStep_tables (s : State) : (setClockStep s).ctl.tables = s.ctl.tables := by
  unfold setClockStep
  split <;> simp

@[simp] theorem setWaitingClock_tables (s : State) : (setWaitingClock s).ctl.tables = s.ctl.tables := by
  unfold setWaitingClock
  split <;> simp

@[simp] theorem takeRate_tables (s : State) : (takeRate s).ctl.tables = s.ctl.tables := by
  unfold takeRate
  split <;> simp

@[simp] theorem boundary_tables (s : State) : (boundary s).ctl.tables = s.ctl.tables := by simp [boundary]

@[simp] theorem setReference_tables (locked : Bool) (s : State) : (setReference locked s).ctl.tables = s.ctl.tables := by
  simp [setReference]

@[simp] theorem internalBoundary_tables (s : State) : (internalBoundary s).ctl.tables = s.ctl.tables := by
  simp [internalBoundary]

@[simp] theorem tickTimebase_tables (s : State) : (tickTimebase s).ctl.tables = s.ctl.tables := by simp [tickTimebase]

@[simp] theorem frameBoundaryStep_tables (s : State) : (frameBoundaryStep s).ctl.tables = s.ctl.tables := by
  simp [frameBoundaryStep]

@[simp] theorem framePulseStep_tables (s : State) : (framePulseStep s).ctl.tables = s.ctl.tables := by simp [framePulseStep]

@[simp] theorem takeInputChangeStep_tables (active : Bool) (s : State) :
    (takeInputChangeStep active s).ctl.tables = s.ctl.tables := rfl

@[simp] theorem takeEdge_tables (s : State) : (takeEdge s).ctl.tables = s.ctl.tables := by simp [takeEdge]

@[simp] theorem takeFilterRunCompleteStep_tables (s : State) : (takeFilterRunCompleteStep s).ctl.tables = s.ctl.tables := by
  simp [takeFilterRunCompleteStep]

@[simp] theorem timebaseCueAdoption_tables (c : CueSettings) (s : State) :
    (timebaseCueAdoption c s).ctl.tables = s.ctl.tables := by simp [timebaseCueAdoption]

/-! ### Kill control -/

@[simp] theorem assertKill_tables (cause : KillCause) (s : State) : (assertKill cause s).ctl.tables = s.ctl.tables := by
  simp [assertKill]

@[simp] theorem releaseKill_tables (s : State) : (releaseKill s).ctl.tables = s.ctl.tables := rfl

@[simp] theorem killStep_tables (s : State) : (killStep s).ctl.tables = s.ctl.tables := by
  unfold killStep
  split <;> simp

@[simp] theorem releaseKillStep_tables (s : State) : (releaseKillStep s).ctl.tables = s.ctl.tables := by
  unfold releaseKillStep
  split <;> simp

@[simp] theorem killInputChangeStep_tables (active : Bool) (s : State) :
    (killInputChangeStep active s).ctl.tables = s.ctl.tables := rfl

@[simp] theorem takeLine_tables (s : State) : (takeLine s).ctl.tables = s.ctl.tables := by simp [takeLine]

@[simp] theorem killFilterRunCompleteStep_tables (s : State) : (killFilterRunCompleteStep s).ctl.tables = s.ctl.tables := by
  simp [killFilterRunCompleteStep]

@[simp] theorem adoptKillWidth_tables (w : Nat) (s : State) : (adoptKillWidth w s).ctl.tables = s.ctl.tables := by
  simp [adoptKillWidth]

@[simp] theorem placeMute_tables (t : MuteTarget) (s : State) : (placeMute t s).ctl.tables = s.ctl.tables := by
  simp [placeMute]

@[simp] theorem killMuteListStep_tables (s : State) : (killMuteListStep s).ctl.tables = s.ctl.tables := by
  unfold killMuteListStep
  split <;> simp

@[simp] theorem killMuteOutcomeStep_tables (s : State) : (killMuteOutcomeStep s).ctl.tables = s.ctl.tables := by
  unfold killMuteOutcomeStep
  split <;> simp

@[simp] theorem killMuteRetryExpiryStep_tables (l : Nat) (s : State) :
    (killMuteRetryExpiryStep l s).ctl.tables = s.ctl.tables := by
  unfold killMuteRetryExpiryStep
  dsimp only
  (repeat' split) <;> simp

@[simp] theorem killRun_tables (s : State) : (killRun s).ctl.tables = s.ctl.tables := by simp [killRun]

/-! ### The plan engine -/

@[simp] theorem queuePlanning_tables (r : PlanningReq) (s : State) : (queuePlanning r s).ctl.tables = s.ctl.tables := by
  simp [queuePlanning]

@[simp] theorem planPlaceGrantStep_tables (s : State) : (planPlaceGrantStep s).ctl.tables = s.ctl.tables := by
  unfold planPlaceGrantStep
  (repeat' split) <;> simp

@[simp] theorem endPlanOrder_tables (tag : OrderTag) (res : Results) (code : ResultCode) (s : State) :
    (endPlanOrder tag res code s).ctl.tables = s.ctl.tables := by simp [endPlanOrder]

@[simp] theorem endFill_tables (tag : OrderTag) (f : FillRun) (code : ResultCode) (s : State) :
    (endFill tag f code s).ctl.tables = s.ctl.tables := by simp [endFill]

@[simp] theorem fillNext_tables (tag : OrderTag) (p : PlanParams) (sv : Service) (s : State) :
    (fillNext tag p sv s).ctl.tables = s.ctl.tables := by simp [fillNext]

@[simp] theorem planServiceStartStep_tables (s : State) : (planServiceStartStep s).ctl.tables = s.ctl.tables := by
  unfold planServiceStartStep
  (repeat' split) <;> simp

@[simp] theorem answerPlanning_tables (r : PlanningReq) (sv : Service) (result : ResultCode) (afterCancel : Bool)
    (roles : List RoleAnswer) (nothingFor : Option Role) (s : State) :
    (answerPlanning r sv result afterCancel roles nothingFor s).ctl.tables = s.ctl.tables := rfl

@[simp] theorem planningAttemptEndStep_tables (s : State) : (planningAttemptEndStep s).ctl.tables = s.ctl.tables := by
  unfold planningAttemptEndStep
  dsimp only
  (repeat' split) <;> simp

@[simp] theorem planningInsertAnswerStep_tables (s : State) : (planningInsertAnswerStep s).ctl.tables = s.ctl.tables := by
  unfold planningInsertAnswerStep
  (repeat' split) <;> simp

@[simp] theorem querySearchEndStep_tables (s : State) : (querySearchEndStep s).ctl.tables = s.ctl.tables := by
  unfold querySearchEndStep
  (repeat' split) <;> simp

@[simp] theorem fillSearchEndStep_tables (s : State) : (fillSearchEndStep s).ctl.tables = s.ctl.tables := by
  unfold fillSearchEndStep
  dsimp only
  (repeat' split) <;> simp

@[simp] theorem appendAnswerStep_tables (s : State) : (appendAnswerStep s).ctl.tables = s.ctl.tables := by
  unfold appendAnswerStep
  (repeat' split) <;> simp

@[simp] theorem auditMeasuringEndStep_tables (s : State) : (auditMeasuringEndStep s).ctl.tables = s.ctl.tables := by
  unfold auditMeasuringEndStep
  (repeat' split) <;> simp

@[simp] theorem markAnswerStep_tables (s : State) : (markAnswerStep s).ctl.tables = s.ctl.tables := by
  unfold markAnswerStep
  (repeat' split) <;> simp

@[simp] theorem answerUnstarted_tables (r : PlanningReq) (s : State) : (answerUnstarted r s).ctl.tables = s.ctl.tables :=
    rfl

@[simp] theorem cancelStep_tables (s : State) : (cancelStep s).ctl.tables = s.ctl.tables := by
  unfold cancelStep
  dsimp only
  (repeat' split) <;> simp

/-! ### Links -/

@[simp] theorem setLink_tables (i : Nat) (l : Link) (s : State) : (setLink i l s).ctl.tables = s.ctl.tables := by
  obtain ⟨j, rs, vt, vr, h, -⟩ := setLink_change i l s
  rw [h]

@[simp] theorem modLink_tables (i : Nat) (f : Link → Link) (s : State) : (modLink i f s).ctl.tables = s.ctl.tables := by
  simp [modLink]

@[simp] theorem sendUpdate_tables (i : Nat) (changes : List CarrierChange) (s : State) :
    (sendUpdate i changes s).ctl.tables = s.ctl.tables := by simp [sendUpdate]

@[simp] theorem removeNew_tables (i : Nat) (s : State) : (removeNew i s).ctl.tables = s.ctl.tables := by simp [removeNew]

@[simp] theorem entryHealth_tables (i : Nat) (s : State) : (entryHealth i s).ctl.tables = s.ctl.tables := by
  unfold entryHealth
  split <;> simp

@[simp] theorem queueControl_tables (i : Nat) (kind : ControlKind) (o n : Bool) (s : State) :
    (queueControl i kind o n s).ctl.tables = s.ctl.tables := by
  unfold queueControl
  split <;> simp

@[simp] theorem queueForSequence_tables (i : Nat) (kind : ControlKind) (s : State) :
    (queueForSequence i kind s).ctl.tables = s.ctl.tables := by simp [queueForSequence]

@[simp] theorem queueDeclared_tables (i : Nat) (kind : ControlKind) (s : State) :
    (queueDeclared i kind s).ctl.tables = s.ctl.tables := by
  unfold queueDeclared
  split <;> simp

@[simp] theorem completeLinkOrder_tables (i : Nat) (l : Link) (code : ResultCode) (s : State) :
    (completeLinkOrder i l code s).ctl.tables = s.ctl.tables := by
  unfold completeLinkOrder
  split <;> simp

@[simp] theorem refuseLinkOrder_tables (o : LinkOrder) (code : ResultCode) (s : State) :
    (refuseLinkOrder o code s).ctl.tables = s.ctl.tables := by simp [refuseLinkOrder]

@[simp] theorem refuseLinkParameter_tables (o : LinkOrder) (offset : Nat) (s : State) :
    (refuseLinkParameter o offset s).ctl.tables = s.ctl.tables := rfl

@[simp] theorem takeLinkOrder_tables (o : LinkOrder) (s : State) : (takeLinkOrder o s).ctl.tables = s.ctl.tables := by
  simp [takeLinkOrder]

@[simp] theorem beginHold_tables (i : Nat) (reason : HoldReason) (s : State) :
    (beginHold i reason s).ctl.tables = s.ctl.tables := by simp [beginHold]

@[simp] theorem proceedFailover_tables (i : Nat) (permitKept : Bool) (s : State) :
    (proceedFailover i permitKept s).ctl.tables = s.ctl.tables := by simp [proceedFailover]

@[simp] theorem evaluateFailover_tables (i : Nat) (s : State) : (evaluateFailover i s).ctl.tables = s.ctl.tables := by
  simp [evaluateFailover]

@[simp] theorem recheckHold_tables (i : Nat) (s : State) : (recheckHold i s).ctl.tables = s.ctl.tables := by
  simp [recheckHold]

@[simp] theorem healthChanged_tables (i : Nat) (s : State) : (healthChanged i s).ctl.tables = s.ctl.tables := by
  simp [healthChanged]

@[simp] theorem healthChangedFrom_tables (before : Option Health × Option Health) (i : Nat) (s : State) :
    (healthChangedFrom before i s).ctl.tables = s.ctl.tables := by simp [healthChangedFrom]

@[simp] theorem enterActive_tables (i : Nat) (s : State) : (enterActive i s).ctl.tables = s.ctl.tables := by
  simp [enterActive]

@[simp] theorem holdAgain_tables (i : Nat) (s : State) : (holdAgain i s).ctl.tables = s.ctl.tables := by simp [holdAgain]
@[simp] theorem goTuneSent_tables (i : Nat) (s : State) : (goTuneSent i s).ctl.tables = s.ctl.tables := by simp [goTuneSent]

@[simp] theorem inserted_tables (i : Nat) (roles : List RoleAnswer) (s : State) :
    (inserted i roles s).ctl.tables = s.ctl.tables := by simp [inserted]

@[simp] theorem returnWith_tables (f : Link → Link) (i : Nat) (code : ResultCode) (s : State) :
    (returnWith f i code s).ctl.tables = s.ctl.tables := by simp [returnWith]

@[simp] theorem returnToStart_tables (i : Nat) (code : ResultCode) (s : State) :
    (returnToStart i code s).ctl.tables = s.ctl.tables := by simp [returnToStart]

@[simp] theorem returnBlocked_tables (b : FailoverBlock) (i : Nat) (code : ResultCode) (s : State) :
    (returnBlocked b i code s).ctl.tables = s.ctl.tables := by simp [returnBlocked]

@[simp] theorem faultLink_tables (i : Nat) (s : State) : (faultLink i s).ctl.tables = s.ctl.tables := by simp [faultLink]

@[simp] theorem sendInsert_tables (i : Nat) (codes : List (Role × Nat)) (s : State) :
    (sendInsert i codes s).ctl.tables = s.ctl.tables := by simp [sendInsert]

@[simp] theorem seekEntries_tables (i : Nat) (o : LinkOrder) (roles : List Role) (s : State) :
    (seekEntries i o roles s).ctl.tables = s.ctl.tables := by simp [seekEntries]

@[simp] theorem proceedRetune_tables (i : Nat) (permitKept : Bool) (s : State) :
    (proceedRetune i permitKept s).ctl.tables = s.ctl.tables := by
  unfold proceedRetune
  dsimp only
  (repeat' split) <;> simp

@[simp] theorem proceedFromHold_tables (i : Nat) (permitKept : Bool) (s : State) :
    (proceedFromHold i permitKept s).ctl.tables = s.ctl.tables := by
  unfold proceedFromHold
  split <;> simp

@[simp] theorem recheckTally_tables (i : Nat) (s : State) : (recheckTally i s).ctl.tables = s.ctl.tables := by
  simp [recheckTally]

@[simp] theorem guardEnds_tables (i : Nat) (s : State) : (guardEnds i s).ctl.tables = s.ctl.tables := by simp [guardEnds]
@[simp] theorem goGuard_tables (i : Nat) (s : State) : (goGuard i s).ctl.tables = s.ctl.tables := by simp [goGuard]
@[simp] theorem goUnmuting_tables (i : Nat) (s : State) : (goUnmuting i s).ctl.tables = s.ctl.tables := by simp [goUnmuting]
@[simp] theorem startPollTimer_tables (i : Nat) (s : State) : (startPollTimer i s).ctl.tables = s.ctl.tables := rfl

@[simp] theorem resumePolls_tables (i : Nat) (s : State) : (resumePolls i s).ctl.tables = s.ctl.tables := by
  simp [resumePolls]

@[simp] theorem goActive_tables (i : Nat) (s : State) : (goActive i s).ctl.tables = s.ctl.tables := by simp [goActive]

@[simp] theorem tryCompletePark_tables (i : Nat) (s : State) : (tryCompletePark i s).ctl.tables = s.ctl.tables := by
  unfold tryCompletePark
  dsimp only
  (repeat' split) <;> simp

@[simp] theorem displaceMute_tables (i : Nat) (s : State) : (displaceMute i s).ctl.tables = s.ctl.tables := by
  simp [displaceMute]

@[simp] theorem beginRestore_tables (i : Nat) (s : State) : (beginRestore i s).ctl.tables = s.ctl.tables := by
  unfold beginRestore
  split <;> simp

/-! ### The link supervisor's steps -/

@[simp] theorem refuseAs_tables (o : LinkOrder) (r : ResultCode × Option Nat) (s : State) :
    (refuseAs o r s).ctl.tables = s.ctl.tables := by
  unfold refuseAs
  split <;> simp

@[simp] theorem beginEnable_tables (o : LinkOrder) (s : State) : (beginEnable o s).ctl.tables = s.ctl.tables := by
  unfold beginEnable
  dsimp only
  (repeat' split) <;> simp

@[simp] theorem enableLinkStep_tables (s : State) : (enableLinkStep s).ctl.tables = s.ctl.tables := by
  unfold enableLinkStep
  dsimp only
  (repeat' split) <;> simp

@[simp] theorem retuneLinkStep_tables (s : State) : (retuneLinkStep s).ctl.tables = s.ctl.tables := by
  unfold retuneLinkStep
  dsimp only
  (repeat' split) <;> simp

@[simp] theorem cancelPlanning_tables (i : Nat) (s : State) : (cancelPlanning i s).ctl.tables = s.ctl.tables := by
  simp [cancelPlanning]

@[simp] theorem beginPark_tables (o : LinkOrder) (s : State) : (beginPark o s).ctl.tables = s.ctl.tables := by
  simp only [beginPark, sendPurge_tables]
  split <;> simp

@[simp] theorem parkLinkStep_tables (s : State) : (parkLinkStep s).ctl.tables = s.ctl.tables := by
  unfold parkLinkStep
  dsimp only
  (repeat' split) <;> simp

@[simp] theorem sendKillUpdate_tables (i : Nat) (s : State) : (sendKillUpdate i s).ctl.tables = s.ctl.tables := by
  simp [sendKillUpdate]

@[simp] theorem killAnswered_tables (i seq : Nat) (roles : List RoleAnswer) (wasInserted : Bool) (s : State) :
    (killAnswered i seq roles wasInserted s).ctl.tables = s.ctl.tables := by simp [killAnswered]

@[simp] theorem planningAnswerStep_tables (s : State) : (planningAnswerStep s).ctl.tables = s.ctl.tables := by
  unfold planningAnswerStep
  (repeat' split) <;> simp

@[simp] theorem insertionAnswerStep_tables (s : State) : (insertionAnswerStep s).ctl.tables = s.ctl.tables := by
  unfold insertionAnswerStep
  (repeat' split) <;> simp

@[simp] theorem failoverTakeAnswerStep_tables (s : State) : (failoverTakeAnswerStep s).ctl.tables = s.ctl.tables := by
  unfold failoverTakeAnswerStep
  (repeat' split) <;> simp

@[simp] theorem learnAnswerStep_tables (s : State) : (learnAnswerStep s).ctl.tables = s.ctl.tables := by
  unfold learnAnswerStep
  dsimp only
  (repeat' split) <;> simp

@[simp] theorem liveUpdateAnswerStep_tables (s : State) : (liveUpdateAnswerStep s).ctl.tables = s.ctl.tables := by
  unfold liveUpdateAnswerStep
  split <;> simp

@[simp] theorem updateAnswerStep_tables (s : State) : (updateAnswerStep s).ctl.tables = s.ctl.tables := by
  unfold updateAnswerStep
  split <;> simp

@[simp] theorem purgeAnswerStep_tables (s : State) : (purgeAnswerStep s).ctl.tables = s.ctl.tables := by
  unfold purgeAnswerStep
  split <;> simp

@[simp] theorem takeOutcome_tables {kind : ControlKind} {p : ControlResult → Bool} {f : ControlOutcome → State → State}
    {s : State}
    (h : ∀ o u, (f o u).ctl.tables = u.ctl.tables) :
    (takeOutcome kind p f s).ctl.tables = s.ctl.tables := by
  unfold takeOutcome
  (repeat' split) <;> simp [h]

@[simp] theorem tuneAckStep_tables (s : State) : (tuneAckStep s).ctl.tables = s.ctl.tables := takeOutcome_tables fun o u => by
  split <;> simp

@[simp] theorem tuneFails_tables (i : Nat) (s : State) : (tuneFails i s).ctl.tables = s.ctl.tables := by
  unfold tuneFails
  split <;> simp

@[simp] theorem tuneFailedStep_tables (s : State) : (tuneFailedStep s).ctl.tables = s.ctl.tables := takeOutcome_tables fun o u => by
  split <;> simp

@[simp] theorem tuneWithheldStep_tables (s : State) : (tuneWithheldStep s).ctl.tables = s.ctl.tables := takeOutcome_tables fun o u => by
  (repeat' split) <;> simp

@[simp] theorem unmuteAckStep_tables (s : State) : (unmuteAckStep s).ctl.tables = s.ctl.tables := by simp [unmuteAckStep]

@[simp] theorem unmuteFailedStep_tables (s : State) : (unmuteFailedStep s).ctl.tables = s.ctl.tables := by
  simp [unmuteFailedStep]

@[simp] theorem unmuteWithheldStep_tables (s : State) : (unmuteWithheldStep s).ctl.tables = s.ctl.tables := by
  simp [unmuteWithheldStep]

@[simp] theorem parkMuteOutcomeStep_tables (s : State) : (parkMuteOutcomeStep s).ctl.tables = s.ctl.tables := by
  unfold parkMuteOutcomeStep
  split <;> simp

@[simp] theorem settlePollOutcomeStep_tables (s : State) : (settlePollOutcomeStep s).ctl.tables = s.ctl.tables := by
  simp [settlePollOutcomeStep]

@[simp] theorem settlePollTimerExpiryStep_tables (i : Nat) (s : State) :
    (settlePollTimerExpiryStep i s).ctl.tables = s.ctl.tables := by simp [settlePollTimerExpiryStep]

@[simp] theorem guardExpiryStep_tables (i : Nat) (s : State) : (guardExpiryStep i s).ctl.tables = s.ctl.tables := by
  simp [guardExpiryStep]

@[simp] theorem withdrawPoll_tables (i : Nat) (s : State) : (withdrawPoll i s).ctl.tables = s.ctl.tables := rfl

@[simp] theorem settleLimitExpiryStep_tables (i : Nat) (s : State) :
    (settleLimitExpiryStep i s).ctl.tables = s.ctl.tables := by simp [settleLimitExpiryStep]

@[simp] theorem holdExpires_tables (i : Nat) (s : State) : (holdExpires i s).ctl.tables = s.ctl.tables := by
  simp [holdExpires]

@[simp] theorem holdLimitExpiryStep_tables (i : Nat) (s : State) : (holdLimitExpiryStep i s).ctl.tables = s.ctl.tables := by
  simp [holdLimitExpiryStep]

@[simp] theorem failoverDelayExpiryStep_tables (i : Nat) (r : Role) (s : State) :
    (failoverDelayExpiryStep i r s).ctl.tables = s.ctl.tables := by
  unfold failoverDelayExpiryStep
  split <;> simp

@[simp] theorem failoverRetryExpiryStep_tables (i : Nat) (s : State) :
    (failoverRetryExpiryStep i s).ctl.tables = s.ctl.tables := by simp [failoverRetryExpiryStep]

@[simp] theorem staleTimerExpiryStep_tables (i : Nat) (s : State) : (staleTimerExpiryStep i s).ctl.tables = s.ctl.tables := by
  simp [staleTimerExpiryStep]

@[simp] theorem tallyChangeToSupervisorStep_tables (s : State) :
    (tallyChangeToSupervisorStep s).ctl.tables = s.ctl.tables := by
  unfold tallyChangeToSupervisorStep
  split <;> simp

@[simp] theorem learn_tables (i : Nat) (d : LinkDef) (c : ChanReport) (s : State) :
    (learn i d c s).ctl.tables = s.ctl.tables := by simp [learn]

@[simp] theorem takeReport_tables (r : Report) (i : Nat) (d : LinkDef) (s : State) :
    (takeReport r i d s).ctl.tables = s.ctl.tables := by simp [takeReport]

@[simp] theorem reportToLinkSupervisorStep_tables (s : State) : (reportToLinkSupervisorStep s).ctl.tables = s.ctl.tables := by
  unfold reportToLinkSupervisorStep
  split
  · rfl
  · refine foldl_tables (fun s i => ?_) _ _
    split
    · split <;> simp
    · rfl

@[simp] theorem missLink_tables (i : Nat) (s : State) : (missLink i s).ctl.tables = s.ctl.tables := by simp [missLink]

@[simp] theorem pollMissStep_tables (s : State) : (pollMissStep s).ctl.tables = s.ctl.tables := by
  unfold pollMissStep
  split <;> simp

@[simp] theorem dropOwnHeld_tables (i : Nat) (s : State) : (dropOwnHeld i s).ctl.tables = s.ctl.tables := rfl

@[simp] theorem holdUpdate_tables (i seq : Nat) (changes : List CarrierChange) (s : State) :
    (holdUpdate i seq changes s).ctl.tables = s.ctl.tables := by simp [holdUpdate]

@[simp] theorem killLink_tables (i : Nat) (needed keepCodes : Bool) (changes : List CarrierChange) (s : State) :
    (killLink i needed keepCodes changes s).ctl.tables = s.ctl.tables := by simp [killLink]

@[simp] theorem killToParked_tables (i : Nat) (s : State) : (killToParked i s).ctl.tables = s.ctl.tables := by
  simp [killToParked]

@[simp] theorem abandonRestore_tables (i : Nat) (s : State) : (abandonRestore i s).ctl.tables = s.ctl.tables := by
  simp [abandonRestore]

@[simp] theorem killInTune_tables (i : Nat) (begun : Bool) (s : State) :
    (killInTune i begun s).ctl.tables = s.ctl.tables := by simp [killInTune]

@[simp] theorem treatFound_tables (s : State) (i : Nat) : (treatFound s i).ctl.tables = s.ctl.tables := by
  unfold treatFound
  dsimp only
  (repeat' split) <;> simp

@[simp] theorem treatLink_tables (s : State) (i : Nat) : (treatLink s i).ctl.tables = s.ctl.tables := by simp [treatLink]

@[simp] theorem linkKillAssertionStep_tables (s : State) : (linkKillAssertionStep s).ctl.tables = s.ctl.tables := by
  unfold linkKillAssertionStep
  split <;> simp

@[simp] theorem releaseLink_tables (s : State) (i : Nat) : (releaseLink s i).ctl.tables = s.ctl.tables := by
  simp [releaseLink]

@[simp] theorem linkKillReleaseStep_tables (s : State) : (linkKillReleaseStep s).ctl.tables = s.ctl.tables := by
  unfold linkKillReleaseStep
  split <;> simp

@[simp] theorem adoptLink_tables (old new : Option LinkDef) (i : Nat) (s : State) :
    (adoptLink old new i s).ctl.tables = s.ctl.tables := by
  unfold adoptLink
  split <;> simp

@[simp] theorem adoptSupervision_tables (staleChanged : Bool) (s : State) (i : Nat) :
    (adoptSupervision staleChanged s i).ctl.tables = s.ctl.tables := by simp [adoptSupervision]

@[simp] theorem takeDefinitions_tables (c : StationCopy) (s : State) : (takeDefinitions c s).ctl.tables = s.ctl.tables := by
  simp [takeDefinitions]

/-! ### Talkback -/

@[simp] theorem reportDest_tables (d : Nat) (old new : DestRec) (s : State) :
    (reportDest d old new s).ctl.tables = s.ctl.tables := by
  rw [reportDest_frame]

@[simp] theorem handStaged_tables (before : List (List Nat)) (s : State) :
    (handStaged before s).ctl.tables = s.ctl.tables := by simp [handStaged]

@[simp] theorem handCalls_tables (before : List Bool) (s : State) : (handCalls before s).ctl.tables = s.ctl.tables := rfl

@[simp] theorem rebuild_tables (s : State) : (rebuild s).ctl.tables = s.ctl.tables := by
  rw [rebuild_frame]

@[simp] theorem setKey_tables (i : Nat) (k : Option KeyRec) (s : State) : (setKey i k s).ctl.tables = s.ctl.tables := by
  simp [setKey]

@[simp] theorem keyAction_tables (k : KeyRec) (press : Bool) (s : State) :
    (keyAction k press s).2.2.2.ctl.tables = s.ctl.tables := by
  unfold keyAction
  dsimp only
  (repeat' split) <;> simp

@[simp] theorem keyStep_tables (s : State) : (keyStep s).ctl.tables = s.ctl.tables := by
  unfold keyStep
  split <;> simp

@[simp] theorem clearKeysStep_tables (s : State) : (clearKeysStep s).ctl.tables = s.ctl.tables := by
  unfold clearKeysStep
  split <;> simp

@[simp] theorem keyEdge_tables (s : State) (e : Edge) : (keyEdge s e).ctl.tables = s.ctl.tables := by
  unfold keyEdge
  split <;> simp

@[simp] theorem beltpackKeyReportStep_tables (s : State) : (beltpackKeyReportStep s).ctl.tables = s.ctl.tables := by
  unfold beltpackKeyReportStep
  split <;> simp

@[simp] theorem routerTallyColoursStep_tables (s : State) : (routerTallyColoursStep s).ctl.tables = s.ctl.tables := by
  unfold routerTallyColoursStep
  split <;> simp

@[simp] theorem linkStateToRouterStep_tables (s : State) : (linkStateToRouterStep s).ctl.tables = s.ctl.tables := by
  unfold linkStateToRouterStep
  split <;> simp

@[simp] theorem routerKillStateStep_tables (s : State) : (routerKillStateStep s).ctl.tables = s.ctl.tables := by
  unfold routerKillStateStep
  split <;> simp

@[simp] theorem routerStationAdoptionStep_tables (s : State) : (routerStationAdoptionStep s).ctl.tables = s.ctl.tables := by
  unfold routerStationAdoptionStep
  split <;> simp

@[simp] theorem routerCueAdoption_tables (p : TalkPlan) (s : State) : (routerCueAdoption p s).ctl.tables = s.ctl.tables := by
  simp [routerCueAdoption]

@[simp] theorem crosspointApplyStep_tables (s : State) : (crosspointApplyStep s).ctl.tables = s.ctl.tables := by
  simp [crosspointApplyStep]

@[simp] theorem crosspointWordSentStep_tables (s : State) : (crosspointWordSentStep s).ctl.tables = s.ctl.tables := by
  unfold crosspointWordSentStep
  split <;> simp

/-! ### The journal -/

@[simp] theorem setAllPending_tables (s : State) : (setAllPending s).ctl.tables = s.ctl.tables := rfl
@[simp] theorem readTaken_tables (s : State) : (readTaken s).ctl.tables = s.ctl.tables := by simp [readTaken]

@[simp] theorem clearPending_tables (p : PendingRec) (s : State) : (clearPending p s).ctl.tables = s.ctl.tables := by
  unfold clearPending
  split <;> simp

@[simp] theorem resyncStep_tables (s : State) : (resyncStep s).ctl.tables = s.ctl.tables := by
  unfold resyncStep
  dsimp only
  (repeat' split) <;> simp

@[simp] theorem setPending_tables (p : PendingOf) (s : State) : (setPending p s).ctl.tables = s.ctl.tables := by
  unfold setPending
  split <;> simp

@[simp] theorem noticeReport_tables (n : NoticeOf) (appended : Bool) (s : State) :
    (noticeReport n appended s).ctl.tables = s.ctl.tables := by
  unfold noticeReport
  split <;> simp

@[simp] theorem takeJournalReport_tables (r : JReport) (s : State) : (takeJournalReport r s).ctl.tables = s.ctl.tables := by
  simp [takeJournalReport]

@[simp] theorem takeOldestReport_tables (o : Owner) (s : State) : (takeOldestReport o s).ctl.tables = s.ctl.tables := by
  unfold takeOldestReport
  split <;> simp

@[simp] theorem journalDelayExpiryStep_tables (s : State) : (journalDelayExpiryStep s).ctl.tables = s.ctl.tables := by
  simp [journalDelayExpiryStep]

@[simp] theorem clearNotice_tables (bits : Word) (s : State) : (clearNotice bits s).ctl.tables = s.ctl.tables := by
  simp [clearNotice]

@[simp] theorem noticeEnableWriteStep_tables (bits : Word) (s : State) :
    (noticeEnableWriteStep bits s).ctl.tables = s.ctl.tables := rfl

@[simp] theorem journalCueAdoption_tables (c : CueSettings) (s : State) :
    (journalCueAdoption c s).ctl.tables = s.ctl.tables := rfl

/-! ### The dispatcher, the adoptions and RUN -/

@[simp] theorem hostMemoryWriteStep_tables (wordIndex : Nat) (data : Word) (enables : BitVec 4) (s : State) :
    (hostMemoryWriteStep wordIndex data enables s).ctl.tables = s.ctl.tables := rfl

@[simp] theorem registerWriteDiscardedStep_tables (_wordIndex : Nat) (_data : Word) (s : State) :
    (registerWriteDiscardedStep _wordIndex _data s).ctl.tables = s.ctl.tables := rfl

@[simp] theorem postStep_tables (number : Word) (s : State) : (postStep number s).ctl.tables = s.ctl.tables := by
  simp [postStep]

@[simp] theorem markClamped_tables (cell : Nat) (clamped : Bool) (s : State) :
    (markClamped cell clamped s).ctl.tables = s.ctl.tables := by simp [markClamped]

@[simp] theorem handOver_tables (cell : Nat) (o : Order) (s : State) : (handOver cell o s).ctl.tables = s.ctl.tables := by
  unfold handOver
  split <;> simp

@[simp] theorem refuseCell_tables (cell : Nat) (clamped : Bool) (res : Results) (code : ResultCode) (s : State) :
    (refuseCell cell clamped res code s).ctl.tables = s.ctl.tables := by simp [refuseCell]

@[simp] theorem dispatchCell_tables (cell : Nat) (s : State) : (dispatchCell cell s).ctl.tables = s.ctl.tables := by
  unfold dispatchCell
  (repeat' split) <;> simp

@[simp] theorem dispatchCellStep_tables (s : State) : (dispatchCellStep s).ctl.tables = s.ctl.tables := by
  unfold dispatchCellStep
  split <;> simp

@[simp] theorem dispatchPlanOrder_tables (p : PlanReq → Bool) (s : State) :
    (dispatchPlanOrder p s).ctl.tables = s.ctl.tables := by
  unfold dispatchPlanOrder
  (repeat' split) <;> simp

@[simp] theorem planQueryStep_tables (s : State) : (planQueryStep s).ctl.tables = s.ctl.tables := by simp [planQueryStep]

@[simp] theorem fillReserveStep_tables (s : State) : (fillReserveStep s).ctl.tables = s.ctl.tables := by
  simp [fillReserveStep]

@[simp] theorem auditPlanStep_tables (s : State) : (auditPlanStep s).ctl.tables = s.ctl.tables := by simp [auditPlanStep]

@[simp] theorem lockSetStep_tables (p : LockPort) (s : State) : (lockSetStep p s).ctl.tables = s.ctl.tables := by
  unfold lockSetStep
  split <;> simp

@[simp] theorem lockReleaseStep_tables (p : LockPort) (s : State) : (lockReleaseStep p s).ctl.tables = s.ctl.tables := by
  unfold lockReleaseStep
  split <;> simp

@[simp] theorem tellTable_tables (group : Nat) (st : AdoptStatus) (s : State) :
    (tellTable group st s).ctl.tables = s.ctl.tables := rfl

@[simp] theorem endStation_tables (st : AdoptStatus) (s : State) : (endStation st s).ctl.tables = s.ctl.tables := by
  simp [endStation]

@[simp] theorem endCue_tables (st : AdoptStatus) (s : State) : (endCue st s).ctl.tables = s.ctl.tables := rfl

@[simp] theorem stationAdoptionStep_tables (s : State) : (stationAdoptionStep s).ctl.tables = s.ctl.tables := by
  unfold stationAdoptionStep
  (repeat' split) <;> simp

@[simp] theorem stationDefinitionsTakenStep_tables (s : State) :
    (stationDefinitionsTakenStep s).ctl.tables = s.ctl.tables := by
  unfold stationDefinitionsTakenStep
  split <;> simp

@[simp] theorem takeCue_tables (m : List Host.Cell) (s : State) : (takeCue m s).ctl.tables = s.ctl.tables := by
  simp only [takeCue, journalCueAdoption_tables, timebaseCueAdoption_tables, routerCueAdoption_tables,
    tallyCueAdoption_tables]

@[simp] theorem cueAdoptionStep_tables (s : State) : (cueAdoptionStep s).ctl.tables = s.ctl.tables := by
  unfold cueAdoptionStep
  (repeat' split) <;> simp

@[simp] theorem runStep_tables (s : State) : (runStep s).ctl.tables = s.ctl.tables := by simp [runStep]

/-! ### The ends of steps -/

@[simp] theorem finishLinkPath_tables (path : List State) (a b : State) :
    (finishLinkPath path a b).ctl.tables = b.ctl.tables := by simp [finishLinkPath]

@[simp] theorem finishLink_tables (a b : State) : (finishLink a b).ctl.tables = b.ctl.tables := by simp [finishLink]
@[simp] theorem walkN_tables (n : Nat) (s : State) : (walkN n s).ctl.tables = s.ctl.tables := by
  induction n generalizing s with
  | zero => rfl
  | succ n ih =>
    unfold walkN
    split
    · rw [ih, finish_ctl, resyncStep_tables]
    · rfl

@[simp] theorem walkOn_tables (s : State) : (walkOn s).ctl.tables = s.ctl.tables := by
  unfold walkOn
  split
  · exact walkN_tables ..
  · rfl

@[simp] theorem journalReportStep_tables (o : Owner) (s : State) : (journalReportStep o s).ctl.tables = s.ctl.tables := by
  simp [journalReportStep]

@[simp] theorem noticeClearStep_tables (bits : Word) (s : State) : (noticeClearStep bits s).ctl.tables = s.ctl.tables := by
  unfold noticeClearStep
  dsimp only
  split <;> simp

/-! ### A tick -/

theorem engineWork_tables (n : Nat) (s : State) : (engineWork n s).ctl.tables = s.ctl.tables := by
  induction n generalizing s with
  | zero => rfl
  | succ n ih =>
    unfold engineWork
    split
    · rfl
    · exact ih _

@[simp] theorem engineTick_tables (s : State) : (engineTick s).ctl.tables = s.ctl.tables := by
  unfold engineTick
  split
  · exact engineWork_tables ..
  · rfl

@[simp] theorem idleTick_tables (s : State) : (idleTick s).ctl.tables = s.ctl.tables := by simp [idleTick]

end Sys2Proof.Machine
end

section
/-! PROOFS. What a step does to the controller (R26): a step of the controller itself, a reset, or nothing to its tables. -/

namespace Sys2Proof.Machine

/-- The steps that the controller makes for the request at the head of its queue. -/
def controllerSteps : List (State → State) :=
  [insertStep, takeStep, learnStep, updateStep, purgeStep, appendStep, clearReserveStep, adoptStep, markStep]

theorem exec_tables {c : Instr} {s t : State} (h : exec c s = .next t) :
    t.ctl.tables = s.ctl.tables ∨ t.ctl = Controller.reset ∨ ∃ f ∈ controllerSteps, t.ctl = (f s).ctl := by
  have made {f : State → State} (hf : f ∈ controllerSteps) (ht : t.ctl = (f s).ctl) :
      t.ctl.tables = s.ctl.tables ∨ t.ctl = Controller.reset ∨ ∃ f ∈ controllerSteps, t.ctl = (f s).ctl :=
    .inr (.inr ⟨f, hf, ht⟩)
  cases c
  case powerOnReset | partReset => cases h; exact .inr (.inl rfl)
  case insert => cases h; exact made (f := insertStep) (by simp [controllerSteps]) rfl
  case take => cases h; exact made (f := takeStep) (by simp [controllerSteps]) rfl
  case learn => cases h; exact made (f := learnStep) (by simp [controllerSteps]) rfl
  case update => cases h; exact made (f := updateStep) (by simp [controllerSteps]) rfl
  case purge => cases h; exact made (f := purgeStep) (by simp [controllerSteps]) rfl
  case append => cases h; exact made (f := appendStep) (by simp [controllerSteps]) rfl
  case clearReserve => cases h; exact made (f := clearReserveStep) (by simp [controllerSteps]) rfl
  case adopt => cases h; exact made (f := adoptStep) (by simp [controllerSteps]) rfl
  case mark => cases h; exact made (f := markStep) (by simp [controllerSteps]) rfl
  all_goals cases h; left; simp

/-- An invariant of the tables holds after a step when it holds of a reset controller and every step of the controller keeps it. -/
theorem step_keeps {P : State → Prop} (tables : ∀ {a b : State}, b.ctl.tables = a.ctl.tables → P a → P b)
    (reset : ∀ {b : State}, b.ctl = Controller.reset → P b) (steps : ∀ f ∈ controllerSteps, ∀ a, P a → P (f a)) {s t : State}
    (hs : P s) (h : step s = .next t) : P t := by
  unfold step at h
  split at h
  · rcases exec_tables h with ht | ht | ⟨f, hf, ht⟩
    · exact tables (a := s) ht hs
    · exact reset ht
    · exact tables (congrArg Controller.tables ht) (steps f hf _ (tables (a := s) rfl hs))
  · cases h
    exact tables (idleTick_tables s) hs

end Sys2Proof.Machine
end

section
/-! PROOFS. Chapter 2: the laws of R24, R27 and R34, and how single changes of the table and the list keep them. -/

namespace Sys2Proof.Machine

open scoped List

/-! ### Carriers that come and go -/

theorem roleEntries_eq_countP (t : List (Option CarrierEntry)) (link : Nat) (role : Role) :
    roleEntries t link role = (tableCarriers t).countP fun c => c.owner = some (link, role) := by
  rw [roleEntries, tableCarriers, List.countP_filterMap]
  refine List.countP_congr fun o _ => ?_
  cases o <;> simp [CarrierEntry.carrier]

/-- A slot given up takes at most one carrier away; a free slot filled brings one. -/
theorem tableCarriers_set (t : List (Option CarrierEntry)) (k : Nat) (v : Option CarrierEntry) :
    ∃ l, l <+ tableCarriers t ∧ tableCarriers (t.set k v) <+~ (v.map CarrierEntry.carrier).toList ++ l := by
  induction t generalizing k with
  | nil => exact ⟨[], List.nil_sublist _, by simp [tableCarriers]⟩
  | cons o t ih =>
    cases k with
    | zero =>
      refine ⟨tableCarriers t, ?_, ?_⟩
      · cases o <;> simp [tableCarriers]
      · cases v <;> exact .refl _
    | succ k =>
      obtain ⟨l, hl, hp⟩ := ih k
      cases o with
      | none => exact ⟨l, by simpa [tableCarriers] using hl, by simpa [tableCarriers] using hp⟩
      | some e =>
        refine ⟨e.carrier :: l, by simpa [tableCarriers] using hl, ?_⟩
        have hcons : tableCarriers ((some e :: t).set (k + 1) v) = e.carrier :: tableCarriers (t.set k v) := by
          simp [tableCarriers]
        rw [hcons]
        exact (List.subperm_cons _).2 hp |>.trans List.perm_middle.symm.subperm

theorem tableCarriers_set_none (t : List (Option CarrierEntry)) (k : Nat) : tableCarriers (t.set k none) <+~ tableCarriers t := by
  obtain ⟨l, hl, hp⟩ := tableCarriers_set t k none
  exact hp.trans hl.subperm

theorem tableCarriers_set_some (t : List (Option CarrierEntry)) (k : Nat) (e : CarrierEntry) :
    tableCarriers (t.set k (some e)) <+~ e.carrier :: tableCarriers t := by
  obtain ⟨l, hl, hp⟩ := tableCarriers_set t k (some e)
  exact hp.trans (hl.cons_cons _).subperm

/-! ### The bound of R27 -/

theorem roleEntries_le {t u : List (Option CarrierEntry)} (h : tableCarriers u <+~ tableCarriers t) (link : Nat) (role : Role) :
    roleEntries u link role ≤ roleEntries t link role := by
  rw [roleEntries_eq_countP, roleEntries_eq_countP]
  exact h.countP_le _

theorem roleLaw_of_subperm {s u : State} (h : tableCarriers u.ctl.table <+~ tableCarriers s.ctl.table) (hs : RoleLaw s) : RoleLaw u :=
  fun link role => (roleEntries_le h link role).trans (hs link role)

/-! ### The law of R34 -/

theorem reserveLaw_iff {s : State} : ReserveLaw s ↔ s.ctl.reserve.length ≤ 32 ∧ (s.ctl.reserve.map (·.code)).Nodup ∧
    ∀ e ∈ s.ctl.reserve, ∀ a ∈ tableCarriers s.ctl.table, a.code ≠ e.code := by
  refine and_congr_right' (and_congr_right' (forall₂_congr fun e _ => ?_))
  constructor
  · intro h a ha
    obtain ⟨k, c, hc, rfl⟩ := mem_tableCarriers.1 ha
    exact h c (some_mem_iff_slotOf.2 ⟨k, hc⟩)
  · intro h c hc
    obtain ⟨k, hk⟩ := some_mem_iff_slotOf.1 hc
    exact h _ (mem_tableCarriers.2 ⟨k, c, hk, rfl⟩)

/-- A list that has lost spares, beside a table whose new codes are none of the list's. -/
theorem reserveLaw_of_subperm {s u : State} (hr : u.ctl.reserve <+~ s.ctl.reserve)
    (ht : ∀ a ∈ tableCarriers u.ctl.table, a ∈ tableCarriers s.ctl.table ∨ ∀ e ∈ u.ctl.reserve, a.code ≠ e.code)
    (hs : ReserveLaw s) : ReserveLaw u := by
  obtain ⟨hlen, hnodup, hcodes⟩ := reserveLaw_iff.1 hs
  have hnodup' : (u.ctl.reserve.map (·.code)).Nodup := by
    obtain ⟨l, hperm, hsub⟩ := hr
    exact (hperm.map _).nodup_iff.1 ((hsub.map _).nodup hnodup)
  refine reserveLaw_iff.2 ⟨hr.length_le.trans hlen, hnodup', fun e he a ha => ?_⟩
  rcases ht a ha with h | h
  · exact hcodes e (hr.subset he) a h
  · exact h e he

theorem reserveLaw_of_carriers {s u : State} (hr : u.ctl.reserve <+~ s.ctl.reserve)
    (ht : tableCarriers u.ctl.table <+~ tableCarriers s.ctl.table) (hs : ReserveLaw s) : ReserveLaw u :=
  reserveLaw_of_subperm hr (fun _ ha => .inl (ht.subset ha)) hs

/-! ### The law of R24 -/

/-- An entry that CONFLICT does not mark keeps its spacing to the unmarked entries in the other slots. -/
def Fits (s : State) (k : Nat) (x : CarrierEntry) : Prop :=
  x.conflict = false → ∀ j y, j ≠ k → slotOf s.ctl.table j = some y → y.zone = x.zone → y.conflict = false →
    0 ≤ spacingTo s.ctl.rules x.code x.cls y.carrier

theorem fits_of_check {s : State} {k : Nat} {x : CarrierEntry}
    (h : x.conflict = false → 0 ≤ (entryCheck s.ctl.rules s.ctl.table k x).spacing) : Fits s k x :=
  fun hx j y hj hy hz _ => entryCheck_spacing_nonneg_iff.1 (h hx) j y hj hy hz

theorem conflictLaw_iff {s : State} : ConflictLaw s ↔ ∀ k e, slotOf s.ctl.table k = some e → Fits s k e := by
  constructor
  · exact fun h k e he hx j y hj hy hz hc => h k j e y hj.symm he hy hz.symm hx hc
  · exact fun h i j e f hij he hf hz hx hc => h i e he hx j f hij.symm hf hz.symm hc

theorem conflictLaw_setSlot {s : State} {k : Nat} {v : Option CarrierEntry} (hv : ∀ x, v = some x → Fits s k x)
    (hs : ConflictLaw s) : ConflictLaw (setSlot k v s) := by
  have hslot : ∀ j x, slotOf (setSlot k v s).ctl.table j = some x → (j = k ∧ v = some x) ∨ (j ≠ k ∧ slotOf s.ctl.table j = some x) := by
    intro j x hx
    rw [setSlot_table, slotOf_set] at hx
    split at hx
    · next h => exact .inl ⟨h.1, hx⟩
    · next h =>
      refine .inr ⟨?_, hx⟩
      rintro rfl
      exact h ⟨rfl, lt_length_of_slotOf hx⟩
  intro i j e f hij he hf hz hce hcf
  show 0 ≤ spacingTo s.ctl.rules e.carrier.code e.carrier.cls f.carrier
  rcases hslot i e he with ⟨hi, he'⟩ | ⟨hi, he'⟩ <;> rcases hslot j f hf with ⟨hj, hf'⟩ | ⟨hj, hf'⟩
  · exact absurd (hi.trans hj.symm) hij
  · exact hv e he' hce j f hj hf' hz.symm hcf
  · rw [spacingTo_comm]
    exact hv f hf' hcf i e hi he' hz hce
  · exact hs i j e f hij he' hf' hz hce hcf

/-- Nothing but an entry's state, time and marks changes, and CONFLICT is lifted only of one that fits. -/
theorem fits_of_carrier {s : State} {k : Nat} {e x : CarrierEntry} (hs : ConflictLaw s) (he : slotOf s.ctl.table k = some e)
    (hc : x.carrier = e.carrier) (hx : x.conflict = false → e.conflict = false) : Fits s k x := by
  intro hxc j y hj hy hz hyc
  have hzone : x.zone = e.zone := congrArg Carrier.zone hc
  have := conflictLaw_iff.1 hs k e he (hx hxc) j y hj hy (hz.trans hzone) hyc
  rwa [show x.code = e.code from congrArg Carrier.code hc, show x.cls = e.cls from congrArg Carrier.cls hc]

theorem conflictLaw_congr {s u : State} (ht : u.ctl.table = s.ctl.table) (hr : u.ctl.rules = s.ctl.rules) (hs : ConflictLaw s) :
    ConflictLaw u := by
  unfold ConflictLaw
  rw [ht, hr]
  exact hs

end Sys2Proof.Machine
end

section
/-! PROOFS. Chapter 2: the walks that change marks (R32, R38, R39), the changes of an UPDATE and the removals of a PURGE (R31, R33). -/

namespace Sys2Proof.Machine

open scoped List

/-! ### Marks by the entry check (R38, R39) -/

/-- CONFLICT and EXCLUDED as the entry check gives them. -/
def marked (s : State) (k : Nat) (e : CarrierEntry) : CarrierEntry :=
  { e with
    conflict := decide ((entryCheck s.ctl.rules s.ctl.table k e).spacing < 0)
    excluded := bandExcluded s.ctl.rules e.code e.cls e.zone }

theorem marksOnly_marked (s : State) (k : Nat) : MarksOnly (marked s k) := fun e => ⟨_, _, e.imSuspect, rfl⟩

theorem remarkSlot_eq {s u : State} (h : SameCarriers s u) (k : Nat) : remarkSlot u k = changeSlot k (marked s k) u := by
  unfold remarkSlot
  cases he : slotOf u.ctl.table k with
  | none => rw [changeSlot_of_none he]
  | some e => rw [changeSlot_of_some he, marked, ← h.entryCheck, ← h.rules]

/-- Every slot is re-marked by the check of the state before. -/
theorem remark_eq (s : State) : ∃ T, remark s = { s with
      ctl.table := T
      mail.reports := s.mail.reports ++ (List.range s.ctl.table.length).flatMap fun k => slotMarks k (marked s k) s } ∧
    carrierSlots T = carrierSlots s.ctl.table ∧ ∀ k, slotOf T k = (slotOf s.ctl.table k).map (marked s k) :=
  foldl_changeSlot_range (marksOnly_marked s) fun _ h => remarkSlot_eq h

/-- A finding's mark on the entry that it names. -/
def suspected (f : Finding) (e : CarrierEntry) : CarrierEntry :=
  if e.link = f.link ∧ e.role = f.role ∧ e.code = f.code then { e with imSuspect := f.suspect } else e

theorem marksOnly_suspected (f : Finding) : MarksOnly (suspected f) := by
  intro e
  unfold suspected
  split
  · exact ⟨e.conflict, e.excluded, f.suspect, rfl⟩
  · exact ⟨e.conflict, e.excluded, e.imSuspect, rfl⟩

theorem markReports_self (k : Nat) (e : CarrierEntry) (s : State) : markReports k e e s = [] := by simp [markReports]

/-- A slot whose entry takes the marks it has stays as it is. -/
theorem changeSlot_self {k : Nat} {g : CarrierEntry → CarrierEntry} {s : State} {e : CarrierEntry} (hg : MarksOnly g)
    (he : slotOf s.ctl.table k = some e) (hge : g e = e) : changeSlot k g s = s := by
  rw [changeSlot_marks hg, slotMarks, he, Option.map_some, Option.elim_some, hge, markReports_self, List.append_nil,
    set_slotOf_self (slotOf_eq_some_iff.1 he)]

theorem applyFinding_eq (s : State) (f : Finding) : applyFinding s f = changeSlot f.slot (suspected f) s := by
  unfold applyFinding
  cases he : slotOf s.ctl.table f.slot with
  | none => rw [changeSlot_of_none he]
  | some e =>
    dsimp only
    split
    · next h => rw [changeSlot_of_some he, suspected, if_pos h]
    · next h => rw [changeSlot_self (marksOnly_suspected f) he (if_neg h)]

/-- The findings of distinct slots are applied each to the entry of the state before. -/
theorem applyFindings_eq {l : List Finding} (hl : (l.map (·.slot)).Nodup) (s : State) : ∃ T, l.foldl applyFinding s = { s with
      ctl.table := T, mail.reports := s.mail.reports ++ l.flatMap fun f => slotMarks f.slot (suspected f) s } ∧
    carrierSlots T = carrierSlots s.ctl.table ∧
    (∀ f ∈ l, slotOf T f.slot = (slotOf s.ctl.table f.slot).map (suspected f)) ∧
    ∀ k, k ∉ l.map (·.slot) → slotOf T k = slotOf s.ctl.table k :=
  foldl_changeSlot marksOnly_suspected hl fun u _ f => applyFinding_eq u f

/-! ### The lift of CONFLICT (R32) -/

/-- The entry conflicted with a removed one and keeps its spacing to every entry of the table. -/
def Lifts (r : PlanRules) (t : List (Option CarrierEntry)) (gone : List CarrierEntry) (k : Nat) (x : CarrierEntry) : Prop :=
  x.conflict = true ∧ (∃ g ∈ gone, g.zone = x.zone ∧ spacingTo r x.code x.cls g.carrier < 0) ∧
    ∀ j y, j ≠ k → slotOf t j = some y → y.zone = x.zone → 0 ≤ spacingTo r x.code x.cls y.carrier

/-- CONFLICT as R32 leaves it. -/
def lifted (gone : List CarrierEntry) (s : State) (k : Nat) (e : CarrierEntry) : CarrierEntry :=
  if e.conflict && gone.any (fun g => g.zone = e.zone && spacingTo s.ctl.rules e.code e.cls g.carrier < 0)
      && 0 ≤ (entryCheck s.ctl.rules s.ctl.table k e).spacing then { e with conflict := false }
  else e

theorem lifts_iff {s : State} {gone : List CarrierEntry} {k : Nat} {e : CarrierEntry} :
    (e.conflict && gone.any (fun g => g.zone = e.zone && spacingTo s.ctl.rules e.code e.cls g.carrier < 0)
      && 0 ≤ (entryCheck s.ctl.rules s.ctl.table k e).spacing) = true ↔ Lifts s.ctl.rules s.ctl.table gone k e := by
  simp only [Lifts, Bool.and_eq_true, List.any_eq_true, decide_eq_true_eq, entryCheck_spacing_nonneg_iff, and_assoc]

theorem lifted_of_lifts {s : State} {gone : List CarrierEntry} {k : Nat} {e : CarrierEntry}
    (h : Lifts s.ctl.rules s.ctl.table gone k e) : lifted gone s k e = { e with conflict := false } := if_pos (lifts_iff.2 h)

theorem lifted_of_not_lifts {s : State} {gone : List CarrierEntry} {k : Nat} {e : CarrierEntry}
    (h : ¬Lifts s.ctl.rules s.ctl.table gone k e) : lifted gone s k e = e := if_neg (mt lifts_iff.1 h)

theorem marksOnly_lifted (gone : List CarrierEntry) (s : State) (k : Nat) : MarksOnly (lifted gone s k) := by
  intro e
  unfold lifted
  split
  · exact ⟨false, e.excluded, e.imSuspect, rfl⟩
  · exact ⟨e.conflict, e.excluded, e.imSuspect, rfl⟩

theorem liftConflict_eq {s u : State} (gone : List CarrierEntry) (h : SameCarriers s u) (k : Nat) :
    liftConflict gone u k = changeSlot k (lifted gone s k) u := by
  unfold liftConflict
  cases he : slotOf u.ctl.table k with
  | none => rw [changeSlot_of_none he]
  | some e =>
    dsimp only
    rw [h.entryCheck, h.rules]
    split
    · next hc => rw [changeSlot_of_some he, lifted, if_pos hc]
    · next hc => rw [changeSlot_self (marksOnly_lifted gone s k) he (if_neg hc)]

/-- CONFLICT is lifted of every entry by the table of the state before. -/
theorem reevaluate_eq (gone : List CarrierEntry) (s : State) : ∃ T R,
    reevaluate gone s = { s with ctl.table := T, mail.reports := R } ∧ carrierSlots T = carrierSlots s.ctl.table ∧
      ∀ k, slotOf T k = (slotOf s.ctl.table k).map (lifted gone s k) := by
  unfold reevaluate
  split
  · next hgone =>
    refine ⟨s.ctl.table, s.mail.reports, rfl, rfl, fun k => ?_⟩
    have hid : ∀ e, lifted gone s k e = e := fun e => lifted_of_not_lifts fun ⟨_, ⟨g, hg, _⟩, _⟩ => by simp [hgone] at hg
    cases slotOf s.ctl.table k <;> simp [hid]
  · obtain ⟨T, hT, hcar, hslot⟩ := foldl_changeSlot_range (marksOnly_lifted gone s) fun _ h => liftConflict_eq gone h
    exact ⟨T, _, hT, hcar, hslot⟩

/-! ### The changes of an UPDATE (R31) -/

/-- The table, the outcomes and the entries removed. -/
abbrev UpdateMade := List (Option CarrierEntry) × List ResultCode × List CarrierEntry

/-- One change more of an UPDATE that a link sends at `now`. -/
def updateMade (link : Nat) (now : Timestamp) (x : UpdateMade) (c : CarrierChange) : UpdateMade :=
  match findEntry x.1 link c.role c.code with
  | none => (x.1, x.2.1 ++ [.wrongState], x.2.2)
  | some k =>
    match slotOf x.1 k, c.change with
    | none, _ => (x.1, x.2.1 ++ [.wrongState], x.2.2)
    | some e, .remove => (x.1.set k none, x.2.1 ++ [.ok], x.2.2 ++ [e])
    | some e, .become target =>
      if (e.state, target) ∈ [(CarrierState.reserved, CarrierState.live), (.reserved, .silent), (.live, .silent),
          (.learned, .silent), (.silent, .live)]
      then (x.1.set k (some { e with state := target, since := now }), x.2.1 ++ [.ok], x.2.2)
      else (x.1, x.2.1 ++ [.wrongState], x.2.2)

/-- TABLE 2-2. -/
theorem allowedChange_iff {a b : CarrierState} : allowedChange a b = true ↔
    (a, b) ∈ [(CarrierState.reserved, CarrierState.live), (.reserved, .silent), (.live, .silent), (.learned, .silent),
      (.silent, .live)] := by
  cases a <;> cases b <;> decide

/-- What one change of an UPDATE does to the state. -/
theorem updateChange_cases (link : Nat) (c : CarrierChange) (s : State) :
    (updateChange link c s = (.wrongState, none, s) ∧
      ∀ os gone, updateMade link s.now (s.ctl.table, os, gone) c = (s.ctl.table, os ++ [.wrongState], gone)) ∨
    (∃ k e, findEntry s.ctl.table link c.role c.code = some k ∧ slotOf s.ctl.table k = some e ∧ c.change = .remove ∧
      updateChange link c s = (.ok, some e, removeSlot k s) ∧
      ∀ os gone, updateMade link s.now (s.ctl.table, os, gone) c = (s.ctl.table.set k none, os ++ [.ok], gone ++ [e])) ∨
    ∃ k e target, findEntry s.ctl.table link c.role c.code = some k ∧ slotOf s.ctl.table k = some e ∧
      c.change = .become target ∧ allowedChange e.state target = true ∧
      updateChange link c s = (.ok, none, setSlot k (some { e with state := target, since := s.now }) s) ∧
      ∀ os gone, updateMade link s.now (s.ctl.table, os, gone) c =
        (s.ctl.table.set k (some { e with state := target, since := s.now }), os ++ [.ok], gone) := by
  cases hf : findEntry s.ctl.table link c.role c.code with
  | none => exact .inl ⟨by simp only [updateChange, hf], fun _ _ => by simp only [updateMade, hf]⟩
  | some k =>
    cases he : slotOf s.ctl.table k with
    | none => exact .inl ⟨by simp only [updateChange, hf, he], fun _ _ => by simp only [updateMade, hf, he]⟩
    | some e =>
      cases hc : c.change with
      | remove =>
        exact .inr (.inl ⟨k, e, rfl, he, rfl, by simp only [updateChange, hf, he, hc],
          fun _ _ => by simp only [updateMade, hf, he, hc]⟩)
      | become target =>
        by_cases hok : allowedChange e.state target = true
        · exact .inr (.inr ⟨k, e, target, rfl, he, rfl, hok, by simp only [updateChange, hf, he, hc, if_pos hok],
            fun _ _ => by simp only [updateMade, hf, he, hc, if_pos (allowedChange_iff.1 hok)]⟩)
        · exact .inl ⟨by simp only [updateChange, hf, he, hc, if_neg hok],
            fun _ _ => by simp only [updateMade, hf, he, hc, if_neg (mt allowedChange_iff.2 hok)]⟩

theorem updateChanges_cons {link : Nat} {c : CarrierChange} {rest : List CarrierChange} {s u : State} {o : ResultCode}
    {g : Option CarrierEntry} (h : updateChange link c s = (o, g, u)) : updateChanges link (c :: rest) s =
      (o :: (updateChanges link rest u).1, g.toList ++ (updateChanges link rest u).2.1, (updateChanges link rest u).2.2) := by
  rw [updateChanges, h]

/-- An UPDATE makes its changes one after another. -/
theorem updateChanges_eq (link : Nat) (changes : List CarrierChange) (s : State) : ∃ T R os gone,
    updateChanges link changes s = (os, gone, { s with
      ctl.table := T, ctl.carrierGen := bumpGen^[gone.length] s.ctl.carrierGen, mail.reports := R }) ∧
    ∀ os' gone', changes.foldl (updateMade link s.now) (s.ctl.table, os', gone') = (T, os' ++ os, gone' ++ gone) := by
  induction changes generalizing s with
  | nil => exact ⟨s.ctl.table, s.mail.reports, [], [], rfl, by simp⟩
  | cons c rest ih =>
    rcases updateChange_cases link c s with ⟨h, hm⟩ | ⟨k, e, -, -, -, h, hm⟩ | ⟨k, e, target, -, -, -, -, h, hm⟩
    · obtain ⟨T, R, os, gone, hr, hf⟩ := ih s
      refine ⟨T, R, .wrongState :: os, gone, by rw [updateChanges_cons h, hr]; rfl, fun os' gone' => ?_⟩
      rw [List.foldl_cons, hm, hf, List.append_assoc]
      rfl
    · obtain ⟨T, R, os, gone, hr, hf⟩ := ih (removeSlot k s)
      refine ⟨T, R, .ok :: os, e :: gone, by rw [updateChanges_cons h, hr]; rfl, fun os' gone' => ?_⟩
      rw [List.foldl_cons, hm]
      refine (hf _ _).trans ?_
      rw [List.append_assoc, List.append_assoc]
      rfl
    · obtain ⟨T, R, os, gone, hr, hf⟩ := ih (setSlot k (some { e with state := target, since := s.now }) s)
      refine ⟨T, R, .ok :: os, gone, by rw [updateChanges_cons h, hr]; rfl, fun os' gone' => ?_⟩
      rw [List.foldl_cons, hm]
      refine (hf _ _).trans ?_
      rw [List.append_assoc]
      rfl

theorem iterate_bumpGen {g : Nat} (h : g < 65536) (n : Nat) : bumpGen^[n] g = (g + n) % 65536 := by
  induction n with
  | zero => exact (Nat.mod_eq_of_lt h).symm
  | succ n ih => rw [Function.iterate_succ_apply', ih, bumpGen_add]

/-! ### The removals of a PURGE (R33) -/

/-- A PURGE frees the slots of its link among those it walks. -/
theorem purgeLink_eq (link : Nat) {l : List Nat} (hl : l.Nodup) (s : State) : ∃ T R,
    purgeLink link l s = (l.filterMap fun k => (slotOf s.ctl.table k).filter (·.link = link), { s with
      ctl.table := T
      ctl.carrierGen := bumpGen^[(l.filterMap fun k => (slotOf s.ctl.table k).filter (·.link = link)).length] s.ctl.carrierGen
      mail.reports := R }) ∧
    (∀ k ∈ l, slotOf T k = (slotOf s.ctl.table k).filter (·.link ≠ link)) ∧
    ∀ k, k ∉ l → slotOf T k = slotOf s.ctl.table k := by
  induction l generalizing s with
  | nil => exact ⟨s.ctl.table, s.mail.reports, rfl, by simp, fun _ _ => rfl⟩
  | cons k l ih =>
    obtain ⟨hk, hl⟩ := List.nodup_cons.1 hl
    by_cases hown : ∃ e, slotOf s.ctl.table k = some e ∧ e.link = link
    · obtain ⟨e, he, hlink⟩ := hown
      have hother : ∀ j, j ≠ k → slotOf (removeSlot k s).ctl.table j = slotOf s.ctl.table j :=
        fun j hj => slotOf_set_of_ne _ hj
      have hgone : (l.filterMap fun j => (slotOf (removeSlot k s).ctl.table j).filter (·.link = link)) =
          l.filterMap fun j => (slotOf s.ctl.table j).filter (·.link = link) :=
        List.filterMap_congr fun j hj => by rw [hother j fun h => hk (h ▸ hj)]
      obtain ⟨T, R, hT, hin, hout⟩ := ih hl (removeSlot k s)
      rw [hgone] at hT
      refine ⟨T, R, ?_, ?_, ?_⟩
      · rw [purgeLink, he]
        simp only [hT, List.filterMap_cons, he, Option.filter_some, hlink, decide_true, if_true]
        rfl
      · intro j hj
        rcases List.mem_cons.1 hj with rfl | hj
        · rw [hout j hk, he, Option.filter_some, if_neg (by simpa using hlink)]
          exact slotOf_set_none s.ctl.table j
        · rw [hin j hj, hother j fun h => hk (h ▸ hj)]
      · intro j hj
        rw [List.mem_cons, not_or] at hj
        rw [hout j hj.2, hother j hj.1]
    · have hnone : (slotOf s.ctl.table k).filter (·.link = link) = none := by
        rw [Option.filter_eq_none_iff]
        intro e he hlink
        exact hown ⟨e, he, of_decide_eq_true hlink⟩
      have hstay : purgeLink link (k :: l) s = purgeLink link l s := by
        rw [purgeLink]
        cases he : slotOf s.ctl.table k with
        | none => rfl
        | some e => exact if_neg fun h => hown ⟨e, he, h⟩
      obtain ⟨T, R, hT, hin, hout⟩ := ih hl s
      refine ⟨T, R, by rw [hstay, hT, List.filterMap_cons, hnone], ?_, ?_⟩
      · intro j hj
        rcases List.mem_cons.1 hj with rfl | hj
        · rw [hout j hk]
          cases he : slotOf s.ctl.table j with
          | none => rfl
          | some e => rw [Option.filter_some, if_pos]; exact decide_eq_true fun h => hown ⟨e, he, h⟩
        · exact hin j hj
      · intro j hj
        rw [List.mem_cons, not_or] at hj
        exact hout j hj.2

end Sys2Proof.Machine
end

section
/-! PROOFS. The requests that bring no new carrier: UPDATE, PURGE, CLEAR_RESERVE, ADOPT and MARK keep the laws of R24, R27 and R34. -/

namespace Sys2Proof.Machine

open scoped List

/-- No carrier and no spare is new, and the law of CONFLICT is kept. -/
structure Lessens (s u : State) : Prop where
  reserve : u.ctl.reserve <+~ s.ctl.reserve
  carriers : tableCarriers u.ctl.table <+~ tableCarriers s.ctl.table
  conflict : ConflictLaw s → ConflictLaw u

theorem Lessens.trans {s u v : State} (h : Lessens s u) (h' : Lessens u v) : Lessens s v :=
  ⟨h'.reserve.trans h.reserve, h'.carriers.trans h.carriers, h'.conflict ∘ h.conflict⟩

/-- The same table and rules, and a part of the list. -/
theorem lessens_of_table {s u : State} (hr : u.ctl.reserve <+~ s.ctl.reserve) (ht : u.ctl.table = s.ctl.table)
    (hrules : u.ctl.rules = s.ctl.rules) : Lessens s u :=
  ⟨hr, ht ▸ .refl _, conflictLaw_congr ht hrules⟩

theorem lessens_of_ctl {s u : State} (h : u.ctl = s.ctl) : Lessens s u :=
  lessens_of_table (h ▸ .refl _) (congrArg Controller.table h) (congrArg Controller.rules h)

theorem lessens_queue (s : State) (q : List CtlReq) : Lessens s { s with ctl.queue := q } :=
  lessens_of_table (.refl _) rfl rfl

theorem Lessens.refl (s : State) : Lessens s s := lessens_of_ctl rfl

theorem lessens_foldl {α : Type} {f : State → α → State} (h : ∀ s a, Lessens s (f s a)) (l : List α) (s : State) :
    Lessens s (l.foldl f s) :=
  List.foldlRecOn l f (Lessens.refl s) fun u hu a _ => hu.trans (h u a)

theorem lessens_removeSlot (k : Nat) (s : State) : Lessens s (removeSlot k s) where
  reserve := .refl _
  carriers := tableCarriers_set_none s.ctl.table k
  conflict hs := conflictLaw_setSlot (by simp) hs

/-- Marks or state of an entry change, and CONFLICT stays or is lifted of an entry that fits. -/
theorem lessens_setSlot {s : State} {k : Nat} {e x : CarrierEntry} (he : slotOf s.ctl.table k = some e)
    (hc : x.carrier = e.carrier) (hx : ConflictLaw s → Fits s k x) : Lessens s (setSlot k (some x) s) where
  reserve := .refl _
  carriers := (List.Perm.of_eq (tableCarriers_congr (carrierSlots_set_of_carrier he hc))).subperm
  conflict hs := conflictLaw_setSlot (fun _ hy => Option.some.inj hy ▸ hx hs) hs

theorem lessens_changeSlot {s : State} {k : Nat} {g : CarrierEntry → CarrierEntry} (hg : MarksOnly g)
    (hx : ∀ e, slotOf s.ctl.table k = some e → ConflictLaw s → Fits s k (g e)) : Lessens s (changeSlot k g s) := by
  cases he : slotOf s.ctl.table k with
  | none => rw [changeSlot_of_none he]; exact .refl s
  | some e => rw [changeSlot_of_some he]; exact lessens_setSlot he (hg.carrier e) (hx e he)

theorem lessens_dropReserve (p : ReserveEntry → Bool) (ch : ReserveChange) (s : State) : Lessens s (dropReserve p ch s) := by
  rw [dropReserve_eq]
  exact lessens_of_table List.filter_sublist.subperm rfl rfl

/-! ### UPDATE and PURGE -/

theorem lessens_updateChange (link : Nat) (c : CarrierChange) (s : State) : Lessens s (updateChange link c s).2.2 := by
  rcases updateChange_cases link c s with ⟨h, -⟩ | ⟨k, e, -, -, -, h, -⟩ | ⟨k, e, target, -, he, -, -, h, -⟩
  · rw [h]; exact .refl s
  · rw [h]; exact lessens_removeSlot k s
  · rw [h]; exact lessens_setSlot he rfl fun hs => fits_of_carrier hs he rfl id

theorem lessens_updateChanges (link : Nat) (changes : List CarrierChange) (s : State) :
    Lessens s (updateChanges link changes s).2.2 := by
  induction changes generalizing s with
  | nil => exact .refl s
  | cons c rest ih => exact (lessens_updateChange link c s).trans (ih _)

theorem lessens_liftConflict (gone : List CarrierEntry) (s : State) (k : Nat) : Lessens s (liftConflict gone s k) := by
  rw [liftConflict_eq gone (.refl s)]
  refine lessens_changeSlot (marksOnly_lifted gone s k) fun e he hs => ?_
  by_cases h : Lifts s.ctl.rules s.ctl.table gone k e
  · rw [lifted_of_lifts h]
    exact fun _ j y hj hy hz _ => h.2.2 j y hj hy hz
  · rw [lifted_of_not_lifts h]
    exact conflictLaw_iff.1 hs k e he

theorem lessens_reevaluate (gone : List CarrierEntry) (s : State) : Lessens s (reevaluate gone s) := by
  unfold reevaluate
  split
  · exact .refl s
  · exact lessens_foldl (lessens_liftConflict gone) _ s

theorem lessens_updateStep (s : State) : Lessens s (updateStep s) := by
  unfold updateStep
  split
  · next link seq live changes rest _ =>
    have h := ((lessens_queue s rest).trans (lessens_updateChanges link changes _)).trans
      (lessens_reevaluate (updateChanges link changes { s with ctl.queue := rest }).2.1 _)
    cases live
    · exact h.trans (lessens_of_ctl rfl)
    · exact h.trans (lessens_of_ctl rfl)
  · exact .refl s

theorem lessens_purgeLink (link : Nat) (l : List Nat) (s : State) : Lessens s (purgeLink link l s).2 := by
  induction l generalizing s with
  | nil => exact .refl s
  | cons k l ih =>
    unfold purgeLink
    split
    · split
      · exact (lessens_removeSlot k s).trans (ih _)
      · exact ih s
    · exact ih s

theorem lessens_purgeStep (s : State) : Lessens s (purgeStep s) := by
  unfold purgeStep
  split
  · next link rest _ =>
    exact (((lessens_queue s rest).trans (lessens_purgeLink link _ _)).trans (lessens_reevaluate _ _)).trans (lessens_of_ctl rfl)
  · exact .refl s

/-! ### CLEAR_RESERVE, ADOPT and MARK -/

theorem lessens_clearReserveStep (s : State) : Lessens s (clearReserveStep s) := by
  unfold clearReserveStep
  split
  · next tag filter rest _ =>
    exact ((lessens_queue s rest).trans (lessens_dropReserve _ _ _)).trans (lessens_of_ctl (by rw [doneOrder_frame]))
  · exact .refl s

/-- After a re-marking every entry that CONFLICT does not mark keeps its spacing. -/
theorem conflictLaw_remark (s : State) : ConflictLaw (remark s) := by
  obtain ⟨T, hT, hcar, hslot⟩ := remark_eq s
  rw [hT, conflictLaw_iff]
  intro k x hx
  obtain ⟨e, -, rfl⟩ := Option.map_eq_some_iff.1 ((hslot k).symm.trans hx)
  refine fits_of_check fun hc => ?_
  show 0 ≤ (entryCheck s.ctl.rules T k (marked s k e)).spacing
  rw [entryCheck_congr hcar]
  exact not_lt.1 (of_decide_eq_false hc)

theorem lessens_remark (s : State) : Lessens s (remark s) := by
  obtain ⟨T, hT, hcar, -⟩ := remark_eq s
  refine ⟨?_, ?_, fun _ => conflictLaw_remark s⟩
  · rw [hT]
  · rw [hT]
    exact (List.Perm.of_eq (tableCarriers_congr hcar)).subperm

theorem lessens_applyFinding (s : State) (f : Finding) : Lessens s (applyFinding s f) := by
  rw [applyFinding_eq]
  refine lessens_changeSlot (marksOnly_suspected f) fun e he hs => fits_of_carrier hs he ((marksOnly_suspected f).carrier e) ?_
  unfold suspected
  split <;> exact id

theorem lessens_markStep (s : State) : Lessens s (markStep s) := by
  unfold markStep markRequest
  split
  · next gen findings codes rest _ =>
    have h := (lessens_queue s rest).trans (lessens_remark _)
    dsimp only
    split
    · exact ((h.trans (lessens_foldl lessens_applyFinding findings _)).trans (lessens_dropReserve _ _ _)).trans (lessens_of_ctl rfl)
    · exact h.trans (lessens_of_ctl rfl)
  · exact .refl s

theorem queueInternalAudit_ctl (s : State) : (queueInternalAudit s).ctl = s.ctl := by
  unfold queueInternalAudit
  split
  · rfl
  · split <;> rfl

/-- Under new rules the law of CONFLICT holds by the re-marking. -/
theorem lessens_adoptStep (s : State) : Lessens s (adoptStep s) := by
  unfold adoptStep
  split
  · next rules rest _ =>
    have hmarked := lessens_remark { s with ctl.queue := rest, ctl.rules := rules, ctl.ruleGen := bumpGen s.ctl.ruleGen }
    have hafter := (lessens_dropReserve _ .adoption _ : Lessens _ (pruneReserve (remark
      { s with ctl.queue := rest, ctl.rules := rules, ctl.ruleGen := bumpGen s.ctl.ruleGen }))).trans
      (lessens_of_ctl (queueInternalAudit_ctl _))
    exact ⟨hafter.reserve.trans hmarked.reserve, hafter.carriers.trans hmarked.carriers,
      fun _ => hafter.conflict (conflictLaw_remark _)⟩
  · exact .refl s

end Sys2Proof.Machine
end

section
/-! PROOFS. Chapter 2: the checks and insertions of INSERT and TAKE, the walks of a TAKE, LEARN and APPEND, and how they keep the laws of
R24, R27 and R34. -/

namespace Sys2Proof.Machine

open scoped List

/-! ### Roles in order -/

theorem outboundFirst_perm {α : Type} (role : α → Role) (l : List α) : outboundFirst role l ~ l := by
  unfold outboundFirst
  have hnot : l.filter (fun a => role a = .inbound) = l.filter (fun a => !decide (role a = .outbound)) :=
    List.filter_congr fun a _ => by cases role a <;> rfl
  rw [hnot]
  exact List.filter_append_perm _ l

theorem roleLimit_iff {t : List (Option CarrierEntry)} {link : Nat} {roles : List Role} :
    roleLimit t link roles = true ↔ ∃ r ∈ roles, 2 < roleEntries t link r + roles.count r := by
  simp [roleLimit]

/-- Nothing said of three entries depends on the order of the roles. -/
theorem roleLimit_perm {t : List (Option CarrierEntry)} {link : Nat} {l l' : List Role} (h : l ~ l') :
    roleLimit t link l = roleLimit t link l' := by
  rw [Bool.eq_iff_iff, roleLimit_iff, roleLimit_iff]
  simp only [h.mem_iff, h.count_eq]

/-! ### Checks -/

theorem Verdict.passes_iff {v : Verdict} : v.passes = true ↔ v.eligibility = .acceptable := by simp [Verdict.passes]

/-- A code that passes keeps its spacing to every carrier of its zone (R11, R15). -/
theorem spacing_of_passes {r : PlanRules} {l : List Carrier} {c k zone : Nat} {o : Option (Nat × Role)} {w : Option Window}
    (h : (verdictOf r l c k zone o w).passes = true) : ∀ a ∈ l, a.zone = zone → 0 ≤ spacingTo r c k a :=
  spacingMargin_nonneg_iff.1 (le_min_iff.1 (eligibilityOf_acceptable_iff.1 (Verdict.passes_iff.1 h)).2.2).1

/-- A passed role as a check sees it. -/
def passedCarrier (link : Nat) (x : RolePlan × RoleAnswer) : Carrier :=
  { code := x.2.code, cls := x.1.cls, zone := x.1.zone, owner := some (link, x.1.role) }

/-- Each passed role keeps its spacing to the carriers and to the roles before it. -/
def PassedOver (r : PlanRules) (link : Nat) : List Carrier → List (RolePlan × RoleAnswer) → Prop
  | _, [] => True
  | l, x :: rest =>
    (∀ a ∈ l, a.zone = x.1.zone → 0 ≤ spacingTo r x.2.code x.1.cls a) ∧ PassedOver r link (l ++ [passedCarrier link x]) rest

theorem PassedOver.mono {r : PlanRules} {link : Nat} {l l' : List Carrier} {as : List (RolePlan × RoleAnswer)} (hl : l' ⊆ l)
    (h : PassedOver r link l as) : PassedOver r link l' as := by
  induction as generalizing l l' with
  | nil => trivial
  | cons x as ih => exact ⟨fun a ha => h.1 a (hl ha), ih (List.append_subset.2
    ⟨fun a ha => List.mem_append_left _ (hl ha), List.subset_append_right ..⟩) h.2⟩

/-- The checks of an INSERT that all pass. -/
theorem checkRoles_passed {r : PlanRules} {link : Nat} {roles : List (RolePlan × Nat)} {l : List Carrier}
    {as : List (RolePlan × RoleAnswer)} (h : checkRoles r l link roles = (true, as)) :
    as.map (·.1) = roles.map (·.1) ∧ PassedOver r link l as := by
  induction roles generalizing l as with
  | nil =>
    cases h
    exact ⟨rfl, trivial⟩
  | cons x roles ih =>
    obtain ⟨p, code⟩ := x
    rw [checkRoles] at h
    split at h
    · next hv =>
      obtain ⟨hok, rfl⟩ := Prod.mk.inj h
      obtain ⟨hmap, hpassed⟩ := ih (Prod.ext hok rfl)
      exact ⟨by simp [hmap], spacing_of_passes hv, hpassed⟩
    · cases h

/-! ### Insertions -/

theorem insertEntry_frame (e : CarrierEntry) (s : State) : ∃ T g R, insertEntry e s = { s with
      ctl.table := T, ctl.carrierGen := g, mail.reports := R } ∧ tableCarriers T <+~ e.carrier :: tableCarriers s.ctl.table := by
  cases h : lowestFree s.ctl.table with
  | none => exact ⟨s.ctl.table, s.ctl.carrierGen, s.mail.reports, insertEntry_of_full h, .cons_self⟩
  | some k => exact ⟨_, _, _, insertEntry_eq h, tableCarriers_set_some ..⟩

theorem insertPassed_cons (link : Nat) (x : RolePlan × RoleAnswer) (rest : List (RolePlan × RoleAnswer)) (s : State) :
    insertPassed link (x :: rest) s =
      ({ x.2 with slot := lowestFree s.ctl.table } :: (insertPassed link rest (insertEntry (newEntry link x.1 x.2.code .reserved s) s)).1,
        (insertPassed link rest (insertEntry (newEntry link x.1 x.2.code .reserved s) s)).2) := rfl

/-- Inserted roles bring their carriers at most. -/
theorem insertPassed_frame (link : Nat) (as : List (RolePlan × RoleAnswer)) (s : State) : ∃ T g R,
    (insertPassed link as s).2 = { s with ctl.table := T, ctl.carrierGen := g, mail.reports := R } ∧
      tableCarriers T <+~ as.map (passedCarrier link) ++ tableCarriers s.ctl.table := by
  induction as generalizing s with
  | nil => exact ⟨s.ctl.table, s.ctl.carrierGen, s.mail.reports, rfl, .refl _⟩
  | cons x rest ih =>
    obtain ⟨T, g, R, h, hT⟩ := insertEntry_frame (newEntry link x.1 x.2.code .reserved s) s
    obtain ⟨T', g', R', h', hT'⟩ := ih (insertEntry (newEntry link x.1 x.2.code .reserved s) s)
    rw [h] at h' hT'
    refine ⟨T', g', R', by rw [insertPassed_cons, h]; exact h', ?_⟩
    exact (hT'.trans ((List.subperm_append_left _).2 hT)).trans (List.perm_middle.trans (.refl _)).subperm

theorem conflictLaw_insertEntry {e : CarrierEntry} {s : State} (hs : ConflictLaw s)
    (he : ∀ a ∈ tableCarriers s.ctl.table, a.zone = e.zone → 0 ≤ spacingTo s.ctl.rules e.code e.cls a) :
    ConflictLaw (insertEntry e s) := by
  unfold insertEntry
  split
  · exact hs
  · refine conflictLaw_congr (s := setSlot _ (some e) s) rfl rfl (conflictLaw_setSlot (fun x hx => ?_) hs)
    obtain rfl := Option.some.inj hx
    exact fun _ j y _ hy hz _ => he _ (mem_tableCarriers.2 ⟨j, y, hy, rfl⟩) hz

theorem conflictLaw_insertPassed {link : Nat} {as : List (RolePlan × RoleAnswer)} {s : State} (hs : ConflictLaw s)
    (h : PassedOver s.ctl.rules link (tableCarriers s.ctl.table) as) : ConflictLaw (insertPassed link as s).2 := by
  induction as generalizing s with
  | nil => exact hs
  | cons x rest ih =>
    have hnext := conflictLaw_insertEntry (e := newEntry link x.1 x.2.code .reserved s) hs h.1
    obtain ⟨T, g, R, hT, hcar⟩ := insertEntry_frame (newEntry link x.1 x.2.code .reserved s) s
    rw [insertPassed_cons]
    refine ih hnext ?_
    rw [hT]
    refine h.2.mono fun a ha => ?_
    rcases List.mem_cons.1 (hcar.subset ha) with rfl | ha
    · exact List.mem_append_right _ List.mem_cons_self
    · exact List.mem_append_left _ ha

/-- R28 for several roles: the spares of their codes are gone. -/
theorem removeSpaced_frame (link : Nat) (as : List (RolePlan × RoleAnswer)) (s : State) : ∃ L R,
    removeSpaced link as s = { s with ctl.reserve := L, mail.reports := R } ∧ L <+ s.ctl.reserve ∧
      ∀ x ∈ as, ∀ e ∈ L, x.2.code ≠ e.code := by
  induction as generalizing s with
  | nil => exact ⟨s.ctl.reserve, s.mail.reports, rfl, .refl _, by simp⟩
  | cons x rest ih =>
    obtain ⟨L, R, h, hL, hcodes⟩ := ih (spacingRemoval (newEntry link x.1 x.2.code .reserved s) s)
    rw [spacingRemoval_eq] at h hL
    refine ⟨L, R, ?_, hL.trans List.filter_sublist, fun y hy e he => ?_⟩
    · rw [show removeSpaced link (x :: rest) s =
        removeSpaced link rest (spacingRemoval (newEntry link x.1 x.2.code .reserved s) s) from rfl, spacingRemoval_eq, h]
    · rcases List.mem_cons.1 hy with rfl | hy
      · have hstay := (List.mem_filter.1 (hL.subset he)).2
        simp only [leavesFor, Bool.not_eq_true', Bool.or_eq_false_iff, decide_eq_false_iff_not] at hstay
        exact fun hcode => hstay.1 hcode.symm
      · exact hcodes y hy e he

/-- The insertion of passed roles, then R28 for each. -/
def insertRoles (link : Nat) (as : List (RolePlan × RoleAnswer)) (s : State) : State :=
  removeSpaced link as (insertPassed link as s).2

theorem reserveLaw_insertRoles (link : Nat) (as : List (RolePlan × RoleAnswer)) {s : State} (hs : ReserveLaw s) :
    ReserveLaw (insertRoles link as s) := by
  obtain ⟨T, g, R, hT, hcar⟩ := insertPassed_frame link as s
  obtain ⟨L, R', hL, hsub, hcodes⟩ := removeSpaced_frame link as (insertPassed link as s).2
  rw [insertRoles, hL]
  rw [hT] at hsub ⊢
  refine reserveLaw_of_subperm (s := s) hsub.subperm (fun a ha => ?_) hs
  rcases List.mem_append.1 (hcar.subset ha) with hnew | hold
  · obtain ⟨x, hx, rfl⟩ := List.mem_map.1 hnew
    exact .inr (hcodes x hx)
  · exact .inl hold

theorem roleLaw_insertRoles {link : Nat} {as : List (RolePlan × RoleAnswer)} {s : State}
    (hlimit : roleLimit s.ctl.table link (as.map (·.1.role)) = false) (hs : RoleLaw s) : RoleLaw (insertRoles link as s) := by
  obtain ⟨T, g, R, hT, hcar⟩ := insertPassed_frame link as s
  obtain ⟨L, R', hL, -, -⟩ := removeSpaced_frame link as (insertPassed link as s).2
  rw [insertRoles, hL, hT]
  intro l r
  have hle : roleEntries T l r ≤ (as.map (passedCarrier link)).countP (fun c => c.owner = some (l, r)) + roleEntries s.ctl.table l r := by
    rw [roleEntries_eq_countP, roleEntries_eq_countP, ← List.countP_append]
    exact hcar.countP_le _
  refine hle.trans ?_
  by_cases hnew : l = link ∧ r ∈ as.map (·.1.role)
  · obtain ⟨rfl, hr⟩ := hnew
    have hcount : (as.map (passedCarrier l)).countP (fun c => c.owner = some (l, r)) = (as.map (·.1.role)).count r := by
      rw [List.countP_map, List.count, List.countP_map]
      exact List.countP_congr fun x _ => by simp [passedCarrier]
    have := mt (fun h => roleLimit_iff.2 ⟨r, hr, h⟩) (Bool.eq_false_iff.1 hlimit)
    omega
  · have hnone : (as.map (passedCarrier link)).countP (fun c => c.owner = some (l, r)) = 0 := by
      rw [List.countP_eq_zero]
      rintro _ hc hown
      obtain ⟨x, hx, rfl⟩ := List.mem_map.1 hc
      obtain ⟨hl, hr⟩ := Prod.mk.inj (Option.some.inj (of_decide_eq_true hown))
      exact hnew ⟨hl.symm, List.mem_map.2 ⟨x, hx, hr⟩⟩
    rw [hnone, zero_add]
    exact hs l r

theorem conflictLaw_insertRoles {link : Nat} {as : List (RolePlan × RoleAnswer)} {s : State}
    (h : PassedOver s.ctl.rules link (tableCarriers s.ctl.table) as) (hs : ConflictLaw s) : ConflictLaw (insertRoles link as s) := by
  obtain ⟨L, R, hL, -, -⟩ := removeSpaced_frame link as (insertPassed link as s).2
  rw [insertRoles, hL]
  exact conflictLaw_congr (s := (insertPassed link as s).2) rfl rfl (conflictLaw_insertPassed hs h)

/-! ### INSERT -/

/-- An INSERT changes nothing, or inserts roles that all passed and pass the bound. -/
theorem insertRequest_cases (link seq : Nat) (roles : List (RolePlan × Nat)) (s : State) :
    (insertRequest link seq roles s).2 = s ∨ ∃ as, (insertRequest link seq roles s).2 = insertRoles link as s ∧
      roleLimit s.ctl.table link (as.map (·.1.role)) = false ∧ PassedOver s.ctl.rules link (tableCarriers s.ctl.table) as := by
  unfold insertRequest
  dsimp only
  split
  · exact .inl rfl
  · next hlimit =>
    split
    · exact .inl rfl
    · split
      · exact .inl rfl
      · next as h =>
        obtain ⟨hmap, hpassed⟩ := checkRoles_passed h
        refine .inr ⟨as, rfl, ?_, hpassed⟩
        have hroles := congrArg (List.map RolePlan.role) hmap
        rw [List.map_map, List.map_map] at hroles
        rw [show as.map (·.1.role) = _ from hroles]
        exact Bool.eq_false_iff.2 hlimit

/-! ### The walks of a TAKE (R36) -/

theorem spareMatches_iff {p : RolePlan} {e : ReserveEntry} : spareMatches p e = true ↔
    e.cls = p.cls ∧ e.zone = p.zone ∧ p.lo ≤ e.code ∧ e.code ≤ p.hi ∧ onGrid e.code p.step p.off = true := by
  simp only [spareMatches, Bool.and_eq_true, decide_eq_true_eq, and_assoc]

/-- The check of the spare at a position that a walk has come to. -/
def walkVerdict (link : Nat) (p : RolePlan) (tentative : List Carrier) (s : State) (pos : Nat) (e : ReserveEntry) : Verdict :=
  verdictOf s.ctl.rules (tableCarriers s.ctl.table ++ tentative ++ reserveCarriers (s.ctl.reserve.eraseIdx pos)) e.code p.cls
    p.zone (some (link, p.role)) (some p.window)

/-- The state without the spare at a position. -/
def withoutSpare (pos : Nat) (e : ReserveEntry) (ch : ReserveChange) (old : Nat) (s : State) : State :=
  { s with
    ctl.reserve := s.ctl.reserve.eraseIdx pos
    mail.reports := s.mail.reports ++ [(.controller, reserveReport e.code ch old s)] }

section
variable {link fuel pos : Nat} {p : RolePlan} {tentative : List Carrier} {s : State} {e : ReserveEntry}

theorem walkReserve_end (he : s.ctl.reserve[pos]? = none) : walkReserve link p tentative fuel pos s = (none, s) := by
  cases fuel with
  | zero => rfl
  | succ fuel => simp only [walkReserve, he]

theorem walkReserve_pass_by (he : s.ctl.reserve[pos]? = some e) (hm : ¬spareMatches p e = true) :
    walkReserve link p tentative (fuel + 1) pos s = walkReserve link p tentative fuel (pos + 1) s := by
  simp only [walkReserve, he, if_neg hm]

theorem walkReserve_discard (he : s.ctl.reserve[pos]? = some e) (hm : spareMatches p e = true)
    (hv : ¬(walkVerdict link p tentative s pos e).passes = true) : walkReserve link p tentative (fuel + 1) pos s =
      walkReserve link p tentative fuel pos
        (withoutSpare pos e .discard (discardValue (walkVerdict link p tentative s pos e)) s) := by
  simp only [walkReserve, he, if_pos hm]
  exact if_neg hv

theorem walkReserve_take (he : s.ctl.reserve[pos]? = some e) (hm : spareMatches p e = true)
    (hv : (walkVerdict link p tentative s pos e).passes = true) : walkReserve link p tentative (fuel + 1) pos s =
      (some ({ entry := e, behind := ((s.ctl.reserve.eraseIdx pos).drop pos).map (·.code) },
        walkVerdict link p tentative s pos e), withoutSpare pos e .take 0 s) := by
  simp only [walkReserve, he, if_pos hm]
  exact if_pos hv

end

/-- What a walk leaves of the list, and what it says of the spare that it holds. -/
def WalkLeaves (p : RolePlan) (tentative : List Carrier) (s : State) (L : List ReserveEntry) : Option (HeldSpare × Verdict) → Prop
  | none => L <+~ s.ctl.reserve
  | some (h, _) => h.entry :: L <+~ s.ctl.reserve ∧
    ∀ a ∈ tableCarriers s.ctl.table ++ tentative, a.zone = p.zone → 0 ≤ spacingTo s.ctl.rules h.entry.code p.cls a

theorem walkReserve_frame (link : Nat) (p : RolePlan) (tentative : List Carrier) (fuel pos : Nat) (s : State) : ∃ L R,
    (walkReserve link p tentative fuel pos s).2 = { s with ctl.reserve := L, mail.reports := R } ∧
      WalkLeaves p tentative s L (walkReserve link p tentative fuel pos s).1 := by
  induction fuel generalizing pos s with
  | zero => exact ⟨s.ctl.reserve, s.mail.reports, rfl, .refl _⟩
  | succ fuel ih =>
    cases he : s.ctl.reserve[pos]? with
    | none => rw [walkReserve_end he]; exact ⟨s.ctl.reserve, s.mail.reports, rfl, .refl _⟩
    | some e =>
      obtain ⟨hpos, hget⟩ := List.getElem?_eq_some_iff.1 he
      by_cases hm : spareMatches p e = true
      · by_cases hv : (walkVerdict link p tentative s pos e).passes = true
        · rw [walkReserve_take he hm hv]
          refine ⟨_, _, rfl, ?_, fun a ha => spacing_of_passes hv a (List.mem_append_left _ ha)⟩
          rw [← hget]
          exact (List.getElem_cons_eraseIdx_perm hpos).subperm
        · rw [walkReserve_discard he hm hv]
          obtain ⟨L, R, h, hL⟩ := ih pos (withoutSpare pos e .discard (discardValue (walkVerdict link p tentative s pos e)) s)
          refine ⟨L, R, h, ?_⟩
          have hsub : s.ctl.reserve.eraseIdx pos <+~ s.ctl.reserve := (List.eraseIdx_sublist ..).subperm
          cases hw : (walkReserve link p tentative fuel pos
              (withoutSpare pos e .discard (discardValue (walkVerdict link p tentative s pos e)) s)).1 with
          | none => rw [hw] at hL; exact List.Subperm.trans hL hsub
          | some x => rw [hw] at hL; exact ⟨hL.1.trans hsub, hL.2⟩
      · rw [walkReserve_pass_by he hm]
        exact ih (pos + 1) s

theorem giveBack_perm (h : HeldSpare) (s : State) : ∃ L R, giveBack h s = { s with ctl.reserve := L, mail.reports := R } ∧
    L ~ h.entry :: s.ctl.reserve := by
  refine ⟨_, _, rfl, List.perm_insertIdx _ _ ?_⟩
  cases hi : s.ctl.reserve.findIdx? fun x => h.behind.contains x.code with
  | none => exact le_refl _
  | some i => exact (List.findIdx?_eq_some_iff_getElem.1 hi).1.le

theorem foldl_giveBack (l : List HeldSpare) (s : State) : ∃ L R,
    l.foldl (fun s h => giveBack h s) s = { s with ctl.reserve := L, mail.reports := R } ∧
      L ~ l.map (·.entry) ++ s.ctl.reserve := by
  induction l generalizing s with
  | nil => exact ⟨s.ctl.reserve, s.mail.reports, rfl, .refl _⟩
  | cons h l ih =>
    obtain ⟨L, R, hgive, hL⟩ := giveBack_perm h s
    obtain ⟨L', R', hfold, hL'⟩ := ih (giveBack h s)
    rw [hgive] at hfold hL'
    refine ⟨L', R', by rw [List.foldl_cons, hgive, hfold], ?_⟩
    exact (hL'.trans (hL.append_left _)).trans List.perm_middle

/-- What the walks of a TAKE leave of the list, beside the spares they hold. -/
def WalksLeave (link : Nat) (tentative : List Carrier) (heldSpares : List HeldSpare) (roles : List RolePlan) (s : State)
    (L : List ReserveEntry) : Spares → Prop
  | .lacking l => l.map (·.entry) ++ L <+~ heldSpares.map (·.entry) ++ s.ctl.reserve
  | .passed as => L <+~ s.ctl.reserve ∧ as.map (·.1) = roles ∧
    PassedOver s.ctl.rules link (tableCarriers s.ctl.table ++ tentative) as

theorem takeSpares_frame (link : Nat) (tentative : List Carrier) (heldSpares : List HeldSpare) (roles : List RolePlan)
    (s : State) : ∃ L R, (takeSpares link tentative heldSpares roles s).2 = { s with ctl.reserve := L, mail.reports := R } ∧
      WalksLeave link tentative heldSpares roles s L (takeSpares link tentative heldSpares roles s).1 := by
  induction roles generalizing tentative heldSpares s with
  | nil => exact ⟨s.ctl.reserve, s.mail.reports, rfl, .refl _, rfl, trivial⟩
  | cons p rest ih =>
    obtain ⟨L, R, hwalk, hL⟩ := walkReserve_frame link p tentative (s.ctl.reserve.length + 1) 0 s
    rw [takeSpares]
    cases hw : walkReserve link p tentative (s.ctl.reserve.length + 1) 0 s with
    | mk o u =>
    rw [hw] at hwalk hL
    obtain rfl : u = _ := hwalk
    cases o with
    | none => exact ⟨L, R, rfl, (List.subperm_append_left _).2 hL⟩
    | some x =>
      obtain ⟨h, v⟩ := x
      obtain ⟨hheld, hspaced⟩ := hL
      obtain ⟨L', R', hrest, hL'⟩ := ih
        (tentative ++ [{ code := h.entry.code, cls := p.cls, zone := p.zone, owner := some (link, p.role) }]) (h :: heldSpares)
        { s with ctl.reserve := L, mail.reports := R }
      dsimp only
      cases ht : takeSpares link
          (tentative ++ [{ code := h.entry.code, cls := p.cls, zone := p.zone, owner := some (link, p.role) }]) (h :: heldSpares)
          rest { s with ctl.reserve := L, mail.reports := R } with
      | mk spares w =>
      rw [ht] at hrest hL'
      obtain rfl : w = _ := hrest
      cases spares with
      | lacking l =>
        refine ⟨L', R', rfl, List.Subperm.trans hL' ?_⟩
        exact (List.perm_middle.symm.subperm).trans ((List.subperm_append_left _).2 hheld)
      | passed as =>
        obtain ⟨hsub, hmap, hpassed⟩ := hL'
        refine ⟨L', R', rfl, hsub.trans (List.Subperm.trans .cons_self hheld), ?_, hspaced, ?_⟩
        · rw [List.map_cons, hmap]
        · rw [List.append_assoc]
          exact hpassed

/-- A TAKE changes the list alone, none of whose spares is new, or inserts roles that all passed and pass the bound. -/
theorem takeRequest_cases (link seq : Nat) (roles : List RolePlan) (s : State) : ∃ L R, L <+~ s.ctl.reserve ∧
    ((takeRequest link seq roles s).2 = { s with ctl.reserve := L, mail.reports := R } ∨
      ∃ as, (takeRequest link seq roles s).2 = insertRoles link as { s with ctl.reserve := L, mail.reports := R } ∧
        roleLimit s.ctl.table link (as.map (·.1.role)) = false ∧ PassedOver s.ctl.rules link (tableCarriers s.ctl.table) as) := by
  unfold takeRequest
  dsimp only
  cases hr : takeRefusal link (outboundFirst RolePlan.role roles) s with
  | some code => exact ⟨s.ctl.reserve, s.mail.reports, .refl _, .inl rfl⟩
  | none =>
    obtain ⟨L, R, htake, hL⟩ := takeSpares_frame link [] [] (outboundFirst RolePlan.role roles) s
    cases ht : takeSpares link [] [] (outboundFirst RolePlan.role roles) s with
    | mk spares u =>
    rw [ht] at htake hL
    obtain rfl : u = _ := htake
    cases spares with
    | lacking l =>
      obtain ⟨L', R', hback, hL'⟩ := foldl_giveBack l { s with ctl.reserve := L, mail.reports := R }
      exact ⟨L', R', hL'.subperm.trans hL, .inl hback⟩
    | passed as =>
      obtain ⟨hsub, hmap, hpassed⟩ := hL
      refine ⟨L, R, hsub, .inr ⟨as, rfl, ?_, by simpa using hpassed⟩⟩
      have hlimit : ¬roleLimit s.ctl.table link ((outboundFirst RolePlan.role roles).map (·.role)) = true := by
        intro h
        simp [takeRefusal, h] at hr
      rw [← hmap, List.map_map] at hlimit
      exact Bool.eq_false_iff.2 hlimit

end Sys2Proof.Machine
end

section
/-! PROOFS. O6: every step keeps the law of the reserve list (R34), the bound of R27 and the law of CONFLICT (R24). -/

namespace Sys2Proof.Machine

open scoped List

/-! ### One new entry: LEARN (R30) and APPEND (R35) -/

/-- The entry of a learned role: its marks by its check against the table (R30). -/
def learnedEntry (link zone : Nat) (role : Role) (code cls : Nat) (s : State) : CarrierEntry :=
  { link := link, role := role, code := code, cls := cls, zone := zone, state := .learned
    conflict := decide (spacingMargin s.ctl.rules code cls zone (tableCarriers s.ctl.table) < 0)
    excluded := bandExcluded s.ctl.rules code cls zone, imSuspect := false, since := s.now }

/-- The controller's word about a learned role. -/
def learnAnswer (role : Role) (code : Nat) (r : ResultCode) (slot : Option Nat) : RoleAnswer :=
  { role := role, result := r, code := code, slot := slot, verdict := none }

section
variable {link zone code cls slot : Nat} {role : Role} {s : State}

theorem learnRole_wrongState (h : 0 < roleEntries s.ctl.table link role) :
    learnRole link zone role code cls s = (learnAnswer role code .wrongState none, s) := if_pos h

theorem learnRole_tableFull (h : ¬0 < roleEntries s.ctl.table link role) (hfree : lowestFree s.ctl.table = none) :
    learnRole link zone role code cls s = (learnAnswer role code .tableFull none, s) := by
  simp only [learnRole, if_neg h, hfree]
  rfl

theorem learnRole_ok (h : ¬0 < roleEntries s.ctl.table link role) (hfree : lowestFree s.ctl.table = some slot) :
    learnRole link zone role code cls s = (learnAnswer role code .ok (some slot),
      spacingRemoval (learnedEntry link zone role code cls s) (insertEntry (learnedEntry link zone role code cls s) s)) := by
  simp only [learnRole, if_neg h, hfree, entryCheck, put, set_slotOf_self (lowestFree_eq_some hfree)]
  rfl

end

/-- A LEARN of one role leaves the state, or inserts the learned entry of a role that had none. -/
theorem learnRole_cases (link zone : Nat) (role : Role) (code cls : Nat) (s : State) :
    (learnRole link zone role code cls s).2 = s ∨ (roleEntries s.ctl.table link role = 0 ∧
      (learnRole link zone role code cls s).2 =
        spacingRemoval (learnedEntry link zone role code cls s) (insertEntry (learnedEntry link zone role code cls s) s)) := by
  by_cases h : 0 < roleEntries s.ctl.table link role
  · exact .inl (congrArg Prod.snd (learnRole_wrongState h))
  · cases hfree : lowestFree s.ctl.table with
    | none => exact .inl (congrArg Prod.snd (learnRole_tableFull h hfree))
    | some slot => exact .inr ⟨Nat.eq_zero_of_not_pos h, congrArg Prod.snd (learnRole_ok h hfree)⟩

theorem reserveLaw_insertOne (e : CarrierEntry) {s : State} (hs : ReserveLaw s) : ReserveLaw (spacingRemoval e (insertEntry e s)) := by
  obtain ⟨T, g, R, hT, hcar⟩ := insertEntry_frame e s
  rw [spacingRemoval_eq, hT]
  refine reserveLaw_of_subperm (s := s) List.filter_sublist.subperm (fun a ha => ?_) hs
  rcases List.mem_cons.1 (hcar.subset ha) with rfl | ha
  · refine .inr fun x hx hcode => ?_
    have hstay := (List.mem_filter.1 hx).2
    simp only [leavesFor, Bool.not_eq_true', Bool.or_eq_false_iff, decide_eq_false_iff_not] at hstay
    exact hstay.1 hcode.symm
  · exact .inl ha

theorem roleLaw_insertOne {e : CarrierEntry} {s : State} (hnone : roleEntries s.ctl.table e.link e.role = 0) (hs : RoleLaw s) :
    RoleLaw (spacingRemoval e (insertEntry e s)) := by
  obtain ⟨T, g, R, hT, hcar⟩ := insertEntry_frame e s
  rw [spacingRemoval_eq, hT]
  intro l r
  have hle : roleEntries T l r ≤ roleEntries s.ctl.table l r + if e.link = l ∧ e.role = r then 1 else 0 := by
    rw [roleEntries_eq_countP, roleEntries_eq_countP]
    simpa [List.countP_cons, CarrierEntry.carrier] using hcar.countP_le fun c => c.owner = some (l, r)
  refine hle.trans ?_
  split
  · next h =>
    obtain ⟨rfl, rfl⟩ := h
    omega
  · exact hs l r

theorem conflictLaw_insertOne {e : CarrierEntry} {s : State} (he : ∀ k, Fits s k e) (hs : ConflictLaw s) :
    ConflictLaw (spacingRemoval e (insertEntry e s)) := by
  rw [spacingRemoval_eq]
  refine conflictLaw_congr (s := insertEntry e s) rfl rfl ?_
  unfold insertEntry
  split
  · exact hs
  · next k _ =>
    refine conflictLaw_congr (s := setSlot k (some e) s) rfl rfl (conflictLaw_setSlot (fun x hx => ?_) hs)
    obtain rfl := Option.some.inj hx
    exact he k

theorem fits_learnedEntry (link zone : Nat) (role : Role) (code cls : Nat) (s : State) (k : Nat) :
    Fits s k (learnedEntry link zone role code cls s) := by
  intro hc j y _ hy hz _
  exact spacingMargin_nonneg_iff.1 (not_lt.1 (of_decide_eq_false hc)) _ (mem_tableCarriers.2 ⟨j, y, hy, rfl⟩) hz

/-- What holds before a LEARN and is kept by each of its roles holds after it. -/
theorem learnStep_keeps {P : State → Prop} (ctl : ∀ {a b : State}, b.ctl.tables = a.ctl.tables → P a → P b)
    (role : ∀ link zone r code cls s, P s → P (learnRole link zone r code cls s).2) {s : State} (hs : P s) : P (learnStep s) := by
  have roles : ∀ link zone l s, P s → P (learnRoles link zone l s).2 := by
    intro link zone l
    induction l with
    | nil => exact fun _ => id
    | cons x l ih => exact fun s hs => ih _ (role _ _ _ _ _ s hs)
  unfold learnStep
  split
  · exact ctl (a := (learnRoles _ _ _ _).2) rfl (roles _ _ _ _ (ctl (a := s) rfl hs))
  · exact hs

/-- An APPEND changes nothing, or puts a spare with a code that nothing uses at the tail of a list with room. -/
theorem appendRequest_cases (code cls zone : Nat) (s : State) :
    (appendRequest code cls zone s).2.2 = s ∨ (s.ctl.reserve.length < 32 ∧ codeUsed s.ctl code = false ∧
      (appendRequest code cls zone s).2.2 = setReserve
        (s.ctl.reserve ++ [{ code := code, cls := cls, zone := zone, fill := s.now }]) code .append 0 s) := by
  unfold appendRequest
  split
  · exact .inl rfl
  · next hlen =>
    split
    · exact .inl rfl
    · next hused =>
      dsimp only
      split
      · exact .inr ⟨not_le.1 hlen, Bool.eq_false_iff.2 hused, rfl⟩
      · exact .inl rfl

theorem appendStep_keeps {P : State → Prop} (ctl : ∀ {a b : State}, b.ctl.tables = a.ctl.tables → P a → P b)
    (request : ∀ code cls zone s, P s → P (appendRequest code cls zone s).2.2) {s : State} (hs : P s) : P (appendStep s) := by
  unfold appendStep
  split
  · exact ctl (a := (appendRequest _ _ _ _).2.2) rfl (request _ _ _ _ (ctl (a := s) rfl hs))
  · exact hs

/-! ### The laws and the controller's tables -/

theorem table_of_tables {s u : State} (h : u.ctl.tables = s.ctl.tables) : u.ctl.table = s.ctl.table := by
  change u.ctl.tables.table = s.ctl.tables.table
  rw [h]

theorem reserve_of_tables {s u : State} (h : u.ctl.tables = s.ctl.tables) : u.ctl.reserve = s.ctl.reserve := by
  change u.ctl.tables.reserve = s.ctl.tables.reserve
  rw [h]

theorem rules_of_tables {s u : State} (h : u.ctl.tables = s.ctl.tables) : u.ctl.rules = s.ctl.rules := by
  change u.ctl.tables.rules = s.ctl.tables.rules
  rw [h]

theorem reserveLaw_of_tables {s u : State} (h : u.ctl.tables = s.ctl.tables) (hs : ReserveLaw s) : ReserveLaw u := by
  unfold ReserveLaw
  rwa [table_of_tables h, reserve_of_tables h]

theorem roleLaw_of_tables {s u : State} (h : u.ctl.tables = s.ctl.tables) (hs : RoleLaw s) : RoleLaw u := by
  unfold RoleLaw
  rwa [table_of_tables h]

theorem conflictLaw_of_tables {s u : State} (h : u.ctl.tables = s.ctl.tables) (hs : ConflictLaw s) : ConflictLaw u :=
  conflictLaw_congr (table_of_tables h) (rules_of_tables h) hs

theorem tableCarriers_reset : tableCarriers Controller.reset.table = [] := by
  simp [Controller.reset, tableCarriers]

theorem slotOf_reset (k : Nat) : slotOf Controller.reset.table k = none := by
  simp only [slotOf, Controller.reset, List.getD_eq_getElem?_getD, List.getElem?_replicate]
  split <;> rfl

theorem Lessens.reserveLaw {s u : State} (h : Lessens s u) : ReserveLaw s → ReserveLaw u := reserveLaw_of_carriers h.reserve h.carriers

theorem Lessens.roleLaw {s u : State} (h : Lessens s u) : RoleLaw s → RoleLaw u := roleLaw_of_subperm h.carriers

/-! ### INSERT -/

/-- An INSERT leaves the tables, or inserts roles that all passed and pass the bound. -/
theorem insertStep_keeps {P : State → Prop} (ctl : ∀ {a b : State}, b.ctl.tables = a.ctl.tables → P a → P b)
    (inserted : ∀ link as s, roleLimit s.ctl.table link (as.map (·.1.role)) = false →
      PassedOver s.ctl.rules link (tableCarriers s.ctl.table) as → P s → P (insertRoles link as s)) {s : State} (hs : P s) :
    P (insertStep s) := by
  unfold insertStep
  split
  · next byEngine link seq roles rest _ =>
    have hs' : P { s with ctl.queue := rest } := ctl (a := s) rfl hs
    dsimp only
    refine ctl (answerInsert_tables byEngine _ _) ?_
    rcases insertRequest_cases link seq roles { s with ctl.queue := rest } with h | ⟨as, h, hlimit, hpassed⟩
    · rw [h]; exact hs'
    · rw [h]; exact inserted link as _ hlimit hpassed hs'
  · exact hs

/-- A TAKE takes spares from the list, and inserts roles that all passed and pass the bound. -/
theorem takeStep_keeps {P : State → Prop} (ctl : ∀ {a b : State}, b.ctl.tables = a.ctl.tables → P a → P b)
    (list : ∀ {s : State} L R, L <+~ s.ctl.reserve → P s → P { s with ctl.reserve := L, mail.reports := R })
    (inserted : ∀ link as s, roleLimit s.ctl.table link (as.map (·.1.role)) = false →
      PassedOver s.ctl.rules link (tableCarriers s.ctl.table) as → P s → P (insertRoles link as s)) {s : State} (hs : P s) :
    P (takeStep s) := by
  unfold takeStep
  split
  · next link seq roles rest _ =>
    have hs' : P { s with ctl.queue := rest } := ctl (a := s) rfl hs
    obtain ⟨L, R, hL, hrequest⟩ := takeRequest_cases link seq roles { s with ctl.queue := rest }
    refine ctl (a := (takeRequest link seq roles { s with ctl.queue := rest }).2) rfl ?_
    rcases hrequest with h | ⟨as, h, hlimit, hpassed⟩
    · rw [h]; exact list L R hL hs'
    · rw [h]; exact inserted link as _ hlimit hpassed (list L R hL hs')
  · exact hs

/-! ### The three laws -/

theorem reserveLaw_learnRole (link zone : Nat) (role : Role) (code cls : Nat) (s : State) (hs : ReserveLaw s) :
    ReserveLaw (learnRole link zone role code cls s).2 := by
  rcases learnRole_cases link zone role code cls s with h | ⟨-, h⟩
  · rw [h]; exact hs
  · rw [h]; exact reserveLaw_insertOne _ hs

theorem roleLaw_learnRole (link zone : Nat) (role : Role) (code cls : Nat) (s : State) (hs : RoleLaw s) :
    RoleLaw (learnRole link zone role code cls s).2 := by
  rcases learnRole_cases link zone role code cls s with h | ⟨hnone, h⟩
  · rw [h]; exact hs
  · rw [h]; exact roleLaw_insertOne hnone hs

theorem conflictLaw_learnRole (link zone : Nat) (role : Role) (code cls : Nat) (s : State) (hs : ConflictLaw s) :
    ConflictLaw (learnRole link zone role code cls s).2 := by
  rcases learnRole_cases link zone role code cls s with h | ⟨-, h⟩
  · rw [h]; exact hs
  · rw [h]; exact conflictLaw_insertOne (fits_learnedEntry link zone role code cls s) hs

/-- A spare with a new code at the tail of a list with room. -/
theorem reserveLaw_appendRequest (code cls zone : Nat) (s : State) (hs : ReserveLaw s) :
    ReserveLaw (appendRequest code cls zone s).2.2 := by
  rcases appendRequest_cases code cls zone s with h | ⟨hlen, hused, h⟩
  · rw [h]; exact hs
  · obtain ⟨-, hnodup, hcodes⟩ := hs
    have hnew := mt codeUsed_iff.2 (Bool.eq_false_iff.1 hused)
    rw [h]
    refine ⟨by simpa using hlen, ?_, ?_⟩
    · rw [setReserve_reserve, List.map_append, List.map_singleton, List.nodup_append_comm, List.singleton_append, List.nodup_cons]
      refine ⟨fun hmem => ?_, hnodup⟩
      obtain ⟨e, he, hcode⟩ := List.mem_map.1 hmem
      exact hnew (.inr ⟨e, he, hcode⟩)
    · intro e he c hc
      rw [setReserve_reserve, List.mem_append, List.mem_singleton] at he
      rcases he with he | rfl
      · exact hcodes e he c hc
      · exact fun hcode => hnew (.inl ⟨c, hc, hcode⟩)

theorem table_appendRequest (code cls zone : Nat) (s : State) :
    (appendRequest code cls zone s).2.2.ctl.table = s.ctl.table ∧ (appendRequest code cls zone s).2.2.ctl.rules = s.ctl.rules := by
  rcases appendRequest_cases code cls zone s with h | ⟨-, -, h⟩
  · rw [h]; exact ⟨rfl, rfl⟩
  · rw [h]; exact ⟨rfl, rfl⟩

/-- R34: the controller's own steps keep the law of the list. -/
theorem reserveLaw_controllerSteps : ∀ f ∈ controllerSteps, ∀ s, ReserveLaw s → ReserveLaw (f s) := by
  simp only [controllerSteps, List.forall_mem_cons]
  exact ⟨fun _ => insertStep_keeps reserveLaw_of_tables fun link as _ _ _ => reserveLaw_insertRoles link as,
    fun _ => takeStep_keeps reserveLaw_of_tables (fun _ _ hL => reserveLaw_of_carriers hL (.refl _))
      fun link as _ _ _ => reserveLaw_insertRoles link as,
    fun _ => learnStep_keeps reserveLaw_of_tables reserveLaw_learnRole,
    fun s => (lessens_updateStep s).reserveLaw, fun s => (lessens_purgeStep s).reserveLaw,
    fun _ => appendStep_keeps reserveLaw_of_tables reserveLaw_appendRequest, fun s => (lessens_clearReserveStep s).reserveLaw,
    fun s => (lessens_adoptStep s).reserveLaw, fun s => (lessens_markStep s).reserveLaw, by simp⟩

/-- R27: the controller's own steps keep the bound. -/
theorem roleLaw_controllerSteps : ∀ f ∈ controllerSteps, ∀ s, RoleLaw s → RoleLaw (f s) := by
  simp only [controllerSteps, List.forall_mem_cons]
  exact ⟨fun _ => insertStep_keeps roleLaw_of_tables fun _ _ _ hlimit _ => roleLaw_insertRoles hlimit,
    fun _ => takeStep_keeps roleLaw_of_tables (fun _ _ _ => id) fun _ _ _ hlimit _ => roleLaw_insertRoles hlimit,
    fun _ => learnStep_keeps roleLaw_of_tables roleLaw_learnRole,
    fun s => (lessens_updateStep s).roleLaw, fun s => (lessens_purgeStep s).roleLaw,
    fun _ => appendStep_keeps roleLaw_of_tables fun code cls zone s hs => by
      unfold RoleLaw; rwa [(table_appendRequest code cls zone s).1],
    fun s => (lessens_clearReserveStep s).roleLaw,
    fun s => (lessens_adoptStep s).roleLaw, fun s => (lessens_markStep s).roleLaw, by simp⟩

/-- R24: the controller's own steps keep the law of CONFLICT. -/
theorem conflictLaw_controllerSteps : ∀ f ∈ controllerSteps, ∀ s, ConflictLaw s → ConflictLaw (f s) := by
  simp only [controllerSteps, List.forall_mem_cons]
  exact ⟨fun _ => insertStep_keeps conflictLaw_of_tables fun _ _ _ _ hpassed => conflictLaw_insertRoles hpassed,
    fun _ => takeStep_keeps conflictLaw_of_tables (fun _ _ _ => conflictLaw_congr rfl rfl)
      fun _ _ _ _ hpassed => conflictLaw_insertRoles hpassed,
    fun _ => learnStep_keeps conflictLaw_of_tables conflictLaw_learnRole,
    fun s => (lessens_updateStep s).conflict, fun s => (lessens_purgeStep s).conflict,
    fun _ => appendStep_keeps conflictLaw_of_tables fun code cls zone s =>
      conflictLaw_congr (table_appendRequest code cls zone s).1 (table_appendRequest code cls zone s).2,
    fun s => (lessens_clearReserveStep s).conflict,
    fun s => (lessens_adoptStep s).conflict, fun s => (lessens_markStep s).conflict, by simp⟩

/-- Settles O6: each law reads the controller's tables alone, a reset empties them, and the nine steps of the controller keep it. -/
theorem carrierLawsKept : Obligations.CarrierLawsKept := by
  refine ⟨fun s t hs => step_keeps reserveLaw_of_tables (fun {b} hb => ?_) reserveLaw_controllerSteps hs,
    fun s t hs => step_keeps roleLaw_of_tables (fun {b} hb => ?_) roleLaw_controllerSteps hs,
    fun s t hs => step_keeps conflictLaw_of_tables (fun {b} hb => ?_) conflictLaw_controllerSteps hs⟩
  · rw [reserveLaw_iff, hb]
    simp [Controller.reset]
  · intro link role
    rw [hb, roleEntries_eq_countP, tableCarriers_reset]
    simp
  · rw [conflictLaw_iff, hb]
    intro k e he
    rw [slotOf_reset] at he
    cases he

end Sys2Proof.Machine
end

section
/-! PROOFS. CLEAR_RESERVE: what it leaves of the list, what it reports, and its completion (R37, TABLE 12-5). -/

namespace Sys2Proof.Machine

/-- The class filter of a CLEAR_RESERVE; without one every spare meets it. -/
def meetsFilter (f : Option Nat) (e : ReserveEntry) : Bool := f.all fun k => e.cls = k

theorem not_meetsFilter (f : Option Nat) (e : ReserveEntry) : (!meetsFilter f e) = f.any fun k => e.cls ≠ k := by
  cases f <;> simp [meetsFilter]

/-- The state without the spares that meet the filter, before the order completes. -/
def cleared (f : Option Nat) (rest : List CtlReq) (s : State) : State :=
  { s with
    ctl.queue := rest, ctl.reserve := s.ctl.reserve.filter fun e => !meetsFilter f e
    mail.reports := s.mail.reports ++ goneReports (meetsFilter f) .clear s }

/-- The results of a CLEAR_RESERVE: the count removed. -/
def clearedCount (f : Option Nat) (s : State) : Results := [(0, leBytes (s.ctl.reserve.countP (meetsFilter f)) 1)]

theorem clearReserveStep_eq {s : State} {g : OrderTag} {f : Option Nat} {rest : List CtlReq}
    (h : s.ctl.queue = .clearReserve g f :: rest) :
    clearReserveStep s = doneOrder .controller g (clearedCount f s) .ok none (cleared f rest s) := by
  unfold clearReserveStep
  rw [h]
  dsimp only
  rw [dropReserve_eq]
  rfl

/-- The byte of the count reads back as the count of a list of at most 32. -/
theorem resultByte_clearedCount {s u : State} (g : OrderTag) (f : Option Nat) (hm : Memory.wf u.mem)
    (hlen : s.ctl.reserve.length ≤ 32) :
    resultByte (doneOrder .controller g (clearedCount f s) .ok none u).mem g.cell 0 = s.ctl.reserve.countP (meetsFilter f) := by
  have hle : s.ctl.reserve.countP (meetsFilter f) ≤ 32 := List.countP_le_length.trans hlen
  rw [doneOrder, completeOrder_result _ _ _ _ _ _ hm]
  show (Memory.read (Memory.write u.mem _ _) _).toNat = _
  rw [Memory.read_write hm, if_pos rfl, BitVec.toNat_ofNat]
  omega

/-- Settles O19: the drop of the spares in one step, and the completion of an order by its own lemmas. -/
theorem clearReserveRemovesByClass : Obligations.ClearReserveRemovesByClass := by
  refine ⟨fun s g f rest hmem hq hlen => ?_, fun m cell hkind => ?_⟩
  · have hframe := doneOrder_frame .controller g (clearedCount f s) .ok none (cleared f rest s)
    obtain ⟨hshows, hstamp, hout, hservice⟩ := completeOrder_ends .controller g (clearedCount f s) .ok none stDone
      (s := cleared f rest s) hmem (by decide) (by simp [clearedCount, leBytes])
    have hkept : (s.ctl.reserve.filter fun e => f.any fun k => e.cls ≠ k) = s.ctl.reserve.filter fun e => !meetsFilter f e := by
      simp only [not_meetsFilter]
    refine ⟨finish s (clearReserveStep s), rfl, ?list, ?ends, ?count, ?reports, ?frame⟩
    all_goals rw [clearReserveStep_eq hq]
    case list => rw [hkept, hframe]; rfl
    case ends => exact ⟨hshows, hstamp, hout, hservice⟩
    case count =>
      rw [finish_mem, resultByte_clearedCount g f (u := cleared f rest s) hmem hlen, finish_ctl, hframe]
      show _ = s.ctl.reserve.length - (s.ctl.reserve.filter fun e => !meetsFilter f e).length
      have hcount := List.length_eq_countP_add_countP (meetsFilter f) (l := s.ctl.reserve)
      rw [← List.countP_eq_length_filter]
      simp only [Bool.not_eq_true, Bool.decide_eq_false] at hcount
      omega
    case reports =>
      refine ⟨goneReports (meetsFilter f) .clear s, (.controller, orderReport g .ok stDone (cleared f rest s)), ?_, rfl, rfl, ?_⟩
      · rw [finish_mail, hframe]
        rfl
      · rw [goneReports, List.map_map]
        rfl
    case frame =>
      rw [hframe]
      rfl
  · have hparse : parseOrder m cell = need (byteAt m (cellParams cell) < 8 || byteAt m (cellParams cell) = 0xFF) 0 false
        (.taken (.clearReserve { cell := cell, kind := 6, clamped := false } (indexBelow 8 (byteAt m (cellParams cell))))) := by
      simp only [parseOrder, hkind]
    dsimp only
    rw [hparse]
    generalize byteAt m (cellParams cell) = b
    by_cases hff : b = 0xFF
    · subst hff
      rfl
    · by_cases hb : b < 8 <;> simp [need, indexBelow, hff, hb]

end Sys2Proof.Machine
end

section
/-! PROOFS. PURGE and UPDATE: the slots that they free, the entries that they change, and the lift of CONFLICT (R31 to R33). -/

namespace Sys2Proof.Machine

/-! ### PURGE (R33) -/

theorem slotOf_eq_none_of_ge {t : List (Option CarrierEntry)} {k : Nat} (h : t.length ≤ k) : slotOf t k = none := by
  rw [slotOf, List.getD_eq_default _ _ h]

/-- A table read slot by slot. -/
theorem filterMap_slotOf {α : Type} (t : List (Option CarrierEntry)) (p : Option CarrierEntry → Option α) :
    (List.range t.length).filterMap (fun k => p (slotOf t k)) = t.filterMap p := by
  have hmap : (List.range t.length).map (slotOf t) = t := by
    refine List.ext_getElem (by simp) fun k _ hk => ?_
    simp [slotOf, hk]
  conv_rhs => rw [← hmap, List.filterMap_map]
  rfl

theorem entriesOf_eq (s : State) (link : Nat) : entriesOf s link = s.ctl.table.filterMap fun o => o.filter (·.link = link) := by
  unfold entriesOf
  congr 1
  funext o
  cases o with
  | none => rfl
  | some e => simp [Option.filter]

theorem mem_entriesOf {s : State} {link : Nat} {g : CarrierEntry} :
    g ∈ entriesOf s link ↔ ∃ j, slotOf s.ctl.table j = some g ∧ g.link = link := by
  simp only [entriesOf_eq, List.mem_filterMap, Option.filter_eq_some_iff, decide_eq_true_eq, exists_and_right,
    ← some_mem_iff_slotOf]
  constructor
  · rintro ⟨-, ho, rfl, hl⟩
    exact ⟨ho, hl⟩
  · rintro ⟨hg, hl⟩
    exact ⟨some g, hg, rfl, hl⟩

/-- A PURGE frees every slot of its link and lifts CONFLICT by what remains. -/
theorem purgeStep_eq {s : State} {link : Nat} {rest : List CtlReq} (h : s.ctl.queue = .purge link :: rest) : ∃ T P R,
    purgeStep s = { s with
      ctl := { s.ctl with
        table := T, queue := rest, carrierGen := bumpGen^[(entriesOf s link).length] s.ctl.carrierGen }
      mail := { s.mail with
        reports := R, purgeAnswers := s.mail.purgeAnswers ++ [(link, (entriesOf s link).length)] } } ∧
    (∀ k, slotOf P k = (slotOf s.ctl.table k).filter (·.link ≠ link)) ∧
    ∀ k, slotOf T k = (slotOf P k).map (lifted (entriesOf s link) { s with ctl.table := P } k) := by
  have hgone : (List.range s.ctl.table.length).filterMap (fun k => (slotOf s.ctl.table k).filter (·.link = link)) =
      entriesOf s link := by
    rw [entriesOf_eq, filterMap_slotOf]
  obtain ⟨P, R, hpurge, hin, hout⟩ := purgeLink_eq link (List.nodup_range (n := s.ctl.table.length)) { s with ctl.queue := rest }
  rw [show ({ s with ctl.queue := rest } : State).ctl.table = s.ctl.table from rfl, hgone] at hpurge
  obtain ⟨T, R', hlift, -, hslot⟩ := reevaluate_eq (entriesOf s link) { s with
    ctl := { s.ctl with table := P, queue := rest, carrierGen := bumpGen^[(entriesOf s link).length] s.ctl.carrierGen }
    mail.reports := R }
  refine ⟨T, P, R', ?_, fun k => ?_, hslot⟩
  · unfold purgeStep
    rw [h]
    dsimp only
    rw [hpurge]
    dsimp only
    rw [hlift]
  · by_cases hk : k < s.ctl.table.length
    · exact hin k (List.mem_range.2 hk)
    · rw [hout k (by simpa using hk)]
      show slotOf s.ctl.table k = _
      rw [slotOf_eq_none_of_ge (not_lt.1 hk)]
      rfl

/-- Settles O24. -/
theorem purgeLeavesNoEntry : Obligations.PurgeLeavesNoEntry := by
  intro s link rest hq
  obtain ⟨T, P, R, hstep, hP, hT⟩ := purgeStep_eq hq
  have hkept {k : Nat} {x : CarrierEntry} : slotOf P k = some x ↔ slotOf s.ctl.table k = some x ∧ x.link ≠ link := by
    rw [hP, Option.filter_eq_some_iff, decide_eq_true_eq]
  refine ⟨purgeStep s, rfl, ?_⟩
  rw [hstep]
  refine ⟨fun k hk => ?_, fun k x hx hlink => ?_, fun k x hx hlink => ?_, rfl, fun hgen => iterate_bumpGen hgen _, rfl⟩
  · rw [hT, hP, hk]
    rfl
  · rw [hT, hP, hx, Option.filter_some, if_neg (by simpa using hlink)]
    rfl
  · have hlifts : Lifts s.ctl.rules P (entriesOf s link) k x ↔ x.conflict = true ∧
        (∃ j g, slotOf s.ctl.table j = some g ∧ g.link = link ∧ g.zone = x.zone ∧
          spacingTo s.ctl.rules x.code x.cls g.carrier < 0) ∧
        ∀ j y, j ≠ k → slotOf s.ctl.table j = some y → y.link ≠ link → y.zone = x.zone →
          0 ≤ spacingTo s.ctl.rules x.code x.cls y.carrier := by
      simp only [Lifts, hkept, mem_entriesOf]
      grind
    dsimp only
    rw [hT, hkept.2 ⟨hx, hlink⟩, ← hlifts]
    exact ⟨fun h => congrArg some (lifted_of_lifts h), fun h => congrArg some (lifted_of_not_lifts h)⟩

/-! ### UPDATE (R31) -/

/-- The entry of a slot is the one that a change names. -/
def Named (t : List (Option CarrierEntry)) (link code : Nat) (r : Role) (k : Nat) : Prop :=
  ∃ e, slotOf t k = some e ∧ e.link = link ∧ e.role = r ∧ e.code = code

theorem named_iff {t : List (Option CarrierEntry)} {link code : Nat} {r : Role} {k : Nat} (hk : k < t.length) :
    Named t link code r k ↔ (t[k].any fun e => e.link = link ∧ e.role = r ∧ e.code = code) = true := by
  simp only [Named, slotOf, List.getD_eq_getElem?_getD, List.getElem?_eq_getElem hk, Option.getD_some, Option.any_eq_true,
    decide_eq_true_eq]

theorem Named.lt_length {t : List (Option CarrierEntry)} {link code : Nat} {r : Role} {k : Nat} (h : Named t link code r k) :
    k < t.length := by
  obtain ⟨e, he, -⟩ := h
  exact lt_length_of_slotOf he

theorem findEntry_eq_none {t : List (Option CarrierEntry)} {link code : Nat} {r : Role} :
    findEntry t link r code = none ↔ ∀ k, ¬Named t link code r k := by
  rw [findEntry, List.findIdx?_eq_none_iff]
  constructor
  · intro h k hk
    have := h _ (List.getElem_mem hk.lt_length)
    rw [(named_iff hk.lt_length).1 hk] at this
    cases this
  · intro h o ho
    obtain ⟨k, hk, rfl⟩ := List.getElem_of_mem ho
    exact Bool.eq_false_iff.2 (mt (named_iff hk).2 (h k))

/-- The lowest slot whose entry the change names. -/
theorem findEntry_eq_some {t : List (Option CarrierEntry)} {link code : Nat} {r : Role} {k : Nat} :
    findEntry t link r code = some k ↔ Named t link code r k ∧ ∀ j, j < k → ¬Named t link code r j := by
  rw [findEntry, List.findIdx?_eq_some_iff_getElem]
  constructor
  · rintro ⟨hk, hat, hbefore⟩
    exact ⟨(named_iff hk).2 hat, fun j hj => mt (named_iff (hj.trans hk)).1 (hbefore j hj)⟩
  · rintro ⟨hat, hbefore⟩
    exact ⟨hat.lt_length, (named_iff hat.lt_length).1 hat, fun j hj => mt (named_iff (hj.trans hat.lt_length)).2 (hbefore j hj)⟩

/-- An UPDATE makes its changes one after another, and then lifts CONFLICT for all it removed. -/
theorem updateStep_eq {s : State} {link seq : Nat} {live : Bool} {changes : List CarrierChange} {rest : List CtlReq}
    (h : s.ctl.queue = .update link seq live changes :: rest) : ∃ T os gone U R,
    changes.foldl (updateMade link s.now) (s.ctl.table, [], []) = (T, os, gone) ∧
    updateStep s = { s with
      ctl := { s.ctl with table := U, queue := rest, carrierGen := bumpGen^[gone.length] s.ctl.carrierGen }
      mail := { s.mail with
        reports := R
        liveAnswers := s.mail.liveAnswers ++ if live then [{ link := link, seq := seq, outcomes := os }] else []
        updateAnswers := s.mail.updateAnswers ++ if live then [] else [{ link := link, seq := seq, outcomes := os }] } } ∧
    ∀ k, slotOf U k = (slotOf T k).map (lifted gone { s with ctl.table := T } k) := by
  obtain ⟨T, R, os, gone, hmade, hfold⟩ := updateChanges_eq link changes { s with ctl.queue := rest }
  obtain ⟨U, R', hlift, -, hslot⟩ := reevaluate_eq gone { s with
    ctl := { s.ctl with table := T, queue := rest, carrierGen := bumpGen^[gone.length] s.ctl.carrierGen }, mail.reports := R }
  refine ⟨T, os, gone, U, R', hfold [] [], ?_, hslot⟩
  unfold updateStep
  rw [h]
  dsimp only
  rw [hmade]
  dsimp only
  rw [hlift]
  cases live
  · simp only [if_false, List.append_nil, Bool.false_eq_true]
  · simp only [if_true, List.append_nil]

/-- An UPDATE of one change. -/
theorem updateStep_single {s u : State} {link seq : Nat} {c : CarrierChange} {rest : List CtlReq} {o : ResultCode}
    {g : Option CarrierEntry} (h : s.ctl.queue = .update link seq false [c] :: rest)
    (hc : updateChange link c { s with ctl.queue := rest } = (o, g, u)) :
    updateStep s = { reevaluate g.toList u with
      mail.updateAnswers := (reevaluate g.toList u).mail.updateAnswers ++ [{ link := link, seq := seq, outcomes := [o] }] } := by
  unfold updateStep
  rw [h]
  dsimp only
  rw [updateChanges_cons hc]
  simp only [updateChanges, List.append_nil]
  rfl

/-- Settles O23. -/
theorem updateOfOneEntry : Obligations.UpdateOfOneEntry := by
  refine ⟨?list, fun t link code r => ⟨findEntry_eq_none, fun k => findEntry_eq_some⟩, ?one⟩
  case list =>
    intro s link seq live changes rest hq after made answer
    obtain ⟨T, os, gone, U, R, hmade, hstep, hslot⟩ := updateStep_eq hq
    have hafter : after = updateMade link s.now := rfl
    have hmade' : made = (T, os, gone) := by rw [← hmade, ← hafter]
    have hanswer : answer = { link := link, seq := seq, outcomes := os } := by simp only [answer, hmade']
    refine ⟨updateStep s, rfl, ?_⟩
    rw [hmade', hanswer, hstep]
    refine ⟨fun k hk => ?_, fun k x hx => ?_, fun hgen => iterate_bumpGen hgen _, rfl⟩
    · rw [hslot, hk]
      rfl
    · dsimp only
      rw [hslot, hx]
      exact ⟨fun h => congrArg some (lifted_of_lifts h), fun h => congrArg some (lifted_of_not_lifts h)⟩
  case one =>
    intro s link seq c rest hq answer refused
    have refuse (h : updateChange link c { s with ctl.queue := rest } = (.wrongState, none, { s with ctl.queue := rest })) :
        refused := by
      show Host.Outcome.next (finish s (updateStep s)) = _
      rw [updateStep_single hq h]
      rfl
    refine ⟨fun hnone => refuse ?_, fun slot e target hfind hslot hc => ⟨fun hno => refuse ?_, fun hyes => ?_⟩,
      fun slot e hfind hslot hc => ?_⟩
    · simp only [updateChange, hnone]
    · have hnot : allowedChange e.state target = false := by
        rcases hno with h | ⟨h, h'⟩ | h | h <;> cases he : e.state <;> simp_all [allowedChange]
      simp only [updateChange, hfind, hslot, hc, hnot]
      rfl
    · have hok := allowedChange_iff.2 hyes
      have hne : e.state ≠ target := by
        rintro h
        rw [h] at hok
        cases target <;> cases hok
      have hchange : updateChange link c { s with ctl.queue := rest } =
          (.ok, none, setSlot slot (some { e with state := target, since := s.now }) { s with ctl.queue := rest }) := by
        simp only [updateChange, hfind, hslot, hc, hok]
        rfl
      refine ⟨updateStep s, rfl, ?_⟩
      rw [updateStep_single hq hchange, setSlot_eq]
      show _ = _
      simp only [hslot, slotReports_state _ _ _ _ _ hne]
      rfl
    · have hchange : updateChange link c { s with ctl.queue := rest } =
          (.ok, some e, removeSlot slot { s with ctl.queue := rest }) := by
        simp only [updateChange, hfind, hslot, hc]
      obtain ⟨U, R, hlift, -, hU⟩ := reevaluate_eq [e] (removeSlot slot { s with ctl.queue := rest })
      have hstep := updateStep_single hq hchange
      rw [Option.toList_some, hlift] at hstep
      have hat {k : Nat} (hk : k ≠ slot) : slotOf (s.ctl.table.set slot none) k = slotOf s.ctl.table k := slotOf_set_of_ne _ hk
      refine ⟨updateStep s, rfl, ?_⟩
      rw [hstep]
      refine ⟨?_, rfl, rfl, fun k x hk hx => ?_, fun k hk => ?_, rfl⟩
      · show slotOf U slot = none
        rw [hU]
        show (slotOf (s.ctl.table.set slot none) slot).map _ = none
        rw [slotOf_set_none]
        rfl
      · have hlifts : Lifts s.ctl.rules (s.ctl.table.set slot none) [e] k x ↔
            x.conflict = true ∧ x.zone = e.zone ∧ spacingTo s.ctl.rules x.code x.cls e.carrier < 0 ∧
              ∀ j y, j ≠ slot → j ≠ k → slotOf s.ctl.table j = some y → y.zone = x.zone →
                0 ≤ spacingTo s.ctl.rules x.code x.cls y.carrier := by
          have hleft {j : Nat} {y : CarrierEntry} :
              slotOf (s.ctl.table.set slot none) j = some y ↔ j ≠ slot ∧ slotOf s.ctl.table j = some y := by
            by_cases hj : j = slot
            · simp [hj]
            · simp [hj, hat hj]
          simp only [Lifts, List.mem_singleton, exists_eq_left, hleft]
          grind
        have hTk : slotOf U k = some (lifted [e] (removeSlot slot { s with ctl.queue := rest }) k x) := by
          rw [hU]
          show (slotOf (s.ctl.table.set slot none) k).map _ = _
          rw [hat hk, hx]
          rfl
        dsimp only
        rw [hTk, ← hlifts]
        exact ⟨fun h => congrArg some (lifted_of_lifts h), fun h => congrArg some (lifted_of_not_lifts h)⟩
      · show slotOf U k = none
        rw [hU]
        show (slotOf (s.ctl.table.set slot none) k).map _ = none
        by_cases h : k = slot
        · rw [h, slotOf_set_none]
          rfl
        · rw [hat h, hk]
          rfl

end Sys2Proof.Machine
end

section
/-! PROOFS. ADOPT and MARK: every entry re-marked, the findings applied, and the spares that leave (R38, R39). -/

namespace Sys2Proof.Machine

/-- The internal audit is queued or pending, and nothing else changes (R55). -/
theorem queueInternalAudit_eq (s : State) : ∃ q p, (p = true ∨ .internalAudit ∈ q) ∧
    queueInternalAudit s = { s with eng := { s.eng with queue := q, auditPending := p } } := by
  unfold queueInternalAudit
  split
  · next h =>
    refine ⟨s.eng.queue, s.eng.auditPending, ?_, rfl⟩
    rw [Bool.or_eq_true, List.contains_iff_mem] at h
    exact h.symm
  · split
    · exact ⟨_, s.eng.auditPending, .inr (List.mem_append_right _ (List.mem_singleton_self _)), rfl⟩
    · exact ⟨s.eng.queue, true, .inl rfl, rfl⟩

/-- The reports of one slot's marks, by the slot's entry. -/
theorem slotMarks_eq (k : Nat) (g : CarrierEntry → CarrierEntry) (s : State) :
    slotMarks k g s = match slotOf s.ctl.table k with
      | none => []
      | some e => markReports k e (g e) s := by
  unfold slotMarks
  cases slotOf s.ctl.table k <;> rfl

/-- The spares that an adoption removes. -/
def prunedBy (r : PlanRules) (t : List Carrier) (e : ReserveEntry) : Bool :=
  bandExcluded r e.code e.cls e.zone || spacingMargin r e.code e.cls e.zone t < 0

/-- An adoption re-marks every entry, prunes the list, and queues an audit. -/
theorem adoptStep_eq {s : State} {rules : PlanRules} {rest : List CtlReq} (h : s.ctl.queue = .adopt rules :: rest) :
    ∃ T q p, (p = true ∨ .internalAudit ∈ q) ∧
      (∀ k, slotOf T k = (slotOf s.ctl.table k).map (marked { s with ctl.rules := rules } k)) ∧
      adoptStep s = { s with
        ctl := { s.ctl with
          table := T, queue := rest, rules := rules, ruleGen := bumpGen s.ctl.ruleGen
          reserve := s.ctl.reserve.filter fun e => !prunedBy rules (tableCarriers s.ctl.table) e }
        eng := { s.eng with queue := q, auditPending := p }
        adopt.station.stage := .answered
        mail.reports := s.mail.reports ++
          ((List.range s.ctl.table.length).flatMap (fun k => slotMarks k (marked { s with ctl.rules := rules } k) s) ++
            goneReports (prunedBy rules (tableCarriers s.ctl.table)) .adoption s) } := by
  obtain ⟨T, hremark, hcar, hslot⟩ :=
    remark_eq { s with ctl.queue := rest, ctl.rules := rules, ctl.ruleGen := bumpGen s.ctl.ruleGen }
  obtain ⟨q, p, hqueued, haudit⟩ := queueInternalAudit_eq (pruneReserve
    (remark { s with ctl.queue := rest, ctl.rules := rules, ctl.ruleGen := bumpGen s.ctl.ruleGen }))
  refine ⟨T, q, p, hqueued, hslot, ?_⟩
  unfold adoptStep
  rw [h]
  dsimp only
  rw [haudit]
  unfold pruneReserve
  rw [hremark, dropReserve_eq]
  dsimp only
  rw [tableCarriers_congr hcar, List.append_assoc]
  rfl

/-- Settles O25. -/
theorem adoptTakesTheRules : Obligations.AdoptTakesTheRules := by
  intro s rules rest hq
  obtain ⟨T, q, p, hqueued, hslot, hstep⟩ := adoptStep_eq hq
  refine ⟨adoptStep s, rfl, ?_⟩
  rw [hstep]
  refine ⟨rfl, rfl, rfl, rfl, fun k _ => hslot k, rfl, hqueued, rfl, ?_, rfl⟩
  simp only [slotMarks_eq]
  rfl

/-- The mark that the findings leave on a slot's entry. -/
theorem suspected_find {f : List Finding} (hf : (f.map (·.slot)).Nodup) {T U : List (Option CarrierEntry)} {k : Nat}
    (hin : ∀ x ∈ f, slotOf U x.slot = (slotOf T x.slot).map (suspected x))
    (hout : k ∉ f.map (·.slot) → slotOf U k = slotOf T k) :
    slotOf U k = (slotOf T k).map fun e =>
      match f.find? (fun x => x.slot = k ∧ x.link = e.link ∧ x.role = e.role ∧ x.code = e.code) with
      | some x => { e with imSuspect := x.suspect }
      | none => e := by
  by_cases hk : k ∈ f.map (·.slot)
  · obtain ⟨x, hx, rfl⟩ := List.mem_map.1 hk
    have honly : ∀ y ∈ f, y.slot = x.slot → y = x := fun y hy h => List.inj_on_of_nodup_map hf hy hx h
    rw [hin x hx]
    refine Option.map_congr fun e _ => ?_
    split
    · next y hy =>
      have hfound := List.find?_some hy
      obtain rfl := honly y (List.mem_of_find?_eq_some hy) (of_decide_eq_true hfound).1
      obtain ⟨-, hlink, hrole, hcode⟩ := of_decide_eq_true hfound
      rw [suspected, if_pos ⟨hlink.symm, hrole.symm, hcode.symm⟩]
    · next hnone =>
      have hx := List.find?_eq_none.1 hnone x hx
      rw [suspected, if_neg fun ⟨hlink, hrole, hcode⟩ => hx (decide_eq_true ⟨rfl, hlink.symm, hrole.symm, hcode.symm⟩)]
  · rw [hout hk]
    cases slotOf T k with
    | none => rfl
    | some e =>
      have hnone : f.find? (fun x => x.slot = k ∧ x.link = e.link ∧ x.role = e.role ∧ x.code = e.code) = none :=
        List.find?_eq_none.2 fun x hx h => hk (List.mem_map.2 ⟨x, hx, (of_decide_eq_true h).1⟩)
      simp only [Option.map_some, hnone]

/-- The answer of a MARK that leaves this table and this list. -/
def markAnswer (apply : Bool) (before : Nat) (T : List (Option CarrierEntry)) (L : List ReserveEntry) : MarkAnswer :=
  { conflict := countMarks (·.conflict) T, excluded := countMarks (·.excluded) T, imSuspect := countMarks (·.imSuspect) T
    removed := before - L.length, applied := apply }

/-- Under another generation than the audit's a MARK re-marks the entries alone. -/
theorem markRequest_stale {gen : Nat} {f : List Finding} {codes : List Nat} {s : State} (hgen : gen ≠ s.ctl.ruleGen) :
    ∃ T, markRequest gen f codes s = (markAnswer false s.ctl.reserve.length T s.ctl.reserve, { s with
        ctl.table := T
        mail.reports := s.mail.reports ++ (List.range s.ctl.table.length).flatMap fun k => slotMarks k (marked s k) s }) ∧
      ∀ k, slotOf T k = (slotOf s.ctl.table k).map (marked s k) := by
  obtain ⟨T, hremark, -, hslot⟩ := remark_eq s
  refine ⟨T, ?_, hslot⟩
  unfold markRequest
  rw [hremark]
  dsimp only
  rw [if_neg hgen, decide_eq_false hgen]
  rfl

/-- Under the audit's generation a MARK applies the findings too, and removes the failing spares. -/
theorem markRequest_fresh {gen : Nat} {f : List Finding} {codes : List Nat} {s : State} (hgen : gen = s.ctl.ruleGen)
    (hf : (f.map (·.slot)).Nodup) :
    ∃ T, markRequest gen f codes s =
        (markAnswer true s.ctl.reserve.length T (s.ctl.reserve.filter fun e => !codes.contains e.code), { s with
          ctl.table := T
          ctl.reserve := s.ctl.reserve.filter fun e => !codes.contains e.code
          mail.reports := s.mail.reports ++
            ((List.range s.ctl.table.length).flatMap (fun k => slotMarks k (marked s k) s) ++
              ((f.flatMap fun x => slotMarks x.slot (suspected x) (remark s)) ++
                goneReports (fun e => codes.contains e.code) .audit s)) }) ∧
      ∀ k, slotOf T k = (slotOf s.ctl.table k).map fun e =>
        match f.find? (fun x => x.slot = k ∧ x.link = e.link ∧ x.role = e.role ∧ x.code = e.code) with
        | some x => { marked s k e with imSuspect := x.suspect }
        | none => marked s k e := by
  obtain ⟨T, hremark, -, hslot⟩ := remark_eq s
  obtain ⟨U, happly, -, hin, hout⟩ := applyFindings_eq hf (remark s)
  refine ⟨U, ?_, fun k => ?_⟩
  · have hgen' : gen = (remark s).ctl.ruleGen := by rw [hremark]; exact hgen
    unfold markRequest
    dsimp only
    rw [if_pos hgen', decide_eq_true hgen', happly, dropReserve_eq, hremark, ← List.append_assoc, ← List.append_assoc]
    rfl
  · rw [suspected_find hf hin (hout k), hremark]
    show (slotOf T k).map _ = _
    rw [hslot, Option.map_map]
    rfl

/-- The reports of a finding, by the entry that the re-marking left in its slot. -/
theorem slotMarks_suspected (x : Finding) (s : State) :
    slotMarks x.slot (suspected x) (remark s) = match slotOf s.ctl.table x.slot with
      | none => []
      | some e => if x.link = e.link ∧ x.role = e.role ∧ x.code = e.code
          then markReports x.slot (marked s x.slot e) { marked s x.slot e with imSuspect := x.suspect } s else [] := by
  obtain ⟨T, hremark, -, hslot⟩ := remark_eq s
  rw [slotMarks_eq, hremark]
  show (match slotOf T x.slot with
      | none => []
      | some e => _) = _
  rw [hslot]
  cases slotOf s.ctl.table x.slot with
  | none => rfl
  | some e =>
    show markReports _ _ _ _ = ite _ _ _
    by_cases h : x.link = e.link ∧ x.role = e.role ∧ x.code = e.code
    · rw [if_pos h, suspected, if_pos (by exact ⟨h.1.symm, h.2.1.symm, h.2.2.symm⟩)]
      rfl
    · rw [if_neg h, suspected, if_neg (by exact fun h' => h ⟨h'.1.symm, h'.2.1.symm, h'.2.2.symm⟩), markReports_self]

/-- Settles O26. -/
theorem markAppliesFindings : Obligations.MarkAppliesFindings := by
  intro s gen f codes rest hq hf
  have hstep {a : MarkAnswer} {u : State} (h : markRequest gen f codes { s with ctl.queue := rest } = (a, u)) :
      markStep s = { u with mail.engineAnswers := u.mail.engineAnswers ++ [.marked a] } := by
    unfold markStep
    rw [hq]
    dsimp only
    rw [h]
  by_cases hgen : gen = s.ctl.ruleGen
  · obtain ⟨T, hmark, hslot⟩ := markRequest_fresh (s := { s with ctl.queue := rest }) (codes := codes) hgen hf
    refine ⟨markStep s, (markRequest gen f codes { s with ctl.queue := rest }).1, rfl, ?_⟩
    rw [hstep hmark, hmark]
    refine ⟨fun k _ => ?_, (if_pos hgen).symm, rfl, (decide_eq_true hgen).symm, rfl, ?_, rfl, rfl, rfl, rfl⟩
    · dsimp only
      rw [hslot]
      refine Option.map_congr fun e _ => ?_
      simp only [if_pos hgen]
      generalize List.find? _ f = o
      cases o <;> rfl
    · simp only [if_pos hgen, slotMarks_suspected]
      simp only [slotMarks_eq]
      rfl
  · obtain ⟨T, hmark, hslot⟩ := markRequest_stale (s := { s with ctl.queue := rest }) (f := f) (codes := codes) hgen
    refine ⟨markStep s, (markRequest gen f codes { s with ctl.queue := rest }).1, rfl, ?_⟩
    rw [hstep hmark, hmark]
    refine ⟨fun k _ => ?_, (if_neg hgen).symm, rfl, (decide_eq_false hgen).symm, rfl, ?_, rfl, rfl, rfl, rfl⟩
    · dsimp only
      rw [hslot]
      refine Option.map_congr fun e _ => ?_
      simp only [if_neg hgen]
      generalize List.find? _ f = o
      cases o <;> rfl
    · simp only [if_neg hgen, List.append_nil, slotMarks_eq]
      rfl

end Sys2Proof.Machine
end

section
/-! PROOFS. LEARN of one role and of two (R30). -/

namespace Sys2Proof.Machine

/-- A learned role changes the table, the list, the count of changes and the reports. -/
theorem learnRole_frame (link zone : Nat) (role : Role) (code cls : Nat) (s : State) : ∃ T L g R,
    (learnRole link zone role code cls s).2 = { s with
      ctl := { s.ctl with table := T, reserve := L, carrierGen := g }, mail.reports := R } := by
  rcases learnRole_cases link zone role code cls s with h | ⟨-, h⟩
  · exact ⟨_, _, _, _, h⟩
  · obtain ⟨T, g, R, hinsert, -⟩ := insertEntry_frame (learnedEntry link zone role code cls s) s
    rw [h, spacingRemoval_eq, hinsert]
    exact ⟨_, _, _, _, rfl⟩

/-- The answer to a LEARN, given to the link that sent it. -/
def answerLearn (link seq : Nat) (as : List RoleAnswer) (s : State) : State :=
  { s with mail.learnAnswers := s.mail.learnAnswers ++ [{ link := link, seq := seq, result := .ok, roles := as }] }

theorem learnStep_one {s : State} {link seq zone code cls : Nat} {r : Role} {rest : List CtlReq}
    (h : s.ctl.queue = .learn link seq zone [(r, code, cls)] :: rest) :
    learnStep s = answerLearn link seq [(learnRole link zone r code cls { s with ctl.queue := rest }).1]
      (learnRole link zone r code cls { s with ctl.queue := rest }).2 := by
  unfold learnStep
  rw [h]
  cases r <;> rfl

/-- Both roles, OUTBOUND first in whichever order they are given. -/
theorem learnStep_both {s u : State} {a : RoleAnswer} {link seq zone : Nat} {o n : Nat × Nat}
    {roles : List (Role × Nat × Nat)} {rest : List CtlReq} (h : s.ctl.queue = .learn link seq zone roles :: rest)
    (hroles : roles = [(.outbound, o), (.inbound, n)] ∨ roles = [(.inbound, n), (.outbound, o)])
    (hu : learnRole link zone .outbound o.1 o.2 { s with ctl.queue := rest } = (a, u)) :
    learnStep s = answerLearn link seq [a, (learnRole link zone .inbound n.1 n.2 u).1]
      (learnRole link zone .inbound n.1 n.2 u).2 := by
  have horder : outboundFirst (·.1) roles = [(.outbound, o), (.inbound, n)] := by
    rcases hroles with rfl | rfl <;> rfl
  unfold learnStep
  rw [h]
  dsimp only
  rw [horder]
  simp only [learnRoles, hu]
  rfl

/-- Settles O22. -/
theorem learnOfOneRole : Obligations.LearnOfOneRole := by
  refine ⟨?one, ?both⟩
  case one =>
    intro s link seq zone code cls r rest hq answer same
    refine ⟨fun h => ?_, fun h hfull => ?_, fun slot h hfree => ?_⟩
    · show Host.Outcome.next (finish s (learnStep s)) = _
      rw [learnStep_one hq, learnRole_wrongState (s := { s with ctl.queue := rest }) h]
      rfl
    · show Host.Outcome.next (finish s (learnStep s)) = _
      rw [learnStep_one hq, learnRole_tableFull (s := { s with ctl.queue := rest }) h.not_gt (lowestFree_eq_none.2 hfull)]
      rfl
    · refine ⟨learnStep s, learnedEntry link zone r code cls s, rfl, ?_⟩
      rw [learnStep_one hq, learnRole_ok (s := { s with ctl.queue := rest }) h.not_gt hfree, spacingRemoval_eq,
        insertEntry_eq (s := { s with ctl.queue := rest }) hfree]
      refine ⟨rfl, rfl, rfl, rfl, rfl, ?_, rfl⟩
      exact List.append_assoc ..
  case both =>
    intro s link seq zone o n roles rest hq hroles alone answered
    obtain ⟨a, u, hout⟩ : ∃ a u, learnRole link zone .outbound o.1 o.2 { s with ctl.queue := rest } = (a, u) := ⟨_, _, rfl⟩
    obtain ⟨b, v, hin⟩ : ∃ b v, learnRole link zone .inbound n.1 n.2 u = (b, v) := ⟨_, _, rfl⟩
    obtain ⟨T, L, g, R, hu⟩ := learnRole_frame link zone .outbound o.1 o.2 { s with ctl.queue := rest }
    obtain ⟨T', L', g', R', hv⟩ := learnRole_frame link zone .inbound n.1 n.2 u
    rw [hout] at hu
    rw [hin] at hv
    have hqueue : { alone u (.inbound, n) with ctl.queue := rest } = u := by rw [show u = _ from hu]
    have hanswers : u.mail.learnAnswers = s.mail.learnAnswers := by rw [show u = _ from hu]
    have hanswers' : v.mail.learnAnswers = u.mail.learnAnswers := by rw [show v = _ from hv]
    have same {s v : State} (l : List RoleAnswer) (h : v.mail.learnAnswers = s.mail.learnAnswers) :
        answerLearn link seq l v = answered s v l := by
      simp only [answerLearn, answered, h]
    have hfirst : learnStep (alone s (.outbound, o)) = answered s u [a] := by
      rw [learnStep_one rfl, ← same _ hanswers]
      change answerLearn link seq [(learnRole link zone .outbound o.1 o.2 { s with ctl.queue := rest }).1] _ = _
      rw [hout]
    have hsecond : learnStep (alone u (.inbound, n)) = answered u v [b] := by
      rw [learnStep_one rfl, hqueue, hin, ← same _ hanswers']
    have hall : learnStep s = answered s v [a, b] := by
      rw [learnStep_both hq hroles hout, hin, ← same _ (hanswers'.trans hanswers)]
    refine ⟨u, v, a, b, ?_, ?_, hanswers, ?_⟩
    · rw [← hfirst]; rfl
    · rw [← hsecond]; rfl
    · rw [← hall]; rfl

end Sys2Proof.Machine
end

section
/-! PROOFS. INSERT of one role and of two (R27, R28). -/

namespace Sys2Proof.Machine

/-! ### The request -/

section
variable {link seq : Nat} {roles l : List (RolePlan × Nat)} {s : State}

theorem insertRequest_wrongState (horder : outboundFirst (fun p => p.1.role) roles = l)
    (h : roleLimit s.ctl.table link (l.map (·.1.role)) = true) :
    insertRequest link seq roles s = ({ link := link, seq := seq, result := .wrongState, roles := [] }, s) := by
  unfold insertRequest
  rw [horder]
  exact if_pos h

theorem insertRequest_tableFull (horder : outboundFirst (fun p => p.1.role) roles = l)
    (h : ¬roleLimit s.ctl.table link (l.map (·.1.role)) = true) (hfree : freeSlots s.ctl.table < l.length) :
    insertRequest link seq roles s = ({ link := link, seq := seq, result := .tableFull, roles := [] }, s) := by
  unfold insertRequest
  rw [horder]
  exact (if_neg h).trans (if_pos hfree)

/-- A check that fails answers CONTENDED. -/
theorem insertRequest_contended {as : List (RolePlan × RoleAnswer)} (horder : outboundFirst (fun p => p.1.role) roles = l)
    (h : ¬roleLimit s.ctl.table link (l.map (·.1.role)) = true) (hfree : ¬freeSlots s.ctl.table < l.length)
    (hcheck : checkRoles s.ctl.rules (tableCarriers s.ctl.table) link l = (false, as)) :
    insertRequest link seq roles s = ({ link := link, seq := seq, result := .contended
                                        roles := (as.map (·.2)).filter fun a => a.result ≠ .ok }, s) := by
  unfold insertRequest
  rw [horder]
  dsimp only
  rw [if_neg h, if_neg hfree, hcheck]

/-- Checks that pass insert their roles. -/
theorem insertRequest_ok {as : List (RolePlan × RoleAnswer)} (horder : outboundFirst (fun p => p.1.role) roles = l)
    (h : ¬roleLimit s.ctl.table link (l.map (·.1.role)) = true) (hfree : ¬freeSlots s.ctl.table < l.length)
    (hcheck : checkRoles s.ctl.rules (tableCarriers s.ctl.table) link l = (true, as)) :
    insertRequest link seq roles s =
      ({ link := link, seq := seq, result := .ok, roles := (insertPassed link as s).1 }, insertRoles link as s) := by
  unfold insertRequest
  rw [horder]
  dsimp only
  rw [if_neg h, if_neg hfree, hcheck]
  rfl

end

theorem insertRoles_frame (link : Nat) (as : List (RolePlan × RoleAnswer)) (s : State) : ∃ T L g R,
    insertRoles link as s = { s with ctl := { s.ctl with table := T, reserve := L, carrierGen := g }, mail.reports := R } := by
  obtain ⟨T, g, R, hT, -⟩ := insertPassed_frame link as s
  obtain ⟨L, R', hL, -, -⟩ := removeSpaced_frame link as (insertPassed link as s).2
  rw [insertRoles, hL, hT]
  exact ⟨_, _, _, _, rfl⟩

theorem insertRequest_frame (link seq : Nat) (roles : List (RolePlan × Nat)) (s : State) : ∃ T L g R,
    (insertRequest link seq roles s).2 =
      { s with ctl := { s.ctl with table := T, reserve := L, carrierGen := g }, mail.reports := R } := by
  rcases insertRequest_cases link seq roles s with h | ⟨as, h, -, -⟩
  · exact ⟨_, _, _, _, h⟩
  · rw [h]
    exact insertRoles_frame link as s

theorem insertStep_eq {s : State} {byEngine : Bool} {link seq : Nat} {roles : List (RolePlan × Nat)} {rest : List CtlReq}
    (h : s.ctl.queue = .insert byEngine link seq roles :: rest) :
    insertStep s = answerInsert byEngine (insertRequest link seq roles { s with ctl.queue := rest }).1
      (insertRequest link seq roles { s with ctl.queue := rest }).2 := by
  unfold insertStep
  rw [h]

/-! ### Checks and insertions of one role and of two -/

/-- The controller's word about a checked role. -/
def checkedWord (p : RolePlan) (code : Nat) (r : ResultCode) (slot : Option Nat) (v : Verdict) : RoleAnswer :=
  { role := p.role, result := r, code := code, slot := slot, verdict := some v }

/-- The check of one role of an INSERT against the carriers before it. -/
def insertVerdict (r : PlanRules) (t : List Carrier) (link : Nat) (p : RolePlan) (code : Nat) : Verdict :=
  verdictOf r t code p.cls p.zone (some (link, p.role)) (some p.window)

theorem checkRoles_fail {r : PlanRules} {t : List Carrier} {link code : Nat} {p : RolePlan} (rest : List (RolePlan × Nat))
    (h : (insertVerdict r t link p code).eligibility ≠ .acceptable) :
    checkRoles r t link ((p, code) :: rest) = (false, [(p, checkedWord p code .contended none (insertVerdict r t link p code))]) := by
  have hno : ¬(insertVerdict r t link p code).passes = true := mt Verdict.passes_iff.1 h
  unfold insertVerdict at hno
  rw [checkRoles]
  dsimp only
  rw [if_neg hno, if_neg hno]
  rfl

theorem checkRoles_pass {r : PlanRules} {t : List Carrier} {link code : Nat} {p : RolePlan} {rest : List (RolePlan × Nat)}
    {ok : Bool} {as : List (RolePlan × RoleAnswer)} (h : (insertVerdict r t link p code).eligibility = .acceptable)
    (hrest : checkRoles r (t ++ [{ code := code, cls := p.cls, zone := p.zone, owner := some (link, p.role) }]) link rest = (ok, as)) :
    checkRoles r t link ((p, code) :: rest) = (ok, (p, checkedWord p code .ok none (insertVerdict r t link p code)) :: as) := by
  have hyes : (insertVerdict r t link p code).passes = true := Verdict.passes_iff.2 h
  unfold insertVerdict at hyes
  rw [checkRoles]
  dsimp only
  rw [if_pos hyes, if_pos hyes, hrest]
  rfl

/-- An entry without marks is inserted with one report. -/
theorem insertEntry_bare {e : CarrierEntry} {s : State} {k : Nat} (h : lowestFree s.ctl.table = some k)
    (hbare : { e with conflict := false, excluded := false, imSuspect := false } = e) :
    insertEntry e s = { s with
      ctl.table := s.ctl.table.set k (some e), ctl.carrierGen := bumpGen s.ctl.carrierGen
      mail.reports := s.mail.reports ++ [(.controller, carrierReport k none (some e) s)] } := by
  rw [insertEntry_eq h, hbare, markReports_self]

/-- One role inserted, and the spares that leave by R28. -/
theorem insertRoles_one {link k : Nat} {p : RolePlan} {a : RoleAnswer} {s : State} (h : lowestFree s.ctl.table = some k) :
    insertRoles link [(p, a)] s = { s with
      ctl := { s.ctl with
        table := s.ctl.table.set k (some (newEntry link p a.code .reserved s)), carrierGen := bumpGen s.ctl.carrierGen
        reserve := s.ctl.reserve.filter fun x => !leavesFor s.ctl.rules (newEntry link p a.code .reserved s) x }
      mail.reports := s.mail.reports ++
        ((.controller, carrierReport k none (some (newEntry link p a.code .reserved s)) s) ::
          goneReports (leavesFor s.ctl.rules (newEntry link p a.code .reserved s)) .spacing s) } := by
  show spacingRemoval (newEntry link p a.code .reserved _) (insertEntry (newEntry link p a.code .reserved s) s) = _
  rw [insertEntry_bare h rfl, spacingRemoval_eq]
  simp only [List.append_assoc, List.singleton_append]
  rfl

/-- Two roles inserted, and the spares that leave by R28: first those of the first. -/
theorem insertRoles_both {link i j : Nat} {p q : RolePlan} {a b : RoleAnswer} {s : State} (hi : lowestFree s.ctl.table = some i)
    (hj : lowestFree (s.ctl.table.set i (some (newEntry link p a.code .reserved s))) = some j) :
    insertRoles link [(p, a), (q, b)] s = { s with
      ctl := { s.ctl with
        table := (s.ctl.table.set i (some (newEntry link p a.code .reserved s))).set j (some (newEntry link q b.code .reserved s))
        carrierGen := bumpGen (bumpGen s.ctl.carrierGen)
        reserve := s.ctl.reserve.filter fun x => !leavesFor s.ctl.rules (newEntry link q b.code .reserved s) x &&
          !leavesFor s.ctl.rules (newEntry link p a.code .reserved s) x }
      mail.reports := s.mail.reports ++
        ((.controller, carrierReport i none (some (newEntry link p a.code .reserved s)) s) ::
          (.controller, carrierReport j none (some (newEntry link q b.code .reserved s)) s) ::
            (goneReports (leavesFor s.ctl.rules (newEntry link p a.code .reserved s)) .spacing s ++
              goneReports (fun x => leavesFor s.ctl.rules (newEntry link q b.code .reserved s) x &&
                !leavesFor s.ctl.rules (newEntry link p a.code .reserved s) x) .spacing s)) } := by
  show spacingRemoval (newEntry link q b.code .reserved _) (spacingRemoval (newEntry link p a.code .reserved _)
    (insertEntry (newEntry link q b.code .reserved _) (insertEntry (newEntry link p a.code .reserved s) s))) = _
  rw [insertEntry_bare hi rfl, insertEntry_bare (k := j) (by exact hj) rfl, spacingRemoval_eq, spacingRemoval_eq]
  simp only [List.append_assoc, List.singleton_append, List.filter_filter, goneReports]
  rfl

theorem insertPassed_one {link k : Nat} {p : RolePlan} {a : RoleAnswer} {s : State} (h : lowestFree s.ctl.table = some k) :
    (insertPassed link [(p, a)] s).1 = [{ a with slot := some k }] := by
  rw [← h]
  rfl

theorem insertPassed_both {link i j : Nat} {p q : RolePlan} {a b : RoleAnswer} {s : State} (hi : lowestFree s.ctl.table = some i)
    (hj : lowestFree (s.ctl.table.set i (some (newEntry link p a.code .reserved s))) = some j) :
    (insertPassed link [(p, a), (q, b)] s).1 = [{ a with slot := some i }, { b with slot := some j }] := by
  rw [insertPassed_cons, insertEntry_bare hi rfl, insertPassed_one (k := j) (by exact hj), hi]

theorem roleLimit_one {t : List (Option CarrierEntry)} {link : Nat} {r : Role} :
    roleLimit t link [r] = true ↔ 2 ≤ roleEntries t link r := by
  simp [roleLimit, Nat.succ_le_iff]

theorem roleLimit_both {t : List (Option CarrierEntry)} {link : Nat} :
    roleLimit t link [.outbound, .inbound] = true ↔ 2 ≤ roleEntries t link .outbound ∨ 2 ≤ roleEntries t link .inbound := by
  simp [roleLimit, Nat.succ_le_iff]

theorem freeSlots_pos {t : List (Option CarrierEntry)} {i : Nat} (h : lowestFree t = some i) : 0 < freeSlots t :=
  List.countP_pos_iff.2 ⟨none, List.mem_of_getElem? (lowestFree_eq_some h), rfl⟩

theorem freeSlots_eq_zero {t : List (Option CarrierEntry)} (h : ∀ x ∈ t, x ≠ none) : freeSlots t = 0 :=
  List.countP_eq_zero.2 fun x hx hn => h x hx (Option.isNone_iff_eq_none.1 hn)

/-- A table with a slot free after the lowest is taken had two. -/
theorem two_le_freeSlots {t : List (Option CarrierEntry)} {i j : Nat} {e : CarrierEntry} (hi : lowestFree t = some i)
    (hj : lowestFree (t.set i (some e)) = some j) : 2 ≤ freeSlots t := by
  have hleft := freeSlots_pos hj
  obtain ⟨hlt, hget⟩ := List.getElem?_eq_some_iff.1 (lowestFree_eq_some hi)
  rw [freeSlots, List.countP_set hlt, hget] at hleft
  simp at hleft
  unfold freeSlots
  omega

/-- Settles O20. -/
theorem insertOfOneRole : Obligations.InsertOfOneRole := by
  refine ⟨?one, ?both, ?engine⟩
  case one =>
    intro s link seq code p rest hq v e answered unchanged
    have horder : outboundFirst (fun p => p.1.role) [(p, code)] = [(p, code)] := by
      cases h : p.role <;> simp [outboundFirst, h]
    have hlimit (h : roleEntries s.ctl.table link p.role < 2) : ¬roleLimit s.ctl.table link [p.role] = true :=
      mt roleLimit_one.1 h.not_ge
    refine ⟨fun h => ?_, fun h hfull => ?_, fun slot h hfree => ⟨fun hv => ?_, fun hv => ?_⟩⟩
    · refine ⟨insertStep s, rfl, ?_⟩
      rw [insertStep_eq hq, insertRequest_wrongState (s := { s with ctl.queue := rest }) horder (roleLimit_one.2 h)]
      exact ⟨rfl, rfl⟩
    · refine ⟨insertStep s, rfl, ?_⟩
      rw [insertStep_eq hq, insertRequest_tableFull (s := { s with ctl.queue := rest }) horder (hlimit h)
        (by exact Nat.lt_one_iff.2 (freeSlots_eq_zero hfull))]
      exact ⟨rfl, rfl⟩
    · refine ⟨insertStep s, rfl, ?_⟩
      rw [insertStep_eq hq, insertRequest_contended (s := { s with ctl.queue := rest }) horder (hlimit h)
        (not_lt.2 (freeSlots_pos hfree)) (checkRoles_fail [] hv)]
      exact ⟨rfl, rfl⟩
    · refine ⟨insertStep s, rfl, ?_⟩
      rw [insertStep_eq hq, insertRequest_ok (s := { s with ctl.queue := rest }) horder (hlimit h)
        (not_lt.2 (freeSlots_pos hfree)) (checkRoles_pass hv rfl), insertPassed_one (s := { s with ctl.queue := rest }) hfree,
        insertRoles_one (s := { s with ctl.queue := rest }) hfree]
      exact ⟨rfl, rfl, rfl, rfl⟩
  case both =>
    intro s link seq co ci p q roles rest hq hp hin hroles check entry v u word answer unchanged limit free
    have horder : outboundFirst (fun p => p.1.role) roles = [(p, co), (q, ci)] := by
      rcases hroles with rfl | rfl <;> simp [outboundFirst, hp, hin]
    have hlimit : roleLimit s.ctl.table link [p.role, q.role] = true ↔ limit := by rw [hp, hin, roleLimit_both]
    have hv : v = insertVerdict s.ctl.rules (tableCarriers s.ctl.table) link p co := by
      simp only [v, check, List.append_nil]
      rfl
    have hstep {a : InsertAnswer} {t : State} (h : insertRequest link seq roles { s with ctl.queue := rest } = (a, t)) :
        insertStep s = answerInsert false a t := by
      rw [insertStep_eq hq, h]
    have refuse {r : ResultCode} {l : List RoleAnswer} (h : insertRequest link seq roles { s with ctl.queue := rest } =
        ({ link := link, seq := seq, result := r, roles := l }, { s with ctl.queue := rest })) : unchanged r l := by
      show Host.Outcome.next (finish s (insertStep s)) = _
      rw [hstep h]
      rfl
    refine ⟨fun h => refuse ?_, fun h hfree => refuse ?_, fun h hfree hno => refuse ?_, fun h hfree hyes hno => refuse ?_,
      fun i j h hyes hyes' hi hj => ?_⟩
    · exact insertRequest_wrongState horder (hlimit.2 h)
    · exact insertRequest_tableFull horder (mt hlimit.1 h) hfree
    · rw [hv] at hno ⊢
      rw [insertRequest_contended (s := { s with ctl.queue := rest }) horder (mt hlimit.1 h) hfree.not_gt (checkRoles_fail _ hno)]
      rfl
    · rw [hv] at hyes
      rw [insertRequest_contended (s := { s with ctl.queue := rest }) horder (mt hlimit.1 h) hfree.not_gt
        (checkRoles_pass hyes (checkRoles_fail _ hno))]
      rfl
    · refine ⟨insertStep s, rfl, ?_⟩
      rw [hv] at hyes ⊢
      rw [hstep (insertRequest_ok (s := { s with ctl.queue := rest }) horder (mt hlimit.1 h) (two_le_freeSlots hi hj).not_gt
        (checkRoles_pass hyes (checkRoles_pass hyes' rfl))), 
        insertPassed_both (s := { s with ctl.queue := rest }) hi (by exact hj),
        insertRoles_both (s := { s with ctl.queue := rest }) hi (by exact hj)]
      refine ⟨?_, rfl, ?_, rfl⟩
      · have hgen : bumpGen (bumpGen s.ctl.carrierGen) = (s.ctl.carrierGen + 2) % 65536 := bumpGen_add _ 1
        have hstay : s.ctl.reserve.filter (fun x => !leavesFor s.ctl.rules (entry q ci) x && !leavesFor s.ctl.rules (entry p co) x) =
            s.ctl.reserve.filter fun x =>
              !(x.code = co || x.code = ci || (x.zone = p.zone && spacingTo s.ctl.rules x.code x.cls (entry p co).carrier < 0)
                || (x.zone = q.zone && spacingTo s.ctl.rules x.code x.cls (entry q ci).carrier < 0)) := by
          refine List.filter_congr fun x _ => ?_
          simp only [leavesFor, entry]
          grind
        rw [← hgen, ← hstay]
        rfl
      · have hboth : (fun x => leavesFor s.ctl.rules (entry q ci) x && !leavesFor s.ctl.rules (entry p co) x) =
            fun x => !leavesFor s.ctl.rules (entry p co) x && leavesFor s.ctl.rules (entry q ci) x :=
          funext fun x => Bool.and_comm ..
        show s.mail.reports ++ (_ :: _ :: (_ ++ goneReports
          (fun x => leavesFor s.ctl.rules (entry q ci) x && !leavesFor s.ctl.rules (entry p co) x) .spacing s)) = _
        rw [hboth]
        simp only [List.append_assoc, List.map_append]
        rfl
  case engine =>
    intro s link seq roles rest hq own
    obtain ⟨T, L, g, R, hu⟩ := insertRequest_frame link seq roles { s with ctl.queue := rest }
    have hown := insertStep_eq (s := own) rfl
    have hs := insertStep_eq hq
    change insertStep own = answerInsert false (insertRequest link seq roles { s with ctl.queue := rest }).1
      (insertRequest link seq roles { s with ctl.queue := rest }).2 at hown
    generalize insertRequest link seq roles { s with ctl.queue := rest } = answered at hu hown hs
    rw [hu] at hown hs
    refine ⟨answered.2, answered.1, ?_, ?_, congrArg (fun t => Host.Outcome.next (finish own t)) ?_,
      congrArg (fun t => Host.Outcome.next (finish s t)) ?_⟩
    · rw [hu]
    · rw [hu]
    · rw [hu]
      exact hown
    · rw [hu]
      exact hs

end Sys2Proof.Machine
end

section
/-! PROOFS. TAKE and APPEND (R35, R36). -/

namespace Sys2Proof.Machine

open scoped List

/-! ### The walks of a TAKE -/

/-- A walk that meets no match ends without a spare, and changes nothing. -/
theorem walkReserve_none {link fuel pos : Nat} {p : RolePlan} {tentative : List Carrier} {s : State}
    (h : ∀ e ∈ s.ctl.reserve.drop pos, spareMatches p e = false) : walkReserve link p tentative fuel pos s = (none, s) := by
  induction fuel generalizing pos with
  | zero => rfl
  | succ fuel ih =>
    cases he : s.ctl.reserve[pos]? with
    | none => exact walkReserve_end he
    | some e =>
      obtain ⟨hpos, hget⟩ := List.getElem?_eq_some_iff.1 he
      rw [List.drop_eq_getElem_cons hpos, hget] at h
      rw [walkReserve_pass_by he (by simp [h e List.mem_cons_self])]
      exact ih fun x hx => h x (List.mem_cons_of_mem _ hx)

/-- A walk does not read the queue of requests. -/
theorem walkReserve_queue (link : Nat) (p : RolePlan) (tentative : List Carrier) (fuel pos : Nat) (q : List CtlReq) (s : State) :
    walkReserve link p tentative fuel pos { s with ctl.queue := q } =
      ((walkReserve link p tentative fuel pos s).1, { (walkReserve link p tentative fuel pos s).2 with ctl.queue := q }) := by
  induction fuel generalizing pos s with
  | zero => rfl
  | succ fuel ih =>
    cases he : s.ctl.reserve[pos]? with
    | none => rw [walkReserve_end he, walkReserve_end (by exact he)]
    | some e =>
      by_cases hm : spareMatches p e = true
      · by_cases hv : (walkVerdict link p tentative s pos e).passes = true
        · rw [walkReserve_take he hm hv, walkReserve_take (s := { s with ctl.queue := q }) he hm hv]
          rfl
        · rw [walkReserve_discard he hm hv, walkReserve_discard (s := { s with ctl.queue := q }) he hm hv]
          exact ih pos (withoutSpare pos e .discard (discardValue (walkVerdict link p tentative s pos e)) s)
      · rw [walkReserve_pass_by he hm, walkReserve_pass_by (by exact he) hm]
        exact ih (pos + 1) s

section
variable {link : Nat} {p : RolePlan} {tentative : List Carrier} {heldSpares : List HeldSpare} {rest : List RolePlan}
  {s u w : State} {h : HeldSpare} {v : Verdict}

theorem takeSpares_none (hw : walkReserve link p tentative (s.ctl.reserve.length + 1) 0 s = (none, u)) :
    takeSpares link tentative heldSpares (p :: rest) s = (.lacking heldSpares, u) := by
  rw [takeSpares, hw]

theorem takeSpares_lacking {l : List HeldSpare}
    (hw : walkReserve link p tentative (s.ctl.reserve.length + 1) 0 s = (some (h, v), u))
    (hrest : takeSpares link (tentative ++ [{ code := h.entry.code, cls := p.cls, zone := p.zone, owner := some (link, p.role) }])
      (h :: heldSpares) rest u = (.lacking l, w)) : takeSpares link tentative heldSpares (p :: rest) s = (.lacking l, w) := by
  rw [takeSpares, hw]
  dsimp only
  rw [hrest]

theorem takeSpares_passed {as : List (RolePlan × RoleAnswer)}
    (hw : walkReserve link p tentative (s.ctl.reserve.length + 1) 0 s = (some (h, v), u))
    (hrest : takeSpares link (tentative ++ [{ code := h.entry.code, cls := p.cls, zone := p.zone, owner := some (link, p.role) }])
      (h :: heldSpares) rest u = (.passed as, w)) :
    takeSpares link tentative heldSpares (p :: rest) s = (.passed ((p, checkedWord p h.entry.code .ok none v) :: as), w) := by
  rw [takeSpares, hw]
  dsimp only
  rw [hrest]
  rfl

end

theorem takeSpares_queue (link : Nat) (tentative : List Carrier) (heldSpares : List HeldSpare) (roles : List RolePlan)
    (q : List CtlReq) (s : State) : takeSpares link tentative heldSpares roles { s with ctl.queue := q } =
      ((takeSpares link tentative heldSpares roles s).1,
        { (takeSpares link tentative heldSpares roles s).2 with ctl.queue := q }) := by
  induction roles generalizing tentative heldSpares s with
  | nil => rfl
  | cons p rest ih =>
    have hwalk := walkReserve_queue link p tentative (s.ctl.reserve.length + 1) 0 q s
    obtain ⟨o, u, hw⟩ : ∃ o u, walkReserve link p tentative (s.ctl.reserve.length + 1) 0 s = (o, u) := ⟨_, _, rfl⟩
    rw [hw] at hwalk
    cases o with
    | none => rw [takeSpares_none hw, takeSpares_none (by exact hwalk)]
    | some x =>
      obtain ⟨h, v⟩ := x
      have hnext := ih (tentative ++ [{ code := h.entry.code, cls := p.cls, zone := p.zone, owner := some (link, p.role) }])
        (h :: heldSpares) u
      obtain ⟨spares, w, ht⟩ : ∃ spares w, takeSpares link
        (tentative ++ [{ code := h.entry.code, cls := p.cls, zone := p.zone, owner := some (link, p.role) }]) (h :: heldSpares)
        rest u = (spares, w) := ⟨_, _, rfl⟩
      rw [ht] at hnext
      cases spares with
      | lacking l => rw [takeSpares_lacking hw ht, takeSpares_lacking (by exact hwalk) hnext]
      | passed as => rw [takeSpares_passed hw ht, takeSpares_passed (by exact hwalk) hnext]

/-! ### The step -/

/-- The answer to a TAKE, given to the link that sent it. -/
def answerTake (link seq : Nat) (r : ResultCode) (as : List RoleAnswer) (s : State) : State :=
  { s with mail.takeAnswers := s.mail.takeAnswers ++ [{ link := link, seq := seq, result := r, roles := as }] }

section
variable {s u : State} {link seq : Nat} {roles l : List RolePlan} {rest : List CtlReq}

theorem exec_take_refused {r : ResultCode} (hq : s.ctl.queue = .take link seq roles :: rest)
    (horder : outboundFirst RolePlan.role roles = l) (hr : takeRefusal link l s = some r) :
    exec .take s = .next (finish s (answerTake link seq r [] { s with ctl.queue := rest })) := by
  have hr' : takeRefusal link l { s with ctl.queue := rest } = some r := hr
  show Host.Outcome.next (finishPath (takePath s) s (takeStep s)) = _
  simp only [takePath, takeStep, takeRequest, hq, horder, hr, hr', finishPath_nil]
  rfl

theorem exec_take_passed {as : List (RolePlan × RoleAnswer)} (hq : s.ctl.queue = .take link seq roles :: rest)
    (horder : outboundFirst RolePlan.role roles = l) (hr : takeRefusal link l s = none)
    (hs : takeSpares link [] [] l s = (.passed as, u)) :
    exec .take s = .next (finish s (answerTake link seq .ok (insertPassed link as { u with ctl.queue := rest }).1
      (insertRoles link as { u with ctl.queue := rest }))) := by
  have hr' : takeRefusal link l { s with ctl.queue := rest } = none := hr
  have hs' := takeSpares_queue link [] [] l rest s
  rw [hs] at hs'
  show Host.Outcome.next (finishPath (takePath s) s (takeStep s)) = _
  simp only [takePath, takeStep, takeRequest, hq, horder, hr, hr', hs, hs', finishPath_nil]
  rfl

theorem exec_take_lacking_nil (hq : s.ctl.queue = .take link seq roles :: rest)
    (horder : outboundFirst RolePlan.role roles = l) (hr : takeRefusal link l s = none)
    (hs : takeSpares link [] [] l s = (.lacking [], u)) :
    exec .take s = .next (finish s (answerTake link seq .noReserve [] { u with ctl.queue := rest })) := by
  have hr' : takeRefusal link l { s with ctl.queue := rest } = none := hr
  have hs' := takeSpares_queue link [] [] l rest s
  rw [hs] at hs'
  show Host.Outcome.next (finishPath (takePath s) s (takeStep s)) = _
  simp only [takePath, takeStep, takeRequest, hq, horder, hr, hr', hs, hs', finishPath_nil]
  rfl

/-- A spare given back was out of the list on the way (R152). -/
theorem exec_take_lacking_one {h : HeldSpare} (hq : s.ctl.queue = .take link seq roles :: rest)
    (horder : outboundFirst RolePlan.role roles = l) (hr : takeRefusal link l s = none)
    (hs : takeSpares link [] [] l s = (.lacking [h], u)) :
    exec .take s = .next (finishPath [u] s (answerTake link seq .noReserve [] (giveBack h { u with ctl.queue := rest }))) := by
  have hr' : takeRefusal link l { s with ctl.queue := rest } = none := hr
  have hs' := takeSpares_queue link [] [] l rest s
  rw [hs] at hs'
  show Host.Outcome.next (finishPath (takePath s) s (takeStep s)) = _
  simp only [takePath, takeStep, takeRequest, hq, horder, hr, hr', hs, hs']
  rfl

end

end Sys2Proof.Machine
end

section
/-! PROOFS. O21: TAKE and APPEND as R35 and R36 state them. -/

namespace Sys2Proof.Machine

open scoped List

/-! ### What a TAKE refuses -/

section
variable {s : State} {link : Nat} {roles : List RolePlan}

/-- A TAKE names a role that would have three entries, in whichever order it names its roles. -/
theorem roleLimit_outboundFirst {t : List (Option CarrierEntry)} :
    roleLimit t link ((outboundFirst RolePlan.role roles).map (·.role)) = true ↔
      ∃ p ∈ roles, 2 < roleEntries t link p.role + (roles.map (·.role)).count p.role := by
  rw [roleLimit_perm ((outboundFirst_perm RolePlan.role roles).map _), roleLimit_iff]
  simp only [List.mem_map, exists_exists_and_eq_and]

theorem takeRefusal_wrongState (h : roleLimit s.ctl.table link (roles.map (·.role)) = true) :
    takeRefusal link roles s = some .wrongState := if_pos h

theorem takeRefusal_tableFull (h : ¬roleLimit s.ctl.table link (roles.map (·.role)) = true)
    (hfree : freeSlots s.ctl.table < roles.length) : takeRefusal link roles s = some .tableFull :=
  (if_neg h).trans (if_pos hfree)

theorem takeRefusal_none (h : ¬roleLimit s.ctl.table link (roles.map (·.role)) = true)
    (hfree : roles.length ≤ freeSlots s.ctl.table) : takeRefusal link roles s = none :=
  (if_neg h).trans (if_neg hfree.not_gt)

end

/-! ### A spare at the head of the list -/

section
variable {link fuel : Nat} {p : RolePlan} {tentative : List Carrier} {s : State} {e : ReserveEntry} {left : List ReserveEntry}

/-- The check of the spare at the head. -/
def headVerdict (link : Nat) (p : RolePlan) (t : List Carrier) (e : ReserveEntry) (left : List ReserveEntry) (s : State) :
    Verdict :=
  verdictOf s.ctl.rules (t ++ reserveCarriers left) e.code p.cls p.zone (some (link, p.role)) (some p.window)

/-- The spare at the head taken for a role, with those behind it. -/
def headSpare (e : ReserveEntry) (left : List ReserveEntry) : HeldSpare := { entry := e, behind := left.map (·.code) }

/-- The state without the spare at the head. -/
def withoutHead (e : ReserveEntry) (left : List ReserveEntry) (ch : ReserveChange) (old : Nat) (s : State) : State :=
  { s with ctl.reserve := left, mail.reports := s.mail.reports ++ [(.controller, reserveReport e.code ch old s)] }

theorem walkReserve_head_take (hl : s.ctl.reserve = e :: left) (hm : spareMatches p e = true)
    (hv : (headVerdict link p (tableCarriers s.ctl.table ++ tentative) e left s).eligibility = .acceptable) :
    walkReserve link p tentative (fuel + 1) 0 s =
      (some (headSpare e left, headVerdict link p (tableCarriers s.ctl.table ++ tentative) e left s),
        withoutHead e left .take 0 s) := by
  have hwalk : walkVerdict link p tentative s 0 e = headVerdict link p (tableCarriers s.ctl.table ++ tentative) e left s := by
    rw [walkVerdict, hl]
    rfl
  rw [walkReserve_take (by rw [hl]; rfl) hm (by rw [hwalk]; exact Verdict.passes_iff.2 hv), hwalk, withoutSpare, hl]
  rfl

/-- A lone match at the head that fails is discarded, and the walk finds none. -/
theorem walkReserve_head_discard (hl : s.ctl.reserve = e :: left) (hm : spareMatches p e = true)
    (hv : (headVerdict link p (tableCarriers s.ctl.table ++ tentative) e left s).eligibility ≠ .acceptable)
    (hleft : ∀ x ∈ left, spareMatches p x = false) :
    walkReserve link p tentative (fuel + 1) 0 s = (none,
      withoutHead e left .discard (discardValue (headVerdict link p (tableCarriers s.ctl.table ++ tentative) e left s)) s) := by
  have hwalk : walkVerdict link p tentative s 0 e = headVerdict link p (tableCarriers s.ctl.table ++ tentative) e left s := by
    rw [walkVerdict, hl]
    rfl
  have hgone (old : Nat) : withoutSpare 0 e .discard old s = withoutHead e left .discard old s := by
    rw [withoutSpare, hl]
    rfl
  rw [walkReserve_discard (by rw [hl]; rfl) hm (by rw [hwalk]; exact mt Verdict.passes_iff.1 hv), hwalk, hgone]
  exact walkReserve_none hleft

/-- The first of the list as it stands goes back to its place. -/
theorem giveBack_head (hl : s.ctl.reserve = left) : giveBack (headSpare e left) s = { s with
    ctl.reserve := e :: left, mail.reports := s.mail.reports ++ [(.controller, reserveReport e.code .giveBack 0 s)] } := by
  have hfirst : (left.findIdx? fun x => (headSpare e left).behind.contains x.code).getD left.length = 0 := by
    cases left with
    | nil => rfl
    | cons x l => simp [headSpare, List.findIdx?_cons]
  unfold giveBack
  dsimp only
  rw [hl, hfirst]
  rfl

end

/-! ### One odd interval of each position (R152) -/

theorem getD_bumpAll {wrap n k : Nat} {differs : Nat → Bool} {l : List Nat} (hk : k < n) :
    (bumpAll wrap n differs l).getD k 0 = bump wrap (differs k) (l.getD k 0) := by
  simp [bumpAll, hk]

/-- A position that changes on the way counts one odd interval, though it may be again what it was. -/
theorem count_of_moved {path : List State} {a b x : State} {k : Nat} (hk : k < Config.reservePlaces) (hx : x ∈ path ++ [b])
    (h : a.ctl.reserve[k]? ≠ x.ctl.reserve[k]?) :
    (finishPath path a b).counts.reserve.getD k 0 = (a.counts.reserve.getD k 0 + 2) % 256 := by
  have hchanges : changesOnPath path a b (.reserve k) = true := (changesOnPath_iff ..).2 ⟨x, hx, decide_eq_true h⟩
  rw [finishPath_counts, bumpCounts, getD_bumpAll hk, hchanges]
  rfl

theorem count_of_unmoved {path : List State} {a b : State} {k : Nat} (hk : k < Config.reservePlaces)
    (h : ∀ x ∈ path ++ [b], a.ctl.reserve[k]? = x.ctl.reserve[k]?) :
    (finishPath path a b).counts.reserve.getD k 0 = a.counts.reserve.getD k 0 := by
  have hsame : changesOnPath path a b (.reserve k) = false := by
    refine Bool.eq_false_iff.2 (mt (changesOnPath_iff ..).1 ?_)
    rintro ⟨x, hx, hdiffers⟩
    exact of_decide_eq_true hdiffers (h x hx)
  rw [finishPath_counts, bumpCounts, getD_bumpAll hk, hsame]
  rfl

/-- Without a code twice in the list, the removal of its head moves every spare. -/
theorem getElem?_tail_ne {e : ReserveEntry} {left : List ReserveEntry} {k : Nat} (hn : ((e :: left).map (·.code)).Nodup)
    (hk : k < (e :: left).length) : (e :: left)[k]? ≠ left[k]? := by
  intro h
  rw [← List.getElem?_cons_succ (a := e) (l := left), List.getElem?_eq_getElem hk] at h
  obtain ⟨hk', heq⟩ := List.getElem?_eq_some_iff.1 h.symm
  have hsame : ((e :: left).map (·.code))[k + 1]'(by simpa using hk') = ((e :: left).map (·.code))[k]'(by simpa using hk) := by
    rw [List.getElem_map, List.getElem_map, heq]
  have := (List.Nodup.getElem_inj_iff hn).1 hsame
  omega

/-! ### APPEND -/

/-- Settles O21. -/
theorem takeAndAppend : Obligations.TakeAndAppend := by
  refine ⟨?refused, ?walk, ?one, ?both, ?append⟩
  case refused =>
    intro s link seq roles rest hq unchanged three
    refine ⟨fun h => ?_, fun h hfree => ?_⟩
    · exact exec_take_refused hq rfl (takeRefusal_wrongState (roleLimit_outboundFirst.2 h))
    · refine exec_take_refused hq rfl (takeRefusal_tableFull (mt roleLimit_outboundFirst.1 h) ?_)
      rwa [(outboundFirst_perm RolePlan.role roles).length_eq]
  case walk =>
    intro s link fuel pos p tentative go
    refine ⟨walkReserve_end, fun e he => ?_⟩
    intro fits left v without
    refine ⟨fun h => ?_, fun h hv => ?_, fun h hv => ?_⟩
    · exact walkReserve_pass_by he (mt spareMatches_iff.1 h)
    · exact walkReserve_discard he (spareMatches_iff.2 h) (mt Verdict.passes_iff.1 hv)
    · exact walkReserve_take he (spareMatches_iff.2 h) (Verdict.passes_iff.2 hv)
  case one =>
    intro s link seq slot p rest hq hentries hfree
    have horder : outboundFirst RolePlan.role [p] = [p] := by cases h : p.role <;> simp [outboundFirst, h]
    have hr : takeRefusal link [p] s = none := takeRefusal_none (mt roleLimit_one.1 hentries.not_ge) (freeSlots_pos hfree)
    refine ⟨fun h => ?_, fun e left hl hm hleft => ?_, fun e left hl hcls hzone hlo hhi hgrid hv => ?_⟩
    · have hnone := walkReserve_none (link := link) (fuel := s.ctl.reserve.length + 1) (pos := 0) (tentative := []) (s := s)
        fun e he => Bool.eq_false_iff.2 (mt spareMatches_iff.1 (h e he))
      exact exec_take_lacking_nil hq horder hr (takeSpares_none hnone)
    · intro v hv
      have hwalk := walkReserve_head_discard (fuel := s.ctl.reserve.length) (tentative := []) hl hm
        (by rw [List.append_nil]; exact hv) hleft
      rw [exec_take_lacking_nil hq horder hr (takeSpares_none hwalk), List.append_nil]
      rfl
    · have hwalk := walkReserve_head_take (fuel := s.ctl.reserve.length) (tentative := []) (link := link) hl
        (spareMatches_iff.2 ⟨hcls, hzone, hlo, hhi, hgrid⟩) (by rw [List.append_nil]; exact hv)
      have hexec := exec_take_passed hq horder hr (takeSpares_passed hwalk rfl)
      rw [insertPassed_one (by exact hfree), insertRoles_one (by exact hfree)] at hexec
      refine ⟨_, _, hexec, rfl, rfl, ?_, List.filter_sublist, rfl, rfl, rfl, rfl, rfl, rfl⟩
      intro he
      have hstay := (List.mem_filter.1 he).2
      simp [leavesFor, newEntry, checkedWord, headSpare] at hstay
  case both =>
    intro s link seq i p q e left rest hq hp hin hout2 hin2 hfree hi hl hm hv entry
    have horder : outboundFirst RolePlan.role [p, q] = [p, q] := by simp [outboundFirst, hp, hin]
    have hr : takeRefusal link [p, q] s = none := by
      refine takeRefusal_none (mt (fun h => ?_) (not_or.2 ⟨hout2.not_ge, hin2.not_ge⟩)) hfree
      rw [List.map_cons, List.map_cons, List.map_nil, hp, hin] at h
      exact roleLimit_both.1 h
    have hwalk := walkReserve_head_take (fuel := s.ctl.reserve.length) (tentative := []) (link := link) hl hm
      (by rw [List.append_nil]; exact hv)
    refine ⟨fun hnone hnodup hlen => ?_, fun j f after hleft hmatch hj hv' => ?_⟩
    · have hnone' := walkReserve_none (link := link) (fuel := left.length + 1) (pos := 0)
        (tentative := [(entry p e.code).carrier]) (s := withoutHead e left .take 0 s) hnone
      have hexec := exec_take_lacking_one hq horder hr (takeSpares_lacking hwalk (takeSpares_none hnone'))
      have hback : giveBack (headSpare e left) { withoutHead e left .take 0 s with ctl.queue := rest } = { s with
          ctl.queue := rest
          mail.reports := s.mail.reports ++
            [(.controller, reserveReport e.code .take 0 s), (.controller, reserveReport e.code .giveBack 0 s)] } := by
        rw [giveBack_head (left := left) rfl, ← hl, withoutHead]
        simp only [List.append_assoc]
        rfl
      rw [hback] at hexec
      refine ⟨_, hexec, rfl, fun k hk => ?_, fun k hk hk' => ?_⟩
      · refine count_of_moved (hk.trans_le hlen) (List.mem_cons_self (a := withoutHead e left .take 0 s)) ?_
        rw [hl] at hnodup hk ⊢
        exact getElem?_tail_ne hnodup hk
      · refine count_of_unmoved hk' fun x hx => ?_
        rw [List.getElem?_eq_none hk]
        rcases List.mem_cons.1 hx with rfl | hx
        · rw [hl, List.length_cons] at hk
          exact (List.getElem?_eq_none ((Nat.le_succ _).trans hk)).symm
        · rw [List.mem_singleton.1 hx]
          exact (List.getElem?_eq_none hk).symm
    · have hwalk' := walkReserve_head_take (fuel := left.length) (tentative := [(entry p e.code).carrier]) (link := link)
        (s := withoutHead e left .take 0 s) hleft hmatch hv'
      have hexec := exec_take_passed hq horder hr (takeSpares_passed hwalk (takeSpares_passed hwalk' rfl))
      rw [insertPassed_both (by exact hi) (by exact hj), insertRoles_both (by exact hi) (by exact hj)] at hexec
      refine ⟨_, _, hexec, rfl, bumpGen_add _ 1, List.filter_sublist, rfl, rfl, rfl, rfl, ?_⟩
      rw [← hp, ← hin]
      rfl
  case append =>
    intro s code cls zone rest hq used v refused
    have hstep {r : ResultCode} {w : Option Verdict} {t : State}
        (h : appendRequest code cls zone { s with ctl.queue := rest } = (r, w, t)) :
        exec .append s = .next (finish s { t with mail.engineAnswers := t.mail.engineAnswers ++ [.appended r w] }) := by
      show Host.Outcome.next (finish s (appendStep s)) = _
      rw [appendStep, hq]
      dsimp only
      rw [h]
    have refuse {r : ResultCode} {w : Option Verdict}
        (h : appendRequest code cls zone { s with ctl.queue := rest } = (r, w, { s with ctl.queue := rest })) : refused r w :=
      hstep h
    have hused : codeUsed s.ctl code = true ↔ used := codeUsed_iff
    refine ⟨fun h => refuse ?_, fun h hu => refuse ?_, fun h hu hv => refuse ?_, fun h hu hv => ?_⟩
    · exact if_pos h
    · exact (if_neg (not_le.2 h)).trans (if_pos (hused.2 hu))
    · exact (if_neg (not_le.2 h)).trans ((if_neg (mt hused.1 hu)).trans (if_neg (mt Verdict.passes_iff.1 hv)))
    · exact hstep ((if_neg (not_le.2 h)).trans ((if_neg (mt hused.1 hu)).trans (if_pos (Verdict.passes_iff.2 hv))))

end Sys2Proof.Machine
end

section
/-! PROOFS. PARK_LINK: what a completion, an abandoned link and a PURGE change (R33, R62, R75). -/

namespace Sys2Proof.Machine

/-! ### Results of link orders (R62) -/

theorem openBytes_length (c n : Nat) : (openBytes c n).length = n := by
  induction n generalizing c with
  | zero => rfl
  | succ n ih => rw [openBytes, List.length_cons, ih]

theorem roleBlock_length (c : Nat) (a : Option RoleAnswer) : (roleBlock c a).length = 12 := by
  unfold roleBlock
  split
  · exact openBytes_length c 12
  · split
    · exact openBytes_length c 12
    · simp [leBytes_length, leBytesInt]

theorem sequenceResults_fit (c : Nat) (l : Link) (n : Nat) : ∀ y ∈ sequenceResults c l n, y.1 + y.2.length ≤ 64 := by
  unfold sequenceResults
  rw [List.forall_mem_append, List.forall_mem_append]
  refine ⟨⟨by simp [leBytes_length], ?_⟩, ?_⟩
  · split <;> simp [roleBlock_length]
  · split <;> simp [roleBlock_length]

theorem parkResults_fit (c : Nat) (l : Link) : ∀ y ∈ parkResults c l, y.1 + y.2.length ≤ 64 := by
  intro y hy
  simp only [parkResults, List.mem_cons, List.not_mem_nil, or_false] at hy
  rcases hy with rfl | rfl | rfl
  · simp [leBytes_length]
  · simp [leBytes_length]
  · dsimp only
    split <;> simp [leBytes_length, openBytes_length]

/-! ### The order in service completes -/

/-- A link whose order has completed. -/
def Link.unordered (l : Link) : Link := { vis := { l.vis with orderCell := none }, aux := { l.aux with order := none } }

/-- The results of a link's order. -/
def linkResults (o : LinkOrder) (l : Link) (s : State) : Results :=
  if o.kind = .park then parkResults s.openCount l else sequenceResults s.openCount l (l.endHold s).aux.framesHeld

theorem linkResults_fit (o : LinkOrder) (l : Link) (s : State) : ∀ y ∈ linkResults o l s, y.1 + y.2.length ≤ 64 := by
  unfold linkResults
  split
  · exact parkResults_fit s.openCount l
  · exact sequenceResults_fit s.openCount l (l.endHold s).aux.framesHeld

/-- The order completes as every order does, and then the link has none. -/
theorem completeLinkOrder_eq {i : Nat} {l : Link} {o : LinkOrder} (k : ResultCode) {s : State} (ho : l.aux.order = some o) :
    completeLinkOrder i l k s = modLink i Link.unordered { doneOrder .supervisor o.tag (linkResults o l s) k (some i) s with
      openCount := (doneOrder .supervisor o.tag (linkResults o l s) k (some i) s).openCount + 24 } := by
  unfold completeLinkOrder
  rw [ho]
  rfl

/-- The completion of a link's order changes its cell, its link, and what both bring. -/
theorem completeLinkOrder_change {i : Nat} {l : Link} {o : LinkOrder} (k : ResultCode) {s : State} (ho : l.aux.order = some o)
    (hm : Memory.wf s.mem) : ∃ m sv j rs vt vr oc, completeLinkOrder i l k s = { s with
      mem := m, disp := { s.disp with service := sv }, sup := { s.sup with links := put s.sup.links i (s.link i).unordered }, jw := j
      mail := { s.mail with reports := rs, linkToTally := vt, linkToRouter := vr }, openCount := oc } ∧
    Memory.wf m ∧ CellShows m o.tag.cell 4 k.toNat (i % 65536) := by
  obtain ⟨hshows, -⟩ :=
    completeOrder_ends .supervisor o.tag (linkResults o l s) k (some i) stDone hm (by decide) (linkResults_fit o l s)
  have hwf := completeOrder_wf (o := .supervisor) (g := o.tag) (res := linkResults o l s) (k := k) (x := some i) (st := stDone) hm
  rw [completeLinkOrder_eq k ho]
  have hframe := doneOrder_frame .supervisor o.tag (linkResults o l s) k (some i) s
  obtain ⟨m, sv, rs, hdone, hm'⟩ : ∃ m sv rs, doneOrder .supervisor o.tag (linkResults o l s) k (some i) s = { s with
    mem := m, disp := { s.disp with service := sv }, mail := { s.mail with reports := rs } } ∧
      m = (doneOrder .supervisor o.tag (linkResults o l s) k (some i) s).mem := ⟨_, _, _, hframe, rfl⟩
  rw [hdone]
  obtain ⟨j, rs', vt, vr, hlink, -⟩ := modLink_change i Link.unordered
    { s with mem := m, disp := { s.disp with service := sv }, mail := { s.mail with reports := rs }, openCount := s.openCount + 24 }
  exact ⟨m, sv, j, rs', vt, vr, s.openCount + 24, hlink, hm' ▸ hwf, hm' ▸ hshows⟩

/-! ### A PURGE is sent -/

theorem foldl_dropHeld (l : List CtlReq) (s : State) : ∃ a, l.foldl dropHeld s = { s with mail.engineAnswers := a } := by
  induction l generalizing s with
  | nil => exact ⟨s.mail.engineAnswers, rfl⟩
  | cons r l ih =>
    obtain ⟨a, ha⟩ : ∃ a, dropHeld s r = { s with mail.engineAnswers := a } := by
      unfold dropHeld
      split
      · exact ⟨_, rfl⟩
      · exact ⟨s.mail.engineAnswers, rfl⟩
    obtain ⟨b, hb⟩ := ih (dropHeld s r)
    exact ⟨b, by rw [List.foldl_cons, hb, ha]⟩

theorem foldl_answerCancelled (l : List CtlReq) (s : State) : ∃ a b c d, l.foldl (fun s r => answerCancelled r s) s =
    { s with mail := { s.mail with engineAnswers := a, insertAnswers := b, takeAnswers := c, learnAnswers := d } } := by
  induction l generalizing s with
  | nil => exact ⟨_, _, _, _, rfl⟩
  | cons r l ih =>
    obtain ⟨a, b, c, d, h⟩ : ∃ a b c d, answerCancelled r s =
        { s with mail := { s.mail with engineAnswers := a, insertAnswers := b, takeAnswers := c, learnAnswers := d } } := by
      unfold answerCancelled
      split
      · next byEngine _ _ _ => cases byEngine <;> exact ⟨_, _, _, _, rfl⟩
      · exact ⟨_, _, _, _, rfl⟩
      · exact ⟨_, _, _, _, rfl⟩
      · exact ⟨_, _, _, _, rfl⟩
    obtain ⟨a', b', c', d', h'⟩ := ih (answerCancelled r s)
    exact ⟨a', b', c', d', by rw [List.foldl_cons, h', h]⟩

/-- The links with the notes on one of them changed. -/
def auxAt (i : Nat) (f : LinkAux → LinkAux) (l : List Link) : List Link :=
  put l i { l.getD i Link.reset with aux := f (l.getD i Link.reset).aux }

theorem modAux_eq (i : Nat) (f : LinkAux → LinkAux) (s : State) :
    modAux i f s = { s with sup.links := auxAt i f s.sup.links } := rfl

theorem auxAt_auxAt (i : Nat) (f g : LinkAux → LinkAux) (l : List Link) : auxAt i g (auxAt i f l) = auxAt i (g ∘ f) l := by
  unfold auxAt
  by_cases h : i < l.length
  · rw [put_getD, if_pos ⟨rfl, h⟩]
    exact List.set_set ..
  · have hsame (v : Link) : put l i v = l := List.set_eq_of_length_le (not_lt.1 h)
    simp only [hsame]

theorem auxAt_id (i : Nat) (l : List Link) : auxAt i (fun a => a) l = l := by
  unfold auxAt put
  by_cases h : i < l.length
  · rw [List.getD_eq_getElem _ _ h]
    exact List.set_getElem_self h
  · exact List.set_eq_of_length_le (not_lt.1 h)

/-- What a PURGE leaves of the supervisor's notes on a link: whether it took a request out, and whether it went into the queue. -/
def purgedAux (withdrawn sent : Bool) (a : LinkAux) : LinkAux :=
  { a with
    held := [], killWait := [], killChanges := [], afterKill := []
    outstanding := if withdrawn then false else a.outstanding, purges := a.purges + if sent then 1 else 0 }

/-- A PURGE takes the link's requests out of the queue, and stands in it once. -/
theorem sendPurge_eq (i : Nat) (s : State) : ∃ withdrawn a b c d, sendPurge i s = { s with
    sup.links := auxAt i (purgedAux withdrawn (decide (.purge i ∉ s.ctl.queue))) s.sup.links
    ctl.queue := (s.ctl.queue.filter fun r => !r.purgedWith i) ++ if .purge i ∈ s.ctl.queue then [] else [.purge i]
    mail := { s.mail with engineAnswers := a, insertAnswers := b, takeAnswers := c, learnAnswers := d } } := by
  obtain ⟨a, hheld⟩ := foldl_dropHeld ((s.link i).aux.held ++ (s.link i).aux.afterKill) s
  have hwaits : (s.ctl.queue.filter fun r => !r.purgedWith i).contains (.purge i) = true ↔ .purge i ∈ s.ctl.queue := by
    simp [CtlReq.purgedWith]
  have hwithdrawn (u : State) : ∃ w : Bool, (if s.ctl.queue.filter (CtlReq.purgedWith i) = [] then u
      else modAux i (fun a => { a with outstanding := false }) u) =
        { u with sup.links := auxAt i (fun a => { a with outstanding := if w then false else a.outstanding }) u.sup.links } := by
    by_cases h : s.ctl.queue.filter (CtlReq.purgedWith i) = []
    · refine ⟨false, ?_⟩
      rw [if_pos h]
      exact congrArg (fun L => { u with sup.links := L }) (auxAt_id i u.sup.links).symm
    · exact ⟨true, if_neg h⟩
  unfold sendPurge
  dsimp only
  rw [hheld, modAux_eq]
  dsimp only
  obtain ⟨w, hw⟩ := hwithdrawn _
  rw [hw]
  dsimp only
  obtain ⟨a', b, c, d, hanswered⟩ := foldl_answerCancelled (s.ctl.queue.filter (CtlReq.purgedWith i)) _
  rw [hanswered]
  dsimp only
  rw [modAux_eq, pushRequest, auxAt_auxAt]
  by_cases hp : .purge i ∈ s.ctl.queue
  · rw [if_pos (hwaits.2 hp), if_pos hp, decide_eq_false (not_not.2 hp), List.append_nil]
    exact ⟨w, a', b, c, d, rfl⟩
  · rw [if_neg (mt hwaits.1 hp), if_neg hp, decide_eq_true hp, auxAt_auxAt]
    exact ⟨w, a', b, c, d, rfl⟩

end Sys2Proof.Machine
end

section
/-! PROOFS. O35: PARK_LINK refused, at once, or everything abandoned (R33, R75). -/

namespace Sys2Proof.Machine

/-! ### The parked link -/

/-- A role without health, its counts at 0. -/
theorem settle_none (s : State) (r : Role) (l : Link) : ∃ x a b, l.settle s r none =
    { vis := l.vis.setRole r x, aux := { l.aux with outDegradedAt := a, inDegradedAt := b } } ∧ x.health = none := by
  unfold Link.settle Link.setHealth Link.setCounts
  by_cases h : (l.vis.role r).health = none
  · dsimp only
    rw [if_pos h]
    cases r <;> exact ⟨_, _, _, rfl, h⟩
  · dsimp only
    rw [if_neg h]
    cases r <;> exact ⟨_, _, _, rfl, rfl⟩

/-- The link that a PARK leaves: abandoned, PARKED, and with the PARK in service. -/
def parkedLink (o : LinkOrder) (left : LinkState) (hasOut : Bool) (s : State) (l : Link) : Link :=
  let l := l.abandon.park s
  { vis := { l.vis with orderCell := some o.tag.cell }
    aux := { l.aux with
      order := some o, attempts := 0, framesHeld := 0, parkLeft := left, parkRemoved := 0, parkSeq := l.aux.seq
      parkMute := if hasOut then .waiting else .notNeeded } }

/-- Nothing of a sequence, a hold, a block, a code or a health is left of a parked record (R75). -/
structure LinkRec.Cleared (l : LinkRec) : Prop where
  state : l.state = .parked
  seqKind : l.seqKind = .noSequence
  phase : l.phase = .noPhase
  hold : l.hold = none
  outPresent : l.outRec.present = none
  inPresent : l.inRec.present = none
  outHealth : l.outRec.health = none
  inHealth : l.inRec.health = none
  block : l.block = .clear

theorem parkedLink_cleared (o : LinkOrder) (left : LinkState) (hasOut : Bool) (s : State) (l : Link) :
    (parkedLink o left hasOut s l).vis.Cleared := by
  obtain ⟨x, a, b, hout, hx⟩ := settle_none s .outbound l.abandon
  obtain ⟨y, a', b', hin, hy⟩ := settle_none s .inbound (l.abandon.settle s .outbound none)
  unfold parkedLink Link.park
  rw [hin, hout]
  exact ⟨rfl, rfl, rfl, rfl, rfl, rfl, hx, hy, rfl⟩

/-- What the controller's answers need of a link that parks. -/
theorem parkedLink_aux (o : LinkOrder) (left : LinkState) (hasOut : Bool) (s : State) (l : Link) :
    (parkedLink o left hasOut s l).aux.parkSeq = (parkedLink o left hasOut s l).aux.seq ∧
      (parkedLink o left hasOut s l).aux.purges = l.aux.purges := by
  obtain ⟨x, a, b, hout, -⟩ := settle_none s .outbound l.abandon
  obtain ⟨y, a', b', hin, -⟩ := settle_none s .inbound (l.abandon.settle s .outbound none)
  unfold parkedLink Link.park
  rw [hin, hout]
  exact ⟨rfl, rfl⟩

/-! ### What is abandoned -/

theorem cancelPlanning_eq (i : Nat) (s : State) : cancelPlanning i s = { s with
    mail.cancels := s.mail.cancels ++ if (s.link i).aux.planOut then [(i, (s.link i).aux.seq)] else [] } := by
  unfold cancelPlanning
  dsimp only
  split
  · rfl
  · rw [List.append_nil]

/-- The order in service completes CANCELLED, the planning request is cancelled and the CONTROL request withdrawn. -/
def abandonWork (i : Nat) (s : State) : State :=
  withdrawControl i (cancelPlanning i (completeLinkOrder i (s.link i) .cancelled s))

/-- What has been abandoned: the cell of an earlier order shows CANCELLED, and no other link has changed. -/
theorem abandonWork_change {i : Nat} {s : State} (hm : Memory.wf s.mem) (hi : i < s.sup.links.length) :
    ∃ m sv L j rs vt vr oc, abandonWork i s = { s with
        mem := m, disp := { s.disp with service := sv }, sup := { s.sup with links := put s.sup.links i L }
        ul.controlQ := s.ul.controlQ.filter fun x => x.link ≠ i, jw := j
        mail := { s.mail with
          reports := rs, linkToTally := vt, linkToRouter := vr
          cancels := s.mail.cancels ++ if (s.link i).aux.planOut then [(i, (s.link i).aux.seq)] else [] }
        openCount := oc } ∧
      Memory.wf m ∧ L.aux.purges = (s.link i).aux.purges ∧
      ∀ p, (s.link i).aux.order = some p → CellShows m p.tag.cell 4 ResultCode.cancelled.toNat (i % 65536) := by
  unfold abandonWork withdrawControl
  cases ho : (s.link i).aux.order with
  | none =>
    have hnone : completeLinkOrder i (s.link i) .cancelled s = s := by
      unfold completeLinkOrder
      rw [ho]
    have hput : put s.sup.links i (s.link i) = s.sup.links := by
      rw [State.link, List.getD_eq_getElem _ _ hi]
      exact List.set_getElem_self hi
    refine ⟨s.mem, s.disp.service, s.link i, s.jw, s.mail.reports, s.mail.linkToTally, s.mail.linkToRouter, s.openCount, ?_, hm,
      rfl, nofun⟩
    rw [hnone, cancelPlanning_eq, hput]
  | some p =>
    obtain ⟨m, sv, j, rs, vt, vr, oc, hdone, hwf, hshows⟩ := completeLinkOrder_change (i := i) .cancelled ho hm
    refine ⟨m, sv, (s.link i).unordered, j, rs, vt, vr, oc, ?_, hwf, rfl, ?_⟩
    · have hlink : (put s.sup.links i (s.link i).unordered).getD i Link.reset = (s.link i).unordered := by
        rw [put_getD, if_pos ⟨rfl, hi⟩]
      rw [hdone, cancelPlanning_eq]
      unfold State.link at hlink ⊢
      dsimp only
      rw [hlink]
      rfl
    · intro p' hp
      obtain rfl := Option.some.inj hp
      exact hshows

/-- The work of a PARK: the parked link, the cell WORKING, and the MUTE of the declared roles. -/
def parkWork (o : LinkOrder) (left : LinkState) (hasOut : Bool) (s : State) : State :=
  let s := beginWork o.tag (modLink o.link (parkedLink o left hasOut s) s)
  if hasOut then queueDeclared o.link .mute s else s

/-- A link without a waiting CONTROL request has its own last in the queue. -/
theorem placeControl_eq {r : ControlReq} {s : State} (h : ∀ x ∈ s.ul.controlQ, x.link ≠ r.link) :
    placeControl r s = { s with ul.controlQ := s.ul.controlQ ++ [r] } := by
  have hnone : ¬s.ul.controlQ.any (fun x => x.link = r.link) = true := by simpa using h
  unfold placeControl placeBy
  rw [if_neg hnone]

theorem parkWork_change {o : LinkOrder} {d : LinkDef} {s : State} (left : LinkState) (hi : o.link < s.sup.links.length)
    (hd : s.linkDef o.link = some d) (hnone : ∀ x ∈ s.ul.controlQ, x.link ≠ o.link) :
    ∃ u j rs vt vr, u.link o.link = parkedLink o left d.outRole.isSome s (s.link o.link) ∧
      parkWork o left d.outRole.isSome s = { s with
        mem := Memory.write s.mem (cellBase o.tag.cell) 3
        sup := { s.sup with links := put s.sup.links o.link (parkedLink o left d.outRole.isSome s (s.link o.link)) }
        ul.controlQ := s.ul.controlQ ++ if d.outRole.isSome then [controlReq u o.link d .mute true d.inRole.isSome] else []
        jw := j, mail := { s.mail with reports := rs, linkToTally := vt, linkToRouter := vr } } := by
  obtain ⟨j, rs, vt, vr, hlink, -⟩ := modLink_change o.link (parkedLink o left d.outRole.isSome s) s
  have hparked : (beginWork o.tag (modLink o.link (parkedLink o left d.outRole.isSome s) s)).link o.link =
      parkedLink o left d.outRole.isSome s (s.link o.link) := by
    rw [beginWork_link, link_modLink, if_pos ⟨rfl, hi⟩]
  have hdef : (beginWork o.tag (modLink o.link (parkedLink o left d.outRole.isSome s) s)).linkDef o.link = some d := by
    rw [beginWork_linkDef, hlink]
    exact hd
  refine ⟨_, j, rs, vt, vr, hparked, ?_⟩
  unfold parkWork
  dsimp only
  cases hout : d.outRole.isSome with
  | false =>
    rw [if_neg (by decide), if_neg (by decide), List.append_nil, ← hout, hlink]
    rfl
  | true =>
    rw [if_pos rfl, if_pos rfl, ← hout, queueDeclared, hdef]
    dsimp only
    rw [queueControl, hdef]
    dsimp only
    rw [placeControl_eq (by rw [hlink]; exact hnone), hout]
    generalize controlReq _ o.link d .mute true d.inRole.isSome = r
    rw [← hout, hlink]
    rfl

theorem beginPark_eq {o : LinkOrder} {d : LinkDef} {s : State} (hm : Memory.wf s.mem) (hi : o.link < s.sup.links.length)
    (hd : s.linkDef o.link = some d) : beginPark o s =
      sendPurge o.link (parkWork o (s.linkRec o.link).state d.outRole.isSome (abandonWork o.link s)) := by
  obtain ⟨m, sv, L, j, rs, vt, vr, oc, hwork, -⟩ := abandonWork_change hm hi
  have hdef : (abandonWork o.link s).linkDef o.link = some d := by
    rw [hwork]
    exact hd
  have hdef' : ((abandonWork o.link s).linkDef o.link).any (fun d => d.outRole.isSome) = d.outRole.isSome := by rw [hdef]; rfl
  unfold parkWork
  rw [← hdef']
  rfl

theorem auxAt_put {i : Nat} {f : LinkAux → LinkAux} {l : List Link} (P : Link) (hi : i < l.length) :
    auxAt i f (put l i P) = put l i { P with aux := f P.aux } := by
  unfold auxAt
  rw [put_getD, if_pos ⟨rfl, hi⟩]
  exact List.set_set ..

/-- The PURGE of a link that parks, counted by the link unless it waits already. -/
def parkPurge (o : LinkOrder) (s : State) : List CtlReq := if .purge o.link ∈ s.ctl.queue then [] else [.purge o.link]

theorem mem_parkPurge {o : LinkOrder} {s : State} {r : CtlReq} (h : r ∈ parkPurge o s) : r = .purge o.link := by
  unfold parkPurge at h
  split at h
  · cases h
  · exact List.mem_singleton.1 h

/-- All that a PARK with something to undo changes: the cells, its link, the CONTROL and controller queues, and what these bring. -/
theorem beginPark_change {o : LinkOrder} {d : LinkDef} {s : State} (hm : Memory.wf s.mem) (hi : o.link < s.sup.links.length)
    (hd : s.linkDef o.link = some d) :
    ∃ (m : List Host.Cell) (sv : List Nat) (u v : State) (L : Link) (j : Journal) (M : Mail) (oc : Nat) (w : Bool),
      beginPark o s = { s with
        mem := Memory.write m (cellBase o.tag.cell) 3, disp := { s.disp with service := sv }
        sup := { s.sup with links := put s.sup.links o.link { u.link o.link with
          aux := purgedAux w (decide (.purge o.link ∉ s.ctl.queue)) (u.link o.link).aux } }
        ul.controlQ := (s.ul.controlQ.filter fun x => x.link ≠ o.link) ++
          if d.outRole.isSome then [controlReq u o.link d .mute true d.inRole.isSome] else []
        ctl.queue := (s.ctl.queue.filter fun r => !r.purgedWith o.link) ++ parkPurge o s
        jw := j, mail := M, openCount := oc } ∧
      u.link o.link = parkedLink o (s.linkRec o.link).state d.outRole.isSome v L ∧ L.aux.purges = (s.link o.link).aux.purges ∧
      ((s.link o.link).aux.planOut = true → (o.link, (s.link o.link).aux.seq) ∈ M.cancels) ∧ Memory.wf m ∧
      ∀ p, (s.link o.link).aux.order = some p → CellShows m p.tag.cell 4 ResultCode.cancelled.toNat (o.link % 65536) := by
  obtain ⟨m, sv, L, j, rs, vt, vr, oc, hwork, hwf, hpurges, hshows⟩ := abandonWork_change (i := o.link) hm hi
  obtain ⟨v, hv⟩ : ∃ v, abandonWork o.link s = v := ⟨_, rfl⟩
  have hlen : o.link < v.sup.links.length := by
    rw [← hv, hwork]
    exact hi.trans_eq (List.length_set ..).symm
  have hlink : v.link o.link = L := by
    rw [← hv, hwork]
    show (put s.sup.links o.link L).getD o.link Link.reset = L
    rw [put_getD, if_pos ⟨rfl, hi⟩]
  have hnone : ∀ x ∈ v.ul.controlQ, x.link ≠ o.link := by
    rw [← hv, hwork]
    exact fun x hx => of_decide_eq_true (List.mem_filter.1 hx).2
  have hdef : v.linkDef o.link = some d := by
    rw [← hv, hwork]
    exact hd
  obtain ⟨u, j', rs', vt', vr', hu, hpark⟩ := parkWork_change (s.linkRec o.link).state hlen hdef hnone
  obtain ⟨w, a, b, c, e, hpurge⟩ := sendPurge_eq o.link (parkWork o (s.linkRec o.link).state d.outRole.isSome v)
  rw [hlink] at hu hpark
  refine ⟨m, sv, u, v, L, j', { s.mail with
      cancels := s.mail.cancels ++ if (s.link o.link).aux.planOut then [(o.link, (s.link o.link).aux.seq)] else []
      reports := rs', linkToTally := vt', linkToRouter := vr', engineAnswers := a, insertAnswers := b, takeAnswers := c
      learnAnswers := e }, oc, w, ?_, hu, hpurges, fun h => ?_, hwf, hshows⟩
  · rw [beginPark_eq hm hi hd, hv, hpurge, hpark, ← hu]
    dsimp only
    rw [auxAt_put _ hlen, ← hv, hwork]
    simp only [put, List.set_set]
    rfl
  · rw [if_pos h]
    exact List.mem_append_right _ List.mem_cons_self

/-! ### The step -/

section
variable {s : State} {o : LinkOrder} {rest : List LinkOrder}

theorem parkLinkStep_vacant (hq : s.mail.linkOrders = o :: rest) (hk : o.kind = .park)
    (hv : (s.link o.link).vis.state = .vacant) : parkLinkStep s = refuseOrder .supervisor o.tag
      [(0, leBytes (s.linkRec o.link).state.toNat 1), (1, leBytes 0 1), (2, leBytes 0 1)] .wrongState (some o.link)
      { s with mail.linkOrders := rest } := by
  have hv' : ({ s with mail.linkOrders := rest } : State).link o.link = s.link o.link := rfl
  simp only [parkLinkStep, hq, if_pos hk, hv', hv, refuseLinkOrder]
  rfl

theorem parkLinkStep_parked (hq : s.mail.linkOrders = o :: rest) (hk : o.kind = .park)
    (hp : (s.link o.link).vis.state = .parked) (ho : (s.link o.link).aux.order = none) :
    parkLinkStep s = doneOrder .supervisor o.tag
      [(0, leBytes LinkState.parked.toNat 1), (1, leBytes 0 1), (2, leBytes 0 1)] .ok (some o.link)
      { s with mail.linkOrders := rest } := by
  have hlink : ({ s with mail.linkOrders := rest } : State).link o.link = s.link o.link := rfl
  simp only [parkLinkStep, hq, if_pos hk, hlink, hp, ho]

theorem parkLinkStep_begun (hq : s.mail.linkOrders = o :: rest) (hk : o.kind = .park)
    (hv : (s.link o.link).vis.state ≠ .vacant)
    (hp : (s.link o.link).vis.state ≠ .parked ∨ (s.link o.link).aux.order.isSome = true) :
    parkLinkStep s = beginPark o { s with mail.linkOrders := rest } := by
  unfold parkLinkStep
  rw [hq]
  dsimp only
  rw [if_pos hk]
  split
  · next h => exact absurd h hv
  · next h ho =>
    rcases hp with hp | hp
    · exact absurd h hp
    · rw [show (s.link o.link).aux.order = none from ho] at hp
      cases hp
  · rfl

end

/-- A result of one byte, read back behind the later ones. -/
theorem resultByte_three {c a b d : Nat} {s : State} (hm : Memory.wf s.mem) (ha : a < 256) (hb : b < 256) (hd : d < 256) :
    let t := writeResults c [(0, leBytes a 1), (1, leBytes b 1), (2, leBytes d 1)] s
    resultByte t.mem c 0 = a ∧ resultByte t.mem c 1 = b ∧ resultByte t.mem c 2 = d := by
  have h1 := Memory.wf_writeBytes hm (cellResults c + 0) (leBytes a 1)
  have h2 := Memory.wf_writeBytes h1 (cellResults c + 1) (leBytes b 1)
  simp only [writeResults, resultByte, byteAt, Memory.read_writeBytes h2, Memory.read_writeBytes h1, Memory.read_writeBytes hm,
    leBytes_length]
  refine ⟨?_, ?_, ?_⟩
  · rw [if_neg (by omega), if_neg (by omega), if_pos (by omega), Nat.sub_self]
    simp [leBytes, Nat.mod_eq_of_lt ha]
  · rw [if_neg (by omega), if_pos (by omega), Nat.sub_self]
    simp [leBytes, Nat.mod_eq_of_lt hb]
  · rw [if_pos (by omega), Nat.sub_self]
    simp [leBytes, Nat.mod_eq_of_lt hd]

/-- A cell shows what it showed when the state byte of another one is written. -/
theorem cellShows_write {m : List Host.Cell} {c c' st code x : Nat} {v : Byte} (hm : Memory.wf m) (hne : c ≠ c')
    (h : CellShows m c st code x) : CellShows (Memory.write m (cellBase c') v) c st code x := by
  have hread (k : Nat) (hk : k < 128) :
      Memory.read (Memory.write m (cellBase c') v) (cellBase c + k) = Memory.read m (cellBase c + k) := by
    rw [Memory.read_write hm, if_neg]
    unfold cellBase
    omega
  obtain ⟨hst, hcode, hx⟩ := h
  refine ⟨?_, ?_, ?_⟩
  · rw [← hst]
    exact congrArg BitVec.toNat (hread 0 (by omega))
  · rw [← hcode]
    exact congrArg BitVec.toNat (hread 4 (by omega))
  · rw [← hx]
    refine readLE_congr _ 2 fun k hk => ?_
    rw [add_assoc]
    exact hread (6 + k) (by omega)

/-! ### The state that a PARK begins with -/

/-- The MUTE of a PARK names every declared role (R75). -/
structure ControlReq.IsParkMute (o : LinkOrder) (d : LinkDef) (seq : Nat) (r : ControlReq) : Prop where
  link : r.link = o.link
  kind : r.kind = .mute
  unit : r.unit = d.unit
  chan : r.chan = d.chan
  roleOut : r.roleOut = true
  roleIn : r.roleIn = d.inRole.isSome
  seq : r.seq = seq

/-- What a PARK with something to undo leaves. -/
structure ParkBegun (o : LinkOrder) (d : LinkDef) (s t : State) : Prop where
  working : byteAt t.mem (cellBase o.tag.cell) = 3
  earlier : ∀ p, (s.link o.link).aux.order = some p → p.tag.cell ≠ o.tag.cell →
    CellShows t.mem p.tag.cell 4 ResultCode.cancelled.toNat (o.link % 65536)
  others : OtherLinks o.link s t
  cleared : (t.linkRec o.link).Cleared
  cell : (t.linkRec o.link).orderCell = some o.tag.cell
  order : (t.link o.link).aux.order = some o
  mute : (t.link o.link).aux.parkMute = if d.outRole.isSome then .waiting else .notNeeded
  purges : (t.link o.link).aux.purges = (s.link o.link).aux.purges + if .purge o.link ∈ s.ctl.queue then 0 else 1
  queue : t.ctl.queue = (s.ctl.queue.filter fun r => !r.purgedWith o.link) ++ parkPurge o s
  control : ∃ r : ControlReq, r.IsParkMute o d (t.link o.link).aux.parkSeq ∧
    t.ul.controlQ = (s.ul.controlQ.filter fun x => x.link ≠ o.link) ++ if d.outRole.isSome then [r] else []
  cancels : (s.link o.link).aux.planOut = true → (o.link, (s.link o.link).aux.seq) ∈ t.mail.cancels
  kept : t.ctl.table = s.ctl.table ∧ t.ctl.reserve = s.ctl.reserve ∧ t.kc = s.kc ∧ t.tally = s.tally ∧
    t.router = s.router ∧ t.tb = s.tb ∧ t.adopt = s.adopt

theorem parkBegun_beginPark {o : LinkOrder} {d : LinkDef} {s : State} (hm : Memory.wf s.mem)
    (hi : o.link < s.sup.links.length) (hd : s.linkDef o.link = some d) : ParkBegun o d s (beginPark o s) := by
  obtain ⟨m, sv, u, v, L, j, M, oc, w, hbegun, hu, hpurges, hcancel, hwf, hshows⟩ := beginPark_change hm hi hd
  obtain ⟨hseq, hcount⟩ := parkedLink_aux o (s.linkRec o.link).state d.outRole.isSome v L
  have hclear := parkedLink_cleared o (s.linkRec o.link).state d.outRole.isSome v L
  rw [← hu] at hseq hcount hclear
  have hlink : (beginPark o s).link o.link = { u.link o.link with
      aux := purgedAux w (decide (.purge o.link ∉ s.ctl.queue)) (u.link o.link).aux } := by
    rw [hbegun]
    exact (put_getD ..).trans (if_pos ⟨rfl, hi⟩)
  have hrec : (beginPark o s).linkRec o.link = (u.link o.link).vis := by rw [State.linkRec, hlink]
  refine ⟨?working, fun p hp hne => ?earlier, fun k hne => ?others, hrec ▸ hclear, ?cell, ?order, ?mute, ?purges, ?queue,
    ?control, fun h => ?cancels, ?kept⟩
  case working =>
    rw [hbegun]
    exact congrArg BitVec.toNat ((Memory.read_write hwf ..).trans (if_pos rfl))
  case earlier =>
    rw [hbegun]
    exact cellShows_write hwf hne (hshows p hp)
  case others =>
    rw [hbegun]
    exact (put_getD ..).trans (if_neg fun h => hne h.1)
  case cell => rw [hrec, hu]; rfl
  case order => rw [hlink, hu]; rfl
  case mute => rw [hlink, hu]; rfl
  case purges =>
    rw [hlink, ← hpurges, ← hcount]
    by_cases h : .purge o.link ∈ s.ctl.queue
    · rw [if_pos h, decide_eq_false (not_not.2 h)]
      rfl
    · rw [if_neg h, decide_eq_true h]
      rfl
  case queue => rw [hbegun]
  case control =>
    refine ⟨controlReq u o.link d .mute true d.inRole.isSome, ⟨rfl, rfl, rfl, rfl, rfl, rfl, ?_⟩, ?_⟩
    · rw [hlink]
      exact hseq.symm
    · rw [hbegun]
  case cancels =>
    rw [hbegun]
    exact hcancel h
  case kept =>
    rw [hbegun]
    exact ⟨rfl, rfl, rfl, rfl, rfl, rfl, rfl⟩

section
variable {o : LinkOrder} {d : LinkDef} {s t : State}

theorem ParkBegun.purge_mem (h : ParkBegun o d s t) : .purge o.link ∈ t.ctl.queue := by
  rw [h.queue, parkPurge]
  split
  · next hp => exact List.mem_append_left _ (List.mem_filter.2 ⟨hp, rfl⟩)
  · exact List.mem_append_right _ List.mem_cons_self

theorem ParkBegun.not_purgedWith (h : ParkBegun o d s t) : ∀ r ∈ t.ctl.queue, r.purgedWith o.link = false := by
  intro r hr
  rw [h.queue] at hr
  rcases List.mem_append.1 hr with hr | hr
  · exact Bool.not_eq_true' _ ▸ (List.mem_filter.1 hr).2
  · obtain rfl := mem_parkPurge hr
    rfl

/-- The CONTROL requests of the parked link: its MUTE, if it has an OUTBOUND role. -/
theorem ParkBegun.control_mem (h : ParkBegun o d s t) {x : ControlReq} (hx : x ∈ t.ul.controlQ) (hlink : x.link = o.link) :
    d.outRole.isSome = true ∧ x.IsParkMute o d (t.link o.link).aux.parkSeq := by
  obtain ⟨r, hr, hq⟩ := h.control
  rw [hq] at hx
  rcases List.mem_append.1 hx with hx | hx
  · exact absurd hlink (of_decide_eq_true (List.mem_filter.1 hx).2)
  · split at hx
    · next hout =>
      rw [List.mem_singleton.1 hx]
      exact ⟨hout, hr⟩
    · cases hx

theorem ParkBegun.mute_mem (h : ParkBegun o d s t) (hout : d.outRole.isSome = true) :
    ∃ x ∈ t.ul.controlQ, x.IsParkMute o d (t.link o.link).aux.parkSeq := by
  obtain ⟨r, hr, hq⟩ := h.control
  refine ⟨r, ?_, hr⟩
  rw [hq, if_pos hout]
  exact List.mem_append_right _ List.mem_cons_self

end

/-- Settles O35. -/
theorem parkLinkSteps : Obligations.ParkLinkSteps := by
  intro s o rest d hm hq hk hlink hi l
  have hmod : o.link % 65536 = o.link := Nat.mod_eq_of_lt (by omega)
  refine ⟨fun hvacant => ?vacant, fun hparked hnone => ?parked, fun hv hp hd => ?begun⟩
  case vacant =>
    have hends := completeOrder_ends .supervisor o.tag
      [(0, leBytes (s.linkRec o.link).state.toNat 1), (1, leBytes 0 1), (2, leBytes 0 1)] .wrongState (some o.link) stRefused
      (s := { s with mail.linkOrders := rest }) hm (by decide) (by simp [leBytes_length])
    rw [Option.getD_some, hmod] at hends
    refine ⟨parkLinkStep s, rfl, ?_⟩
    rw [parkLinkStep_vacant hq hk hvacant]
    refine ⟨hends, ?_⟩
    rw [refuseOrder_frame]
  case parked =>
    have hends := completeOrder_ends .supervisor o.tag
      [(0, leBytes LinkState.parked.toNat 1), (1, leBytes 0 1), (2, leBytes 0 1)] .ok (some o.link) stDone
      (s := { s with mail.linkOrders := rest }) hm (by decide) (by simp [leBytes_length])
    rw [Option.getD_some, hmod] at hends
    have hresult (off : Nat) := completeOrder_result .supervisor o.tag
      [(0, leBytes LinkState.parked.toNat 1), (1, leBytes 0 1), (2, leBytes 0 1)] .ok (some o.link) stDone
      (s := { s with mail.linkOrders := rest }) hm off
    obtain ⟨hleft, hremoved, hmute⟩ := resultByte_three (c := o.tag.cell) (a := LinkState.parked.toNat) (b := 0) (d := 0)
      (s := { s with mail.linkOrders := rest }) hm (by decide) (by decide) (by decide)
    refine ⟨parkLinkStep s, rfl, ?_⟩
    rw [parkLinkStep_parked hq hk hparked hnone]
    refine ⟨hends, (hresult 0).trans hleft, (hresult 1).trans hremoved, (hresult 2).trans hmute, ?_⟩
    rw [doneOrder_frame]
  case begun =>
    have h := parkBegun_beginPark (s := { s with mail.linkOrders := rest }) hm hi hd
    rw [← parkLinkStep_begun hq hk hv hp] at h
    have hc := h.cleared
    refine ⟨parkLinkStep s, rfl, h.working, h.others, hc.state, hc.seqKind, hc.phase, hc.hold, hc.outPresent, hc.inPresent,
      hc.outHealth, hc.inHealth, hc.block, h.cell, h.purge_mem, h.not_purgedWith, fun x hx hlink => (h.control_mem hx hlink).2.kind,
      fun hout => ?mute, fun hout x hx hlink => ?noMute, h.order, h.mute, fun hin => ?waits, fun hout => ?sent, h.purges, h.cancels,
      fun p hp hne => hmod ▸ h.earlier p hp hne, h.kept⟩
    case mute =>
      obtain ⟨x, hx, hmute⟩ := h.mute_mem hout
      exact ⟨x, hx, hmute.link, hmute.unit, hmute.chan, hmute.roleOut, hmute.roleIn, hmute.seq⟩
    case noMute =>
      have := (h.control_mem hx hlink).1
      rw [hout] at this
      cases this
    case waits => exact h.queue.trans ((congrArg _ (if_pos hin)).trans (List.append_nil _))
    case sent => exact h.queue.trans (congrArg _ (if_neg hout))

end Sys2Proof.Machine
end

section
/-! PROOFS. The results of an order: fields that lie apart read back as they were written (R154, R170). -/

namespace Sys2Proof.Machine

/-- Each result begins where those before it have ended. -/
def Apart (res : Results) : Prop := res.Pairwise fun x y => x.1 + x.2.length ≤ y.1

section
variable {c : Nat} {res : Results} {s : State}

/-- Results that begin above a byte leave it alone. -/
theorem writeResults_below (hm : Memory.wf s.mem) {a : Nat} (ha : ∀ x ∈ res, a < cellResults c + x.1) :
    Memory.read (writeResults c res s).mem a = Memory.read s.mem a := by
  induction res generalizing s with
  | nil => rfl
  | cons x res ih =>
    obtain ⟨off, bs⟩ := x
    obtain ⟨hx, hrest⟩ := List.forall_mem_cons.1 ha
    rw [writeResults, ih (Memory.wf_writeBytes hm _ _) hrest]
    exact (Memory.read_writeBytes hm ..).trans (if_neg fun h => by dsimp only at hx; omega)

theorem writeResults_read (hm : Memory.wf s.mem) (hres : Apart res) {x : Nat × List Byte} (hx : x ∈ res) {k : Nat}
    (hk : k < x.2.length) : Memory.read (writeResults c res s).mem (cellResults c + x.1 + k) = x.2.getD k 0 := by
  induction res generalizing s with
  | nil => cases hx
  | cons y res ih =>
    obtain ⟨hy, hrest⟩ := List.pairwise_cons.1 hres
    have hwf := Memory.wf_writeBytes hm (cellResults c + y.1) y.2
    obtain rfl | hx := List.mem_cons.1 hx
    · rw [writeResults, writeResults_below hwf fun z hz => by have := hy z hz; omega]
      refine (Memory.read_writeBytes hm ..).trans ?_
      rw [if_pos (by omega), Nat.add_sub_cancel_left]
    · exact ih hwf hrest hx

end

/-! ### A completed order -/

section
variable {o : Owner} {g : OrderTag} {res : Results} {code : ResultCode} {x : Option Nat} {s : State} {off v n : Nat}

theorem doneOrder_read (hm : Memory.wf s.mem) (hres : Apart res) {y : Nat × List Byte} (hy : y ∈ res) {k : Nat}
    (hk : k < y.2.length) :
    Memory.read (doneOrder o g res code x s).mem (cellResults g.cell + y.1 + k) = y.2.getD k 0 := by
  rw [← writeResults_read (c := g.cell) hm hres hy hk]
  exact BitVec.eq_of_toNat_eq (Nat.add_assoc .. ▸ completeOrder_result o g res code x stDone hm (y.1 + k))

/-- A field among the bytes of a result, at address `a`. -/
theorem doneOrder_field_within {l r : List Byte} {a b : Nat} (hm : Memory.wf s.mem) (hres : Apart res)
    (hy : (off, l ++ leBytes v n ++ r) ∈ res) (ha : a = cellResults g.cell + off + l.length) (hb : 256 ^ n = b) :
    fieldAt (doneOrder o g res code x s).mem a n = v % b := by
  subst ha hb
  refine readLE_leBytes _ _ v n fun k hk => ?_
  rw [Nat.add_assoc, doneOrder_read hm hres hy (by simp only [List.length_append, leBytes_length]; omega), List.append_assoc,
    List.getD_append_right _ _ _ _ (by omega), Nat.add_sub_cancel_left, List.getD_append _ _ _ _ (by rwa [leBytes_length])]

theorem doneOrder_field {b : Nat} (hm : Memory.wf s.mem) (hres : Apart res) (hy : (off, leBytes v n) ∈ res) (hb : 256 ^ n = b) :
    fieldAt (doneOrder o g res code x s).mem (cellResults g.cell + off) n = v % b :=
  doneOrder_field_within (l := []) (r := []) hm hres (by rwa [List.nil_append, List.append_nil]) rfl hb

theorem doneOrder_byte (hm : Memory.wf s.mem) (hres : Apart res) (hy : (off, leBytes v 1) ∈ res) :
    resultByte (doneOrder o g res code x s).mem g.cell off = v % 256 := by
  rw [resultByte, ← fieldAt_one]
  exact doneOrder_field hm hres hy (pow_one 256)

/-- The end of the step moves the change counts alone. -/
theorem orderEnds_finish {st y : Nat} {a t : State} : OrderEnds g st code y s (finish a t) ↔ OrderEnds g st code y s t := by
  simp only [OrderEnds, finish_mem, finish_disp, finish_now]

end

/-! ### The end of a step -/

theorem next_finish {s t u : State} (h : t = u) :
    (Host.Outcome.next (finish s t) : Host.Outcome State Fault Refusal) = .next (finish s u) := by rw [h]

/-! ### An order of the plan engine (R44) -/

/-- The state with an answer to the engine taken. -/
def answerTaken (rest : List EngineAnswer) (s : State) : State := { s with mail.engineAnswers := rest }

theorem orderEnds_answerTaken {g : OrderTag} {st y : Nat} {code : ResultCode} {rest : List EngineAnswer} {s t : State} :
    OrderEnds g st code y (answerTaken rest s) t ↔ OrderEnds g st code y s t := Iff.rfl

section
variable {g : OrderTag} {res : Results} {code : ResultCode} {s : State}

/-- The order completes, and the engine is IDLE. -/
theorem endPlanOrder_frame (g : OrderTag) (res : Results) (code : ResultCode) (s : State) : endPlanOrder g res code s =
    { s with
      mem := (doneOrder .engine g res code none s).mem
      disp := { s.disp with service := s.disp.service.filter (· ≠ g.cell) }
      eng := { s.eng with service := none }
      mail := { s.mail with reports := s.mail.reports ++ [(.engine, orderReport g code stDone s)] } } := by
  rw [endPlanOrder, doneOrder_frame]
  rfl

theorem endPlanOrder_mem (g : OrderTag) (res : Results) (code : ResultCode) (s : State) :
    (endPlanOrder g res code s).mem = (doneOrder .engine g res code none s).mem := rfl

theorem doneOrder_ends {o : Owner} {x : Option Nat} (hm : Memory.wf s.mem) (hfit : ∀ y ∈ res, y.1 + y.2.length ≤ 64) :
    OrderEnds g 4 code (x.getD 0xFFFF % 65536) s (doneOrder o g res code x s) :=
  completeOrder_ends o g res code x stDone hm (by decide) hfit

/-- With no subject. -/
theorem endPlanOrder_ends (hm : Memory.wf s.mem) (hfit : ∀ y ∈ res, y.1 + y.2.length ≤ 64) :
    OrderEnds g 4 code 65535 s (endPlanOrder g res code s) :=
  doneOrder_ends (o := .engine) (x := none) hm hfit

end

end Sys2Proof.Machine
end

section
/-! PROOFS. O29: the end of a query's search (R49). -/

namespace Sys2Proof.Machine

section
variable {c : Controller} {r : SearchRun}

/-- The results of a query lie apart. -/
theorem apart_queryResults : Apart (queryResults c r) := by
  have hcandidates : Apart (r.best.zipIdx.map fun (b, k) => (0x10 + 6 * k, leBytes b.1 4 ++ leBytesInt b.2 2)) := by
    refine List.pairwise_map.2 (List.pairwise_iff_getElem.2 fun i j hi hj hij => ?_)
    simp only [List.getElem_zipIdx, List.length_append, leBytesInt, leBytes_length]
    omega
  refine List.pairwise_append.2 ⟨by simp [leBytes_length], hcandidates, fun x hx y hy => ?_⟩
  obtain ⟨⟨b, k⟩, -, rfl⟩ := List.mem_map.1 hy
  simp only [List.mem_cons, List.not_mem_nil, or_false] at hx
  rcases hx with rfl | rfl | rfl | rfl | rfl | rfl | rfl <;> simp only [leBytes_length] <;> omega

/-- Eight candidates fill the results area. -/
theorem queryResults_fit (h : r.best.length ≤ 8) : ∀ y ∈ queryResults c r, y.1 + y.2.length ≤ 64 := by
  refine List.forall_mem_append.2 ⟨by simp [leBytes_length], fun y hy => ?_⟩
  obtain ⟨⟨b, k⟩, hb, rfl⟩ := List.mem_map.1 hy
  have := List.snd_lt_of_mem_zipIdx hb
  simp only [List.length_append, leBytesInt, leBytes_length]
  omega

theorem candidate_mem_queryResults {k : Nat} {x : Nat × Int} (h : r.best[k]? = some x) :
    (0x10 + 6 * k, leBytes x.1 4 ++ leBytesInt x.2 2) ∈ queryResults c r :=
  List.mem_append_right _ (List.mem_map.2 ⟨(x, k), List.mem_zipIdx_iff_getElem?.2 h, rfl⟩)

end

theorem querySearchEndStep_eq {s : State} {sv : Service} {g : OrderTag} {p : PlanParams} (hsv : s.eng.service = some sv)
    (hreq : sv.req = .query g p) : querySearchEndStep s =
      endPlanOrder g (queryResults s.ctl (sv.search.toEnd s.ctl))
        (if (sv.search.toEnd s.ctl).best = [] then .noCandidate else .ok) s := by
  simp only [querySearchEndStep, hsv, hreq]

/-- Settles O29: the search keeps no more candidates than the results area holds, and each result reads back. -/
theorem querySearchEndReports : Obligations.QuerySearchEndReports := by
  intro s sv g p hm hsv hreq hkeep hbest r
  have hlen : r.best.length ≤ 8 := (SearchRun.run_best_length _ _ hbest).trans hkeep
  have hstep := querySearchEndStep_eq hsv hreq
  have hfield {off v : Nat} (hmem : (off, leBytes v 2) ∈ queryResults s.ctl r) :
      fieldAt (querySearchEndStep s).mem (cellResults g.cell + off) 2 = v % 65536 := by
    rw [hstep, endPlanOrder_mem]
    exact doneOrder_field hm apart_queryResults hmem rfl
  refine ⟨finish s (querySearchEndStep s), rfl, ?ends, ?count, hfield (by simp [queryResults]), hfield (by simp [queryResults]),
    hfield (by simp [queryResults]), hfield (by simp [queryResults]), hfield (by simp [queryResults]),
    hfield (by simp [queryResults]), fun k x hx => ⟨?codeOf, ?margin⟩, ?frame⟩
  case ends =>
    rw [orderEnds_finish, hstep]
    exact endPlanOrder_ends hm (queryResults_fit hlen)
  case count =>
    rw [finish_mem, hstep, endPlanOrder_mem, doneOrder_byte hm apart_queryResults (v := r.best.length) (by simp [queryResults, r])]
    omega
  case codeOf =>
    rw [finish_mem, hstep, endPlanOrder_mem]
    exact doneOrder_field_within (l := []) hm apart_queryResults (candidate_mem_queryResults hx) (by simp; omega) (by norm_num)
  case margin =>
    have hmem : (0x10 + 6 * k, leBytes x.1 4 ++ leBytes (x.2 % 65536).toNat 2 ++ []) ∈ queryResults s.ctl r := by
      rw [List.append_nil]
      exact candidate_mem_queryResults hx
    rw [finish_mem, hstep, endPlanOrder_mem,
      doneOrder_field_within (b := 65536) hm apart_queryResults hmem (by rw [leBytes_length]; omega) (by norm_num)]
    omega
  case frame =>
    rw [hstep, endPlanOrder_frame]
    rfl

end Sys2Proof.Machine
end

section
/-! PROOFS. O30: the search of a FILL_RESERVE and the answers to its APPENDs (R50, R51). -/

namespace Sys2Proof.Machine

/-! ### The end of a FILL_RESERVE -/

section
variable {n : Nat} {f : FillRun} {g : OrderTag} {code : ResultCode} {s : State}

theorem apart_fillResults : Apart (fillResults n f) := by
  unfold fillResults Apart
  split <;> simp [leBytes_length, leBytesInt, openBytes_length]

theorem fillResults_fit : ∀ y ∈ fillResults n f, y.1 + y.2.length ≤ 64 := by
  unfold fillResults
  split <;> simp [leBytes_length, leBytesInt, openBytes_length]

/-- A FILL_RESERVE that added no spare uses 14 free values for the fields of its spares. -/
theorem endFill_eq (g : OrderTag) (f : FillRun) (code : ResultCode) (s : State) : endFill g f code s =
    { endPlanOrder g (fillResults s.openCount f) code s with
      openCount := if f.first.isSome then s.openCount else s.openCount + 14 } := by
  rw [endFill]
  dsimp only
  split <;> rw [endPlanOrder_frame]

theorem endFill_frame (g : OrderTag) (f : FillRun) (code : ResultCode) (s : State) : endFill g f code s =
    { s with
      mem := (endFill g f code s).mem
      disp := { s.disp with service := s.disp.service.filter (· ≠ g.cell) }
      eng := { s.eng with service := none }
      mail := { s.mail with reports := s.mail.reports ++ [(.engine, orderReport g code stDone s)] }
      openCount := if f.first.isSome then s.openCount else s.openCount + 14 } := by
  rw [endFill_eq, endPlanOrder_frame]

theorem endFill_ends (hm : Memory.wf s.mem) : OrderEnds g 4 code 65535 s (endFill g f code s) := by
  have hends := endPlanOrder_ends (g := g) (code := code) hm (fillResults_fit (n := s.openCount) (f := f))
  rw [endFill_eq]
  exact hends

theorem endFill_mem (g : OrderTag) (f : FillRun) (code : ResultCode) (s : State) :
    (endFill g f code s).mem = (doneOrder .engine g (fillResults s.openCount f) code none s).mem := by
  rw [endFill_eq, endPlanOrder_mem]

theorem endFill_added (hm : Memory.wf s.mem) : resultByte (endFill g f code s).mem g.cell 0 = f.added % 256 := by
  rw [endFill_mem]
  exact doneOrder_byte hm apart_fillResults (by simp [fillResults])

theorem endFill_restarts (hm : Memory.wf s.mem) :
    fieldAt (endFill g f code s).mem (cellResults g.cell + 2) 2 = f.restarts % 65536 := by
  rw [endFill_mem]
  exact doneOrder_field hm apart_fillResults (by simp [fillResults]) (by norm_num)

/-- The code of the last spare added (R51). -/
theorem endFill_last {a b : Nat × Int} (hm : Memory.wf s.mem) (ha : f.first = some a) (hb : f.last = some b) :
    fieldAt (endFill g f code s).mem (cellResults g.cell + 12) 4 = b.1 % 2 ^ 32 := by
  have hmem : (12, [] ++ leBytes b.1 4 ++ leBytesInt b.2 2) ∈ fillResults s.openCount f := by simp [fillResults, ha, hb]
  rw [endFill_mem]
  exact doneOrder_field_within hm apart_fillResults hmem rfl (by norm_num)

end

/-! ### FILL_SEARCH_END -/

section
variable {s : State} {sv : Service} {g : OrderTag} {p : PlanParams}

theorem fillSearchEndStep_offers {x : Nat × Int} {l : List (Nat × Int)} (hsv : s.eng.service = some sv) (hreq : sv.req = .fill g p)
    (hsearching : sv.awaiting = false) (hbest : (sv.search.toEnd s.ctl).best = x :: l) : fillSearchEndStep s =
      pushRequest (.append x.1 p.cls p.zone)
        (setService (some { sv with awaiting := true, search := sv.search.toEnd s.ctl }) s) := by
  simp only [fillSearchEndStep, hsv, hreq, hsearching, hbest]

theorem fillSearchEndStep_ends (hsv : s.eng.service = some sv) (hreq : sv.req = .fill g p) (hsearching : sv.awaiting = false)
    (hbest : (sv.search.toEnd s.ctl).best = []) :
    fillSearchEndStep s = endFill g sv.fill (if sv.fill.added = 0 then .noCandidate else .ok) s := by
  simp only [fillSearchEndStep, hsv, hreq, hsearching, hbest]

/-! ### APPEND_ANSWER -/

variable {v : Option Verdict} {rest : List EngineAnswer}

theorem appendAnswerStep_ok {x : Nat × Int} {l : List (Nat × Int)} (hsv : s.eng.service = some sv) (hreq : sv.req = .fill g p)
    (hawaiting : sv.awaiting = true) (hmail : s.mail.engineAnswers = .appended .ok v :: rest) (hbest : sv.search.best = x :: l) :
    appendAnswerStep s =
      if sv.fill.added + 1 = p.count then endFill g (sv.fill.add x) .ok (answerTaken rest s)
      else fillNext g p { sv with fill := sv.fill.add x, restarts := 0 } (answerTaken rest s) := by
  simp only [appendAnswerStep, hsv, hreq, hawaiting, hmail, hbest]
  rfl

theorem appendAnswerStep_tableFull (hsv : s.eng.service = some sv) (hreq : sv.req = .fill g p) (hawaiting : sv.awaiting = true)
    (hmail : s.mail.engineAnswers = .appended .tableFull v :: rest) :
    appendAnswerStep s = endFill g sv.fill .tableFull (answerTaken rest s) := by
  simp only [appendAnswerStep, hsv, hreq, hawaiting, hmail]
  rfl

theorem appendAnswerStep_contended (hsv : s.eng.service = some sv) (hreq : sv.req = .fill g p) (hawaiting : sv.awaiting = true)
    (hmail : s.mail.engineAnswers = .appended .contended v :: rest) : appendAnswerStep s =
      if sv.restarts < 3 then
        fillNext g p { sv with restarts := sv.restarts + 1, fill := { sv.fill with restarts := sv.fill.restarts + 1 } }
          (answerTaken rest s)
      else endFill g sv.fill .contended (answerTaken rest s) := by
  simp only [appendAnswerStep, hsv, hreq, hawaiting, hmail]
  rfl

theorem fillNext_full (h : 32 ≤ s.ctl.reserve.length) : fillNext g p sv s = endFill g sv.fill .tableFull s := if_pos h

theorem fillNext_room (h : s.ctl.reserve.length < 32) :
    fillNext g p sv s = setService (some { sv with awaiting := false, search := orderSearch s.ctl p true }) s :=
  if_neg (not_le.2 h)

end

theorem FillRun.add_first (f : FillRun) (x : Nat × Int) :
    (f.add x).first = some (f.first.getD x) := by
  cases h : f.first <;> simp [FillRun.add, h]

theorem FillRun.add_eq (f : FillRun) (x : Nat × Int) : f.add x =
    { f with
      added := f.added + 1, first := if f.first = none then some x else f.first, last := some x, least := min f.least x.2 } := by
  cases h : f.first <;> simp [FillRun.add, h]

/-- Settles O30, by the result of the search and the code of the answer. -/
theorem fillReserveSteps : Obligations.FillReserveSteps := by
  intro s sv g p hm hsv hreq
  have answered {f : FillRun} {code : ResultCode} {rest : List EngineAnswer}
      (h : appendAnswerStep s = endFill g f code (answerTaken rest s)) :
      ∃ t, exec .appendAnswer s = .next t ∧ OrderEnds g 4 code 65535 s t ∧ t.eng = { s.eng with service := none } ∧
        t.mail.engineAnswers = rest ∧ t.ctl = s.ctl ∧ t.sup = s.sup := by
    refine ⟨finish s (appendAnswerStep s), rfl, ?_⟩
    rw [orderEnds_finish, finish_eng, finish_mail, finish_ctl, finish_sup, h, ← orderEnds_answerTaken (rest := rest)]
    refine ⟨endFill_ends hm, ?_⟩
    rw [endFill_frame]
    exact ⟨rfl, rfl, rfl, rfl⟩
  refine ⟨fun x l hsearching hbest => ?offer, fun hsearching hbest => ?none, fun x l v rest hawaiting hmail hbest hcount => ?last,
    fun x l v rest hawaiting hmail hbest hcount => ⟨fun hroom => ?next, fun hfull => ?full⟩,
    fun v rest hawaiting hmail => ?tableFull,
    fun v rest hawaiting hmail => ⟨fun hthree => ?contended, fun hfewer hroom => ?again⟩⟩
  case offer => exact next_finish (fillSearchEndStep_offers hsv hreq hsearching hbest)
  case none =>
    have hstep := fillSearchEndStep_ends hsv hreq hsearching hbest
    refine ⟨finish s (fillSearchEndStep s), rfl, ?_⟩
    rw [orderEnds_finish, finish_mem, finish_eng, hstep]
    exact ⟨endFill_ends hm, endFill_added hm, by rw [endFill_frame], by rw [endFill_frame]; rfl⟩
  case last =>
    have hstep := appendAnswerStep_ok hsv hreq hawaiting hmail hbest
    rw [if_pos hcount] at hstep
    refine ⟨finish s (appendAnswerStep s), rfl, ?_⟩
    rw [orderEnds_finish, finish_mem, hstep, ← hcount, ← orderEnds_answerTaken (rest := rest)]
    refine ⟨endFill_ends hm, endFill_added (s := answerTaken rest s) hm,
      endFill_last (s := answerTaken rest s) hm (FillRun.add_first ..) rfl, ?_⟩
    rw [endFill_frame, FillRun.add_first]
    rfl
  case next =>
    have hstep := appendAnswerStep_ok hsv hreq hawaiting hmail hbest
    rw [if_neg hcount, fillNext_room (s := answerTaken rest s) hroom, FillRun.add_eq] at hstep
    exact next_finish hstep
  case full =>
    have hstep := appendAnswerStep_ok hsv hreq hawaiting hmail hbest
    rw [if_neg hcount, fillNext_full (s := answerTaken rest s) hfull] at hstep
    refine ⟨finish s (appendAnswerStep s), rfl, ?_⟩
    rw [orderEnds_finish, finish_mem, finish_eng, hstep, ← orderEnds_answerTaken (rest := rest)]
    exact ⟨endFill_ends hm, endFill_added (s := answerTaken rest s) hm, by rw [endFill_frame]; rfl⟩
  case tableFull => exact answered (appendAnswerStep_tableFull hsv hreq hawaiting hmail)
  case contended =>
    have hstep := appendAnswerStep_contended hsv hreq hawaiting hmail
    rw [if_neg (not_lt.2 hthree)] at hstep
    exact answered hstep
  case again =>
    have hstep := appendAnswerStep_contended hsv hreq hawaiting hmail
    rw [if_pos hfewer, fillNext_room (s := answerTaken rest s) hroom] at hstep
    exact ⟨{ sv with
      restarts := sv.restarts + 1, fill := { sv.fill with restarts := sv.fill.restarts + 1 }, awaiting := false
      search := orderSearch s.ctl p true }, hreq, rfl, rfl, rfl, rfl, next_finish hstep⟩

end Sys2Proof.Machine
end

section
/-! PROOFS. O31: what the measuring of an audit finds, the MARK it sends, and the answer (R53 to R55). -/

namespace Sys2Proof.Machine

/-! ### The measuring (R53) -/

section
variable {c : Controller} {a : AuditRun}

/-- The finding of a slot, if it holds an entry. -/
def findingAt (c : Controller) (k : Nat) : Option Finding := (slotOf c.table k).map fun x =>
  { slot := k, link := x.link, role := x.role, code := x.code, suspect := decide ((entryCheck c.rules c.table k x).product < 0) }

/-- The code of a spare at its position, if its check does not find it ACCEPTABLE. -/
def failingCode (c : Controller) (x : ReserveEntry × Nat) : Option Nat :=
  if (reserveCheck c.rules c.table c.reserve x.2 x.1).eligibility = .acceptable then none else some x.1.code

theorem AuditRun.measure_slot (h : a.slot < 160) : a.measure c =
    { a with slot := a.slot + 1, findings := a.findings ++ (findingAt c a.slot).toList } := by
  rw [AuditRun.measure, if_pos (show a.slot < Config.slots from h), findingAt]
  cases slotOf c.table a.slot with
  | none => simp
  | some e => rfl

theorem AuditRun.measure_spare (h : 160 ≤ a.slot) (hpos : a.pos < c.reserve.length) : a.measure c =
    { a with
      pos := a.pos + 1, reserveMeasured := a.reserveMeasured + 1
      failing := a.failing ++ (failingCode c (c.reserve[a.pos], a.pos)).toList } := by
  rw [AuditRun.measure, if_neg (show ¬a.slot < Config.slots from not_lt.2 h), List.getElem?_eq_getElem hpos]
  dsimp only
  rw [failingCode, Verdict.passes]
  split <;> simp_all

theorem AuditRun.run_add (m n : Nat) (a : AuditRun) : a.run c (m + n) = (a.run c m).run c n := by
  induction m generalizing a with
  | zero => rw [Nat.zero_add]; rfl
  | succ m ih => rw [Nat.succ_add]; exact ih _

theorem AuditRun.run_slots {n : Nat} (h : n ≤ 160 - a.slot) : a.run c n =
    { a with slot := a.slot + n, findings := a.findings ++ (List.range' a.slot n).filterMap (findingAt c) } := by
  induction n generalizing a with
  | zero => simp [AuditRun.run]
  | succ n ih =>
    rw [AuditRun.run, AuditRun.measure_slot (by omega), ih (by dsimp only; omega), List.range'_succ, List.filterMap_cons]
    cases findingAt c a.slot <;> simp [Nat.add_assoc, Nat.add_comm 1]

theorem AuditRun.run_spares {n : Nat} (hslot : 160 ≤ a.slot) (h : n ≤ c.reserve.length - a.pos) : a.run c n =
    { a with
      pos := a.pos + n, reserveMeasured := a.reserveMeasured + n
      failing := a.failing ++ ((c.reserve.zipIdx.drop a.pos).take n).filterMap (failingCode c) } := by
  induction n generalizing a with
  | zero => simp [AuditRun.run]
  | succ n ih =>
    have hpos : a.pos < c.reserve.zipIdx.length := by rw [List.length_zipIdx]; omega
    rw [AuditRun.run, AuditRun.measure_spare hslot (by omega),
      ih (a := { a with pos := a.pos + 1, reserveMeasured := _, failing := _ }) hslot (by dsimp only; omega),
      List.drop_eq_getElem_cons hpos, List.take_succ_cons, List.filterMap_cons, List.getElem_zipIdx, Nat.zero_add]
    cases failingCode c (c.reserve[a.pos], a.pos) <;> simp [Nat.add_assoc, Nat.add_comm 1]

theorem AuditRun.toEnd_eq (c : Controller) (a : AuditRun) : a.toEnd c =
    { a with
      slot := a.slot + (160 - a.slot), pos := a.pos + (c.reserve.length - a.pos)
      reserveMeasured := a.reserveMeasured + (c.reserve.length - a.pos)
      findings := a.findings ++ (List.range' a.slot (160 - a.slot)).filterMap (findingAt c)
      failing := a.failing ++ (c.reserve.zipIdx.drop a.pos).filterMap (failingCode c) } := by
  have hslots : (a.run c (160 - a.slot)).slot = a.slot + (160 - a.slot) := by rw [AuditRun.run_slots le_rfl]
  have hpos : (a.run c (160 - a.slot)).pos = a.pos := by rw [AuditRun.run_slots le_rfl]
  rw [AuditRun.toEnd, show Config.slots = 160 from rfl, AuditRun.run_add,
    AuditRun.run_spares (by omega) (by rw [hpos]), hpos, List.take_of_length_le (by simp), AuditRun.run_slots le_rfl]

end

/-! ### The steps -/

section
variable {s : State} {sv : Service}

/-- The MARK of an audit whose measuring is finished. -/
def markOf (a : AuditRun) : CtlReq := .mark a.gen a.findings a.failing

theorem auditMeasuringEndStep_eq (hsv : s.eng.service = some sv) (hreq : (∃ g, sv.req = .audit g) ∨ sv.req = .internalAudit)
    (hmeasuring : sv.awaiting = false) : auditMeasuringEndStep s = pushRequest (markOf (sv.audit.toEnd s.ctl))
      (setService (some { sv with awaiting := true, audit := sv.audit.toEnd s.ctl }) s) := by
  obtain ⟨g, hreq⟩ | hreq := hreq
  · simp only [auditMeasuringEndStep, hsv, hreq, hmeasuring]
    rfl
  · simp only [auditMeasuringEndStep, hsv, hreq, hmeasuring]
    rfl

variable {m : MarkAnswer} {rest : List EngineAnswer}

theorem markAnswerStep_order {g : OrderTag} (hsv : s.eng.service = some sv) (hmail : s.mail.engineAnswers = .marked m :: rest)
    (hreq : sv.req = .audit g) : markAnswerStep s = endPlanOrder g (auditResults sv.audit m) .ok (answerTaken rest s) := by
  simp only [markAnswerStep, hsv, hmail, hreq]
  rfl

theorem markAnswerStep_internal (hsv : s.eng.service = some sv) (hmail : s.mail.engineAnswers = .marked m :: rest)
    (hreq : sv.req = .internalAudit) : markAnswerStep s = setService none (answerTaken rest s) := by
  simp only [markAnswerStep, hsv, hmail, hreq]
  rfl

end

/-- Settles O31: the measuring goes over the slots and then over the list; the answer's counts read back from the cell. -/
theorem auditSteps : Obligations.AuditSteps := by
  refine ⟨fun c a => ?measuring, fun s sv hm hsv => ⟨fun hreq hmeasuring => ?sent, fun m rest g hmail hreq => ?order,
    fun m rest hmail hreq => ?internal⟩⟩
  case measuring =>
    rw [AuditRun.toEnd_eq]
    exact ⟨rfl, rfl, rfl, rfl⟩
  case sent => exact next_finish (auditMeasuringEndStep_eq hsv hreq hmeasuring)
  case order =>
    have hapart : Apart (auditResults sv.audit m) := by simp [Apart, auditResults, leBytes_length]
    have hfit : ∀ y ∈ auditResults sv.audit m, y.1 + y.2.length ≤ 64 := by simp [auditResults, leBytes_length]
    have hstep := markAnswerStep_order hsv hmail hreq
    have hfield {off v : Nat} (hmem : (off, leBytes v 2) ∈ auditResults sv.audit m) :
        fieldAt (markAnswerStep s).mem (cellResults g.cell + off) 2 = v % 65536 := by
      rw [hstep, endPlanOrder_mem]
      exact doneOrder_field (s := answerTaken rest s) hm hapart hmem rfl
    have hbyte {off v : Nat} (hmem : (off, leBytes v 1) ∈ auditResults sv.audit m) :
        resultByte (markAnswerStep s).mem g.cell off = v % 256 := by
      rw [hstep, endPlanOrder_mem]
      exact doneOrder_byte (s := answerTaken rest s) hm hapart hmem
    refine ⟨finish s (markAnswerStep s), rfl, ?ends, hfield (off := 0) (by simp [auditResults]), hfield (by simp [auditResults]),
      hfield (by simp [auditResults]), hfield (by simp [auditResults]), hbyte (by simp [auditResults]), ?applied, ?frame⟩
    case ends =>
      rw [orderEnds_finish, hstep, ← orderEnds_answerTaken (rest := rest)]
      exact endPlanOrder_ends hm hfit
    case applied =>
      rw [finish_mem, hbyte (v := if m.applied then 1 else 0) (by simp [auditResults])]
      cases m.applied <;> simp
    case frame =>
      rw [hstep, endPlanOrder_frame]
      dsimp only [answerTaken, finish]
  case internal => exact next_finish (markAnswerStep_internal hsv hmail hreq)

end Sys2Proof.Machine
end

section
/-! PROOFS. O32: the attempts of a planning request, their ends and the controller's answers (R46 to R48, R52, TABLE 3-2). -/

namespace Sys2Proof.Machine

/-! ### An attempt (R46) -/

section
variable {r : PlanningReq} {s : State} {v : Service} {x : Role} {n : Nat}

theorem finishAttempt_none (h : v.role = none) : finishAttempt r s n v = v := by
  cases n with
  | zero => rfl
  | succ n => simp only [finishAttempt, h]

theorem finishAttempt_empty (h : v.role = some x) (hbest : (v.search.toEnd s.ctl).best = []) :
    finishAttempt r s (n + 1) v = { v with search := v.search.toEnd s.ctl } := by
  simp only [finishAttempt, h, hbest, if_true]

theorem finishAttempt_found (h : v.role = some x) (hbest : (v.search.toEnd s.ctl).best ≠ []) :
    finishAttempt r s (n + 1) v = finishAttempt r s n (nextRole r { v with search := v.search.toEnd s.ctl } s) := by
  simp only [finishAttempt, h, hbest, if_false]

section
variable {code : Nat} {margin : Int} {l : List (Nat × Int)}

theorem nextRole_last (h : v.role = some x) (hbest : v.search.best = (code, margin) :: l) (htodo : v.todo = []) :
    nextRole r v s = { v with role := none, chosen := v.chosen ++ [(x, code, margin)] } := by
  simp only [nextRole, h, hbest, htodo]

theorem nextRole_more {y : Role} {ys : List Role} (h : v.role = some x) (hbest : v.search.best = (code, margin) :: l)
    (htodo : v.todo = y :: ys) : nextRole r v s =
      { v with
        search := roleSearch s r (v.chosen ++ [(x, code, margin)]) y v.search.carrierStart, role := some y, todo := ys
        chosen := v.chosen ++ [(x, code, margin)] } := by
  simp only [nextRole, h, hbest, htodo]

end

/-- What the searches of an attempt leave of the request in service. -/
def SameRequest (v w : Service) : Prop :=
  w.req = v.req ∧ w.awaiting = v.awaiting ∧ w.cancelMark = v.cancelMark ∧ w.restarts = v.restarts ∧ w.attempts = v.attempts ∧
    w.genChanged = v.genChanged

theorem nextRole_same (r : PlanningReq) (v : Service) (s : State) : SameRequest v (nextRole r v s) := by
  unfold nextRole
  split
  · dsimp only
    split <;> exact ⟨rfl, rfl, rfl, rfl, rfl, rfl⟩
  · exact ⟨rfl, rfl, rfl, rfl, rfl, rfl⟩

theorem finishAttempt_same (r : PlanningReq) (s : State) (n : Nat) (v : Service) : SameRequest v (finishAttempt r s n v) := by
  induction n generalizing v with
  | zero => exact ⟨rfl, rfl, rfl, rfl, rfl, rfl⟩
  | succ n ih =>
    cases h : v.role with
    | none => rw [finishAttempt_none h]; exact ⟨rfl, rfl, rfl, rfl, rfl, rfl⟩
    | some x =>
      by_cases hbest : (v.search.toEnd s.ctl).best = []
      · rw [finishAttempt_empty h hbest]; exact ⟨rfl, rfl, rfl, rfl, rfl, rfl⟩
      · rw [finishAttempt_found h hbest]
        obtain ⟨h1, h2, h3, h4, h5, h6⟩ := nextRole_same r { v with search := v.search.toEnd s.ctl } s
        obtain ⟨i1, i2, i3, i4, i5, i6⟩ := ih (nextRole r { v with search := v.search.toEnd s.ctl } s)
        exact ⟨i1.trans h1, i2.trans h2, i3.trans h3, i4.trans h4, i5.trans h5, i6.trans h6⟩

/-- The first search of an attempt reads the definitions and the generations alone. -/
theorem roleSearch_congr {t : State} (hdefs : t.sup.defs = s.sup.defs) (hrules : t.ctl.ruleGen = s.ctl.ruleGen)
    (chosen : List (Role × Nat × Int)) (gen : Nat) : roleSearch t r chosen x gen = roleSearch s r chosen x gen := by
  have hplan : t.rolePlan = s.rolePlan := by funext i y; simp only [State.rolePlan, State.linkDef, hdefs]
  unfold roleSearch tentativeFor
  rw [hplan, hrules]

/-- An attempt begins with the first of its roles, OUTBOUND before INBOUND. -/
theorem beginAttempt_eq (r : PlanningReq) (v : Service) (s : State) : beginAttempt r v s =
    { v with
      awaiting := false, attempts := v.attempts + 1, role := (outboundFirst id r.search).head?
      todo := (outboundFirst id r.search).tail, chosen := []
      search := (outboundFirst id r.search).head?.elim v.search fun x => roleSearch s r [] x s.ctl.carrierGen } := by
  unfold beginAttempt
  split <;> next h => rw [h]; rfl

/-- The first search of an attempt, by the definitions and the generations of an earlier state that they still have. -/
theorem beginAttempt_search {t : State} (hdefs : t.sup.defs = s.sup.defs) (hgen : t.ctl.carrierGen = s.ctl.carrierGen)
    (hrules : t.ctl.ruleGen = s.ctl.ruleGen) (h : (beginAttempt r v t).role = some x) :
    (beginAttempt r v t).search = roleSearch s r [] x s.ctl.carrierGen := by
  rw [beginAttempt_eq] at h ⊢
  dsimp only at h ⊢
  rw [h, ← hgen]
  exact roleSearch_congr hdefs hrules [] _

end

/-! ### The answer to the supervisor (R48) -/

section
variable {r : PlanningReq} {sv : Service} {result : ResultCode} {after : Bool} {roles : List RoleAnswer} {nothing : Option Role}

/-- The engine's answer. -/
def planAnswerOf (r : PlanningReq) (sv : Service) (result : ResultCode) (after : Bool) (roles : List RoleAnswer)
    (nothing : Option Role) : PlanAnswer :=
  { link := r.link, seq := r.seq, result := result, afterCancel := after, roles := roles, attempts := sv.attempts
    nothingFor := nothing, genChanged := sv.genChanged }

theorem answerPlanning_eq (s : State) : answerPlanning r sv result after roles nothing s =
    { s with
      eng.service := none, mail.planAnswers := s.mail.planAnswers ++ [planAnswerOf r sv result after roles nothing] } := rfl

end

/-! ### PLANNING_ATTEMPT_END (R47) -/

section
variable {s : State} {sv : Service} {r : PlanningReq}

/-- An attempt at its end, with the note on the carrier generation. -/
def attemptEnd (r : PlanningReq) (s : State) (sv : Service) : Service :=
  let w := finishAttempt r s 2 sv
  { w with genChanged := w.genChanged || w.search.carrierStart ≠ s.ctl.carrierGen }

theorem attemptEnd_genChanged : (attemptEnd r s sv).genChanged =
    (sv.genChanged || decide ((finishAttempt r s 2 sv).search.carrierStart ≠ s.ctl.carrierGen)) := by
  obtain ⟨-, -, -, -, -, hgen⟩ := finishAttempt_same r s 2 sv
  rw [attemptEnd, hgen]

/-- The roles of the INSERT, with the codes given and those chosen. -/
def attemptRoles (r : PlanningReq) (s : State) (chosen : List (Role × Nat × Int)) : List (RolePlan × Nat) :=
  (r.given ++ chosen.map fun c => (c.1, c.2.1)).filterMap fun c => (s.rolePlan r.link c.1).map fun p => (p, c.2)

section
variable (hsv : s.eng.service = some sv) (hreq : sv.req = .planning r) (hsearching : sv.awaiting = false)
include hsv hreq hsearching

theorem planningAttemptEndStep_marked (hmark : sv.cancelMark = true) :
    planningAttemptEndStep s = answerPlanning r (attemptEnd r s sv) .cancelled false [] none s := by
  obtain ⟨-, -, hsame, -⟩ := finishAttempt_same r s 2 sv
  simp only [planningAttemptEndStep, hsv, hreq, hsearching]
  exact if_pos (hsame.trans hmark)

theorem planningAttemptEndStep_nothing {x : Role} (hmark : sv.cancelMark = false)
    (hrole : (finishAttempt r s 2 sv).role = some x) :
    planningAttemptEndStep s = answerPlanning r (attemptEnd r s sv) .noCandidate false [] (some x) s := by
  obtain ⟨-, -, hsame, -⟩ := finishAttempt_same r s 2 sv
  simp only [planningAttemptEndStep, hsv, hreq, hsearching]
  refine (if_neg (Bool.eq_false_iff.1 (hsame.trans hmark))).trans ?_
  split
  · next h => cases hrole.symm.trans h; rfl
  · next h => cases hrole.symm.trans h

theorem planningAttemptEndStep_offers (hmark : sv.cancelMark = false) (hrole : (finishAttempt r s 2 sv).role = none) :
    planningAttemptEndStep s = sendEngineInsert r.link r.seq (attemptRoles r s (finishAttempt r s 2 sv).chosen)
      (setService (some { attemptEnd r s sv with awaiting := true }) s) := by
  obtain ⟨-, -, hsame, -⟩ := finishAttempt_same r s 2 sv
  simp only [planningAttemptEndStep, hsv, hreq, hsearching]
  refine (if_neg (Bool.eq_false_iff.1 (hsame.trans hmark))).trans ?_
  split
  · next h => cases hrole.symm.trans h
  · rfl

end

end

/-! ### PLANNING_INSERT_ANSWER (TABLE 3-2) -/

section
variable {s : State} {sv : Service} {r : PlanningReq} {a : InsertAnswer} {rest : List EngineAnswer}

/-- Taking the answer changes the links and the controller's queue. -/
theorem insertAnswered_frame (a : InsertAnswer) (s : State) : insertAnswered a s =
    { s with
      sup := { s.sup with links := (insertAnswered a s).sup.links }
      ctl := { s.ctl with queue := (insertAnswered a s).ctl.queue } } := by
  unfold insertAnswered
  split
  · rfl
  · exact linkAnswered_frame a.link s

theorem planningInsertAnswerStep_eq (hsv : s.eng.service = some sv) (hreq : sv.req = .planning r) (hawaiting : sv.awaiting = true)
    (hmail : s.mail.engineAnswers = .inserted a :: rest) : planningInsertAnswerStep s =
      let t := insertAnswered a (answerTaken rest s)
      if a.result = .ok then answerPlanning r sv (if sv.cancelMark then .cancelled else .ok) sv.cancelMark a.roles none t
      else if sv.cancelMark then answerPlanning r sv .cancelled false [] none t
      else if a.result = .contended then
        if sv.restarts < 3 then setService (some (beginAttempt r { sv with restarts := sv.restarts + 1 } t)) t
        else answerPlanning r sv .contended false a.roles none t
      else answerPlanning r sv a.result false [] none t := by
  simp only [planningInsertAnswerStep, hsv, hreq, hawaiting, hmail]
  cases hresult : a.result <;> cases sv.cancelMark <;> rfl

end

/-- Settles O32: the attempt keeps the request in service, and each end of it answers the supervisor once. -/
theorem planningAttempts : Obligations.PlanningAttempts := by
  intro s sv r hsv hreq w changed order ended
  obtain ⟨hwreq, -, -, hrestarts, hattempts, -⟩ := finishAttempt_same r s 2 sv
  have answered {c : Instr} {result : ResultCode} {after : Bool} {roles : List RoleAnswer} {nothing : Option Role} {v : Service}
      {u : State} (hexec : exec c s = .next (finish s (answerPlanning r v result after roles nothing u)))
      (hu : u = { s with
        sup := { s.sup with links := u.sup.links }, ctl := { s.ctl with queue := u.ctl.queue }
        mail.engineAnswers := u.mail.engineAnswers })
      (hv : v.attempts = sv.attempts) (hgen : v.genChanged = if sv.awaiting then sv.genChanged else changed) :
      ended c result after roles nothing := by
    refine ⟨_, planAnswerOf r v result after roles nothing, hexec, ?_, rfl, rfl, rfl, rfl, hv, rfl, rfl, hgen, rfl, ?_⟩
    · rw [hu]; rfl
    · rw [hu]; rfl
  have hgen (hsearching : sv.awaiting = false) :
      (attemptEnd r s sv).genChanged = if sv.awaiting then sv.genChanged else changed := by
    rw [attemptEnd_genChanged, hsearching]
    rfl
  refine ⟨fun hsearching hmark => ?cancelled, fun x hsearching hmark hrole => ?nothing,
    fun hsearching hmark hrole hbarred => ?offered, fun a rest hawaiting hmail => ?answer, fun n v => ?attempt⟩
  case cancelled =>
    exact answered (u := s) (next_finish (planningAttemptEndStep_marked hsv hreq hsearching hmark)) rfl hattempts
      (hgen hsearching)
  case nothing =>
    exact answered (u := s) (next_finish (planningAttemptEndStep_nothing hsv hreq hsearching hmark hrole)) rfl
      hattempts (hgen hsearching)
  case offered =>
    have hstep := planningAttemptEndStep_offers hsv hreq hsearching hmark hrole
    rw [sendEngineInsert] at hstep
    exact ⟨planningAttemptEndStep s, { attemptEnd r s sv with awaiting := true }, _, rfl, rfl, hwreq.trans hreq, rfl, hattempts,
      hrestarts, attemptEnd_genChanged, rfl, hstep.trans (if_neg (Bool.eq_false_iff.1 hbarred))⟩
  case answer =>
    have htaken := insertAnswered_frame a (answerTaken rest s)
    have hgen : sv.genChanged = if sv.awaiting then sv.genChanged else changed := by rw [hawaiting]; rfl
    have hstep := planningInsertAnswerStep_eq hsv hreq hawaiting hmail
    have answeredBy {result : ResultCode} {after : Bool} {roles : List RoleAnswer}
        (h : planningInsertAnswerStep s = answerPlanning r sv result after roles none (insertAnswered a (answerTaken rest s))) :
        ended .planningInsertAnswer result after roles none :=
      answered (next_finish h) (by rw [htaken]; rfl) rfl hgen
    refine ⟨fun hok => answeredBy ?_, fun hmark hne => answeredBy ?_, fun hmark hc hthree => answeredBy ?_,
      fun hmark hne hnc => answeredBy ?_, fun hmark hc hfewer => ?again⟩
    · rw [hstep]
      simp only [hok, if_true]
    · rw [hstep]
      simp only [hne, hmark, if_true, if_false]
    · rw [hstep]
      simp [hc, hmark, not_lt.2 hthree]
    · rw [hstep]
      simp [hne, hnc, hmark]
    case again =>
      refine ⟨planningInsertAnswerStep s,
        beginAttempt r { sv with restarts := sv.restarts + 1 } (insertAnswered a (answerTaken rest s)), rfl, ?_⟩
      have hagain : planningInsertAnswerStep s = setService (some (beginAttempt r { sv with restarts := sv.restarts + 1 }
          (insertAnswered a (answerTaken rest s)))) (insertAnswered a (answerTaken rest s)) := by
        rw [hstep]
        simp [hc, hmark, hfewer]
      have hsearch {x : Role} := beginAttempt_search (r := r) (v := { sv with restarts := sv.restarts + 1 }) (x := x)
        (t := insertAnswered a (answerTaken rest s)) (s := s) (by rw [htaken]; rfl) (by rw [htaken]; rfl) (by rw [htaken]; rfl)
      rw [beginAttempt_eq] at hsearch hagain ⊢
      refine ⟨by rw [hagain]; rfl, rfl, rfl, rfl, rfl, hreq, rfl, rfl, fun x hx => hsearch hx, ?_⟩
      rw [hagain, htaken]
      rfl
  case attempt =>
    refine ⟨rfl, finishAttempt_none, fun x hrole => ?_⟩
    intro e
    refine ⟨finishAttempt_empty hrole, fun code margin l hbest => ?_⟩
    have hfound := finishAttempt_found (r := r) (n := n) hrole (show e.best ≠ [] by rw [hbest]; exact List.cons_ne_nil _ _)
    intro chosen
    refine ⟨fun htodo => ?_, fun y ys htodo => ?_⟩
    · rw [hfound, nextRole_last (v := { v with search := e }) hrole hbest htodo, finishAttempt_none rfl]
    · rw [hfound, nextRole_more (v := { v with search := e }) hrole hbest htodo]

end Sys2Proof.Machine
end

section
/-! PROOFS. O18: the places of the plan queue, CANCEL by where a request stands, and a link's request (R26, R42, R43, R52, R156). -/

namespace Sys2Proof.Machine

/-! ### The first element that satisfies a predicate -/

section
variable {α : Type} {p : α → Bool} {l : List α}

theorem takeFirst_none (h : ∀ x ∈ l, p x = false) : takeFirst p l = none := by
  induction l with
  | nil => rfl
  | cons y l ih =>
    obtain ⟨hy, hl⟩ := List.forall_mem_cons.1 h
    rw [takeFirst, hy, ih hl]
    rfl

theorem takeFirst_append {a b : List α} {x : α} (ha : ∀ y ∈ a, p y = false) (hx : p x = true) :
    takeFirst p (a ++ x :: b) = some (x, a ++ b) := by
  induction a with
  | nil => rw [List.nil_append, takeFirst, hx]; rfl
  | cons y a ih =>
    obtain ⟨hy, ha⟩ := List.forall_mem_cons.1 ha
    rw [List.cons_append, takeFirst, hy, ih ha]
    rfl

end

/-! ### CANCEL (R52) -/

section
variable {s : State} {link seq : Nat} {rest : List (Nat × Nat)}

/-- A planning request is the one of this link and sequence. -/
def PlanningReq.isOf (link seq : Nat) (r : PlanningReq) : Bool := r.link = link && r.seq = seq

theorem PlanningReq.isOf_iff {r : PlanningReq} : r.isOf link seq = true ↔ r.link = link ∧ r.seq = seq := by
  simp [PlanningReq.isOf]

theorem PlanningReq.not_isOf {r : PlanningReq} (h : ¬(r.link = link ∧ r.seq = seq)) : r.isOf link seq = false :=
  Bool.eq_false_iff.2 (mt PlanningReq.isOf_iff.1 h)

theorem PlanReq.not_isPlanning {l : List PlanReq} (h : ∀ x, .planning x ∈ l → ¬(x.link = link ∧ x.seq = seq)) :
    ∀ y ∈ l, y.isPlanning link seq = false := by
  intro y hy
  cases y with
  | planning r => exact PlanningReq.not_isOf (h r hy)
  | _ => rfl

/-- The state with the CANCEL taken. -/
def cancelTaken (rest : List (Nat × Nat)) (s : State) : State := { s with mail.cancels := rest }

theorem cancelStep_standby {a b : List PlanningReq} {r : PlanningReq} (hmail : s.mail.cancels = (link, seq) :: rest)
    (hstandby : s.eng.standby = a ++ r :: b) (hr : r.isOf link seq = true) (ha : ∀ x ∈ a, x.isOf link seq = false) :
    cancelStep s = answerUnstarted r { cancelTaken rest s with eng.standby := a ++ b } := by
  have htake : takeFirst (PlanningReq.isOf link seq) s.eng.standby = some (r, a ++ b) := hstandby ▸ takeFirst_append ha hr
  unfold PlanningReq.isOf at htake
  simp only [cancelStep, hmail, htake]
  rfl

section
variable (hmail : s.mail.cancels = (link, seq) :: rest) (hstandby : ∀ x ∈ s.eng.standby, x.isOf link seq = false)
include hmail hstandby

theorem cancelStep_queue {a b : List PlanReq} {r : PlanningReq} (hqueue : s.eng.queue = a ++ .planning r :: b)
    (hr : r.isOf link seq = true) (ha : ∀ y ∈ a, y.isPlanning link seq = false) :
    cancelStep s = answerUnstarted r { cancelTaken rest s with eng.queue := a ++ b } := by
  have hnone := takeFirst_none hstandby
  have htake : takeFirst (PlanReq.isPlanning link seq) s.eng.queue = some (.planning r, a ++ b) :=
    hqueue ▸ takeFirst_append ha hr
  unfold PlanningReq.isOf at hnone
  simp only [cancelStep, hmail, hnone, htake]
  rfl

theorem cancelStep_service (hqueue : ∀ y ∈ s.eng.queue, y.isPlanning link seq = false) : cancelStep s =
    s.eng.service.elim (cancelTaken rest s) fun sv =>
      if sv.req.isPlanning link seq then setService (some { sv with cancelMark := true }) (cancelTaken rest s)
      else cancelTaken rest s := by
  have hnone := takeFirst_none hstandby
  have hnone' := takeFirst_none hqueue
  unfold PlanningReq.isOf at hnone
  simp only [cancelStep, hmail, hnone, hnone']
  cases s.eng.service <;> rfl

end

end

/-! ### The dispatch of a plan order (R42, R156) -/

section
variable {s : State} {cell : Nat} {rest : List Nat} {r : PlanReq} {p : PlanReq → Bool}

theorem Engine.freePlace_iff {e : Engine} : e.freePlace = true ↔ e.queue.length < 8 := decide_eq_true_iff

/-- The step of DISPATCH_CELL on a cell that holds a plan order: the cell is ACCEPTED and the order handed over. -/
theorem dispatchCellStep_plan (hwaiting : s.disp.waiting = none) (hintake : s.disp.intake = cell :: rest)
    (hready : byteAt s.mem (cellBase cell) = 1) (hparse : parseOrder s.mem cell = .taken (.plan r)) :
    dispatchCellStep s =
      handOver cell (.plan r) (writeCellState cell stAccepted (markClamped cell (Order.plan r).tag.clamped s)) := by
  have hst : ¬byteAt s.mem (cellBase cell) ≠ stReady := not_not.2 hready
  simp only [dispatchCellStep, hwaiting, hintake, dispatchCell, if_neg hst, hparse]

theorem dispatchPlanOrder_plan (hwaiting : s.disp.waiting = none) (hintake : s.disp.intake = cell :: rest)
    (hready : byteAt s.mem (cellBase cell) = 1) (hparse : parseOrder s.mem cell = .taken (.plan r)) :
    dispatchPlanOrder p s = if p r then dispatchCellStep s else s := by
  have hst : byteAt s.mem (cellBase cell) = stReady := hready
  simp only [dispatchPlanOrder, dispatchCellStep, hwaiting, hintake, if_pos hst, hparse]

/-- The CLAMPED flag is a byte of memory. -/
theorem markClamped_frame (b : Bool) (s : State) : markClamped cell b s = { s with mem := (markClamped cell b s).mem } := by
  unfold markClamped
  split <;> rfl

/-- The dispatch of a plan order joins it to the queue's tail when a place is free and nobody waits, and holds it at the head
otherwise. -/
theorem dispatchCellStep_places (hm : Memory.wf s.mem) (hwaiting : s.disp.waiting = none) (hintake : s.disp.intake = cell :: rest)
    (hready : byteAt s.mem (cellBase cell) = 1) (hparse : parseOrder s.mem cell = .taken (.plan r)) :
    ∃ m, byteAt m (cellBase cell) = 2 ∧ dispatchCellStep s =
      if s.eng.queue.length < 8 ∧ s.placeWanted = false then
        { s with mem := m, disp.intake := rest, eng.queue := s.eng.queue ++ [r] }
      else { s with mem := m, disp.waiting := some (.plan r) } := by
  obtain ⟨m, hmark, hwf⟩ : ∃ m, markClamped cell (Order.plan r).tag.clamped s = { s with mem := m } ∧ Memory.wf m :=
    ⟨_, markClamped_frame _ s, markClamped_wf hm⟩
  refine ⟨Memory.write m (cellBase cell) 2, ?_, ?_⟩
  · rw [byteAt, Memory.read_write hwf, if_pos rfl]
    rfl
  · rw [dispatchCellStep_plan hwaiting hintake hready hparse, hmark, handOver_plan,
      show rest = s.disp.intake.tail by rw [hintake]; rfl]
    exact if_congr (and_congr Engine.freePlace_iff Iff.rfl) rfl rfl

end

/-! ### Places (R43, R156) -/

section
variable {s : State}

section
variable (hfree : s.eng.queue.length < 8)
include hfree

theorem planPlaceGrantStep_audit (haudit : s.eng.auditPending = true) : planPlaceGrantStep s =
    { s with eng.queue := s.eng.queue ++ [.internalAudit], eng.auditPending := false } := by
  rw [planPlaceGrantStep, if_pos (Engine.freePlace_iff.2 hfree), if_pos haudit]

theorem planPlaceGrantStep_standby {r : PlanningReq} {rest : List PlanningReq} (haudit : s.eng.auditPending = false)
    (hstandby : s.eng.standby = r :: rest) : planPlaceGrantStep s =
      { s with eng.queue := s.eng.queue ++ [.planning r], eng.standby := rest } := by
  rw [planPlaceGrantStep, if_pos (Engine.freePlace_iff.2 hfree), if_neg (Bool.eq_false_iff.1 haudit)]
  simp only [hstandby]

theorem planPlaceGrantStep_order {r : PlanReq} {cell : Nat} {rest : List Nat} (haudit : s.eng.auditPending = false)
    (hstandby : s.eng.standby = []) (hwaiting : s.disp.waiting = some (.plan r)) (hintake : s.disp.intake = cell :: rest) :
    planPlaceGrantStep s =
      { s with eng.queue := s.eng.queue ++ [r], disp.waiting := none, disp.intake := rest } := by
  rw [planPlaceGrantStep, if_pos (Engine.freePlace_iff.2 hfree), if_neg (Bool.eq_false_iff.1 haudit)]
  simp only [hstandby, hwaiting, hintake, List.tail_cons]

end

theorem clearReserveGrantStep_moves {g : OrderTag} {f : Option Nat} {cell : Nat} {rest : List Nat}
    (hwaiting : s.disp.waiting = some (.clearReserve g f)) (hintake : s.disp.intake = cell :: rest)
    (hfew : clearReserveOrders s.ctl.queue < 6) : clearReserveGrantStep s =
      { s with
        disp.intake := rest, disp.waiting := none, disp.service := s.disp.service ++ [cell]
        ctl.queue := s.ctl.queue ++ [.clearReserve g f] } := by
  have hfew' : clearReserveOrders s.ctl.queue < Config.clearReservePlaces := hfew
  simp only [clearReserveGrantStep, hwaiting, hintake, if_pos hfew']

end

/-! ### A link's request (R26, R147) -/

section
variable {i : Nat} {r : CtlReq} {s : State}

theorem sendLink_sent (hkill : (s.link i).aux.killWait = []) (hfree : (s.link i).aux.outstanding = false) :
    sendLink i r s = pushRequest r (modAux i (fun a => { a with outstanding := true }) s) := by
  rw [sendLink, LinkAux.comesAfterKill, hkill, hfree]
  rfl

theorem sendLink_held (hkill : (s.link i).aux.killWait = []) (houtstanding : (s.link i).aux.outstanding = true) :
    sendLink i r s = modAux i (fun a => { a with held := a.held ++ [r] }) s := by
  rw [sendLink, LinkAux.comesAfterKill, hkill, houtstanding]
  rfl

theorem sendLink_afterKill (hkill : (s.link i).aux.killWait ≠ [])
    (hother : ∀ w ∈ (s.link i).aux.killWait, r.engineInsert w = false) :
    sendLink i r s = modAux i (fun a => { a with afterKill := a.afterKill ++ [r] }) s := by
  have hafter : (s.link i).aux.comesAfterKill r = true := by
    have hnone : (s.link i).aux.killWait.any r.engineInsert = false := List.any_eq_false.2 fun w hw => by simp [hother w hw]
    rw [LinkAux.comesAfterKill, hnone, decide_eq_true hkill]
    rfl
  exact if_pos hafter

end

/-- Settles O18, clause by clause from the steps of the grants, the dispatch, CANCEL and the gate. -/
theorem planQueuePlaces : Obligations.PlanQueuePlaces := by
  refine ⟨fun s hfree haudit => next_finish (planPlaceGrantStep_audit hfree haudit),
    fun s r rest hfree haudit hstandby => next_finish (planPlaceGrantStep_standby hfree haudit hstandby),
    fun s r cell rest hfree haudit hstandby hwaiting hintake =>
      next_finish (planPlaceGrantStep_order hfree haudit hstandby hwaiting hintake),
    fun s cell rest r hm hwaiting hintake hready hparse => ?orders,
    fun s g f cell rest hwaiting hintake hfew => next_finish (clearReserveGrantStep_moves hwaiting hintake hfew),
    fun s link seq rest hmail => ?cancel, fun s i r => ?send⟩
  case orders =>
    intro command nothing
    obtain ⟨m, haccepted, hplaces⟩ := dispatchCellStep_places hm hwaiting hintake hready hparse
    have made {c : Instr} {p : PlanReq → Bool} (hc : exec c s = .next (finish s (dispatchPlanOrder p s))) (hp : p r = true) :
        command c := by
      rw [dispatchPlanOrder_plan hwaiting hintake hready hparse, if_pos hp] at hc
      refine ⟨hc, dispatchCellStep s, hc, ?_, fun hjoins => ?_, fun hwaits => ?_⟩
      · rw [hplaces]
        split <;> exact haccepted
      · rw [hplaces, if_pos hjoins]
      · rw [hplaces, if_neg]
        rintro ⟨hroom, hunwanted⟩
        rcases hwaits with hfull | hwanted
        · omega
        · simp [hunwanted] at hwanted
    have idle {c : Instr} {p : PlanReq → Bool} (hc : exec c s = .next (finish s (dispatchPlanOrder p s))) (hp : ¬p r = true) :
        nothing c := by
      rwa [dispatchPlanOrder_plan hwaiting hintake hready hparse, if_neg hp] at hc
    refine ⟨fun g p hr => ?_, fun g p hr => ?_, fun g hr => ?_⟩
    · subst hr
      exact ⟨made rfl rfl, idle rfl Bool.false_ne_true, idle rfl Bool.false_ne_true⟩
    · subst hr
      exact ⟨made rfl rfl, idle rfl Bool.false_ne_true, idle rfl Bool.false_ne_true⟩
    · subst hr
      exact ⟨made rfl rfl, idle rfl Bool.false_ne_true, idle rfl Bool.false_ne_true⟩
  case cancel =>
    intro mine answer
    have answers {r : PlanningReq} (hr : mine r) (u : State) :
        answerUnstarted r u = { u with mail.planAnswers := u.mail.planAnswers ++ [answer] } := by
      obtain ⟨hlink, hseq⟩ := hr
      rw [answerUnstarted, hlink, hseq]
    have absent {l : List PlanningReq} (h : ∀ x ∈ l, ¬mine x) : ∀ x ∈ l, x.isOf link seq = false :=
      fun x hx => PlanningReq.not_isOf (h x hx)
    refine ⟨fun a r b hstandby hr ha => next_finish ?_, fun a r b hstandby hqueue hr ha => next_finish ?_,
      fun sv r hstandby hqueue hsv hreq hr => next_finish ?_, fun hstandby hqueue hservice => next_finish ?_⟩
    · rw [cancelStep_standby hmail hstandby (PlanningReq.isOf_iff.2 hr) (absent ha), answers hr]
      rfl
    · rw [cancelStep_queue hmail (absent hstandby) hqueue (PlanningReq.isOf_iff.2 hr) (PlanReq.not_isPlanning ha), answers hr]
      rfl
    · have hmine : sv.req.isPlanning link seq = true := by rw [hreq]; exact PlanningReq.isOf_iff.2 hr
      rw [cancelStep_service hmail (absent hstandby) (PlanReq.not_isPlanning hqueue), hsv, Option.elim_some, if_pos hmine]
      rfl
    · rw [cancelStep_service hmail (absent hstandby) (PlanReq.not_isPlanning hqueue)]
      cases hsv : s.eng.service with
      | none => rfl
      | some sv =>
        have hother : ¬sv.req.isPlanning link seq = true := by
          cases hreq : sv.req with
          | planning r => exact mt PlanningReq.isOf_iff.1 (hservice sv r hsv hreq)
          | _ => exact Bool.false_ne_true
        rw [Option.elim_some, if_neg hother]
        rfl
  case send =>
    exact ⟨sendLink_sent, sendLink_held, sendLink_afterKill⟩

end Sys2Proof.Machine
end

section
/-! PROOFS. O27: PLAN_SERVICE_START takes the head of the plan queue, each kind by its rule (R44 to R46, R49, R50, R53). -/

namespace Sys2Proof.Machine

/-! ### The step -/

section
variable {s : State} {rest : List PlanReq}

/-- The state with the head of the plan queue taken. -/
def headTaken (rest : List PlanReq) (s : State) : State := { s with eng.queue := rest }

/-- The cell of an order goes into service, WORKING. -/
def cellWorks (g : OrderTag) (s : State) : State := beginWork g { s with disp.service := s.disp.service ++ [g.cell] }

/-- The measuring of an audit begins with the generation of the plan rules. -/
def auditBegins (c : Controller) : AuditRun := { AuditRun.idle with gen := c.ruleGen }

variable (hidle : s.eng.service = none)
include hidle

theorem planServiceStartStep_query {g : OrderTag} {p : PlanParams} (hq : s.eng.queue = .query g p :: rest) :
    planServiceStartStep s = setService (some { Service.idle (.query g p) with search := orderSearch s.ctl p false })
      (cellWorks g (headTaken rest s)) := by
  simp only [planServiceStartStep, hidle, hq]
  rfl

theorem planServiceStartStep_fill {g : OrderTag} {p : PlanParams} (hq : s.eng.queue = .fill g p :: rest) :
    planServiceStartStep s = fillNext g p (Service.idle (.fill g p)) (cellWorks g (headTaken rest s)) := by
  simp only [planServiceStartStep, hidle, hq]
  rfl

theorem planServiceStartStep_audit {g : OrderTag} (hq : s.eng.queue = .audit g :: rest) :
    planServiceStartStep s = setService (some { Service.idle (.audit g) with audit := auditBegins s.ctl })
      (cellWorks g (headTaken rest s)) := by
  simp only [planServiceStartStep, hidle, hq]
  rfl

theorem planServiceStartStep_internalAudit (hq : s.eng.queue = .internalAudit :: rest) :
    planServiceStartStep s = setService (some { Service.idle .internalAudit with audit := auditBegins s.ctl }) (headTaken rest s) := by
  simp only [planServiceStartStep, hidle, hq]
  rfl

theorem planServiceStartStep_planning {r : PlanningReq} (hq : s.eng.queue = .planning r :: rest) :
    planServiceStartStep s =
      setService (some (beginAttempt r (Service.idle (.planning r)) (headTaken rest s))) (headTaken rest s) := by
  simp only [planServiceStartStep, hidle, hq]
  rfl

end

/-! ### The cell of the order -/

section
variable {g : OrderTag} {s : State}

theorem cellWorks_wf (hm : Memory.wf s.mem) : Memory.wf (cellWorks g s).mem := Memory.wf_write hm ..

theorem orderWorks_cellWorks (hm : Memory.wf s.mem) : OrderWorks g s (cellWorks g s) := fun _ => Memory.read_write hm ..

/-- An order that ends in the step that takes it: its cell goes into service and out of it again. -/
theorem orderEnds_of_cellWorks {st x : Nat} {code : ResultCode} {t : State} (hm : Memory.wf s.mem)
    (h : OrderEnds g st code x (cellWorks g s) t) : OrderEnds g st code x s t := by
  obtain ⟨hshows, hstamp, houtside, hservice⟩ := h
  refine ⟨hshows, hstamp, fun a ha => ?_, hservice.trans ?_⟩
  · rw [houtside a ha, orderWorks_cellWorks hm a, if_neg (by omega)]
  · show (s.disp.service ++ [g.cell]).filter (· ≠ g.cell) = _
    rw [List.filter_append]
    simp

end

/-! ### The first search of an attempt (R46) -/

section
variable {s : State} {r : PlanningReq} {chosen : List (Role × Nat × Int)} {x : Role} {gen : Nat}

/-- The codes given or chosen for the other role are tentative entries of it. -/
theorem tentativeFor_flatMap (link : Nat) (l : List (Role × Nat)) : (l.flatMap fun o => tentativeFor s link o.1 o.2) =
    l.filterMap fun o => (s.rolePlan link o.1).map fun q =>
      { code := o.2, cls := q.cls, zone := q.zone, owner := some (link, o.1) } := by
  induction l with
  | nil => rfl
  | cons o l ih =>
    rw [List.flatMap_cons, List.filterMap_cons, ih, tentativeFor]
    cases s.rolePlan link o.1 <;> rfl

/-- A role that the definition does not declare has an empty window. -/
theorem roleSearch_undeclared (h : s.rolePlan r.link x = none) : ((roleSearch s r chosen x gen).toEnd s.ctl).best = [] := by
  simp only [roleSearch, h]
  rw [SearchRun.toEnd, SearchRun.run_of_finished rfl]
  rfl

end

/-- Settles O27, by the kind of the request at the head. -/
theorem serviceStartTakesTheHead : Obligations.ServiceStartTakesTheHead := by
  intro s rest hm hidle
  have begun {g : OrderTag} {v : Service} (h : planServiceStartStep s = setService (some v) (cellWorks g (headTaken rest s))) :
      OrderWorks g s (planServiceStartStep s) ∧ planServiceStartStep s = { s with
        mem := (planServiceStartStep s).mem, disp.service := s.disp.service ++ [g.cell], eng.queue := rest
        eng.service := some v } := by
    rw [h]
    exact ⟨orderWorks_cellWorks (s := headTaken rest s) hm, rfl⟩
  refine ⟨fun g p hq => ?query, fun g p hq hroom => ?fill, fun g p hq hfull => ?full, fun g hq => ?audit, fun hq => ?internal,
    fun r hq => ?planning, fun r chosen x gen => ⟨fun p hp => ?search, roleSearch_undeclared⟩,
    fun i x => ⟨fun hd => ?undefined, fun d hd => ?defined⟩⟩
  case query =>
    obtain ⟨hworks, hframe⟩ := begun (planServiceStartStep_query hidle hq)
    exact ⟨planServiceStartStep s, { Service.idle (.query g p) with search := orderSearch s.ctl p false }, rfl, hworks, rfl, rfl,
      rfl, rfl, rfl, rfl, rfl, rfl, rfl, rfl, hframe⟩
  case fill =>
    have hstep := planServiceStartStep_fill hidle hq
    rw [fillNext_room (s := cellWorks g (headTaken rest s)) hroom] at hstep
    obtain ⟨hworks, hframe⟩ := begun hstep
    exact ⟨planServiceStartStep s, { Service.idle (.fill g p) with search := orderSearch s.ctl p true }, rfl, hworks, rfl, rfl,
      rfl, rfl, hframe⟩
  case full =>
    have hstep := planServiceStartStep_fill hidle hq
    rw [fillNext_full (s := cellWorks g (headTaken rest s)) hfull] at hstep
    have hwf : Memory.wf (cellWorks g (headTaken rest s)).mem := cellWorks_wf (s := headTaken rest s) hm
    refine ⟨planServiceStartStep s, rfl, ?_⟩
    rw [hstep]
    refine ⟨orderEnds_of_cellWorks (s := headTaken rest s) hm (endFill_ends hwf), endFill_added hwf, endFill_restarts hwf, ?_, ?_⟩
    · rw [endFill_frame]
      rfl
    · rw [endFill_frame]
      dsimp only [cellWorks, headTaken, beginWork, writeCellState]
      rw [hidle]
  case audit =>
    obtain ⟨hworks, hframe⟩ := begun (planServiceStartStep_audit hidle hq)
    exact ⟨planServiceStartStep s, { Service.idle (.audit g) with audit := auditBegins s.ctl }, rfl, hworks, rfl, rfl, rfl, rfl,
      hframe⟩
  case internal =>
    exact ⟨{ Service.idle .internalAudit with audit := auditBegins s.ctl }, rfl, rfl, rfl,
      next_finish (planServiceStartStep_internalAudit hidle hq)⟩
  case planning =>
    intro order
    have hexec : exec .planServiceStart s = _ :=
      next_finish (planServiceStartStep_planning hidle hq)
    refine ⟨beginAttempt r (Service.idle (.planning r)) (headTaken rest s), ?_⟩
    have hsearch {x : Role} := beginAttempt_search (r := r) (v := Service.idle (.planning r)) (x := x) (t := headTaken rest s) (s := s)
      rfl rfl rfl
    rw [beginAttempt_eq] at hexec hsearch ⊢
    exact ⟨rfl, rfl, rfl, rfl, rfl, rfl, rfl, rfl, rfl, fun x hx => hsearch hx, hexec⟩
  case search =>
    simp only [roleSearch, hp, tentativeFor_flatMap]
    rfl
  case undefined => simp only [State.rolePlan, hd]
  case defined => simp only [State.rolePlan, hd]

end Sys2Proof.Machine
end

section
/-! PROOFS. The unit link, kill control and the part state under the operations of the other blocks: what none of them changes. -/

namespace Sys2Proof.Machine

/-- Kill control without the filtered line and its width. -/
def KillControl.core (k : KillControl) : KillControl := { k with filter := Filter.reset, width := 0 }

/-- The unit link, the kill state with its MUTEs, and the part state. -/
structure UnitView where
  ul : UnitLink
  kc : KillControl
  part : PartState

def State.unit (s : State) : UnitView := { ul := s.ul, kc := s.kc.core, part := s.part }

/-- Of the unit link the transaction machine and the KILL class alone. -/
structure LineView where
  xact : Option Transaction
  killQ : List KillReq
  kc : KillControl
  part : PartState

def UnitView.line (v : UnitView) : LineView := { xact := v.ul.xact, killQ := v.ul.killQ, kc := v.kc, part := v.part }

/-! A state that an operation rebuilds from its components is read component by component, and its view put together again. -/

@[simp] theorem unit_mk (p : PartState) (m : List Host.Cell) (a b : Lock) (d : Dispatcher) (ad : Adoption) (c : Controller)
    (e : Engine) (su : Supervisor) (u : UnitLink) (ta : TallyUnit) (ro : Router) (tb : Timebase) (k : KillControl) (j : Journal)
    (ma : Mail) (n : Counts) (o : Nat) (q : List Instr) :
    (State.mk p m a b d ad c e su u ta ro tb k j ma n o q).unit = UnitView.mk u k.core p := rfl

@[simp] theorem unit_eta (s : State) : UnitView.mk s.ul s.kc.core s.part = s.unit := rfl
@[simp] theorem line_mk (u : UnitLink) (k : KillControl) (p : PartState) :
    (UnitView.mk u k p).line = LineView.mk u.xact u.killQ k p := rfl
@[simp] theorem line_eta (s : State) : LineView.mk s.ul.xact s.ul.killQ s.kc.core s.part = s.unit.line := rfl

@[simp] theorem ite_unit {p : Prop} [Decidable p] (a b : State) : (if p then a else b).unit = if p then a.unit else b.unit :=
  apply_ite ..
@[simp] theorem ite_line {p : Prop} [Decidable p] (a b : UnitView) : (if p then a else b).line = if p then a.line else b.line :=
  apply_ite ..

@[simp] theorem foldl_unit {α : Type} {f : State → α → State} (h : ∀ s a, (f s a).unit = s.unit) (l : List α) (s : State) :
    (l.foldl f s).unit = s.unit := by
  induction l generalizing s with
  | nil => rfl
  | cons a l ih => rw [List.foldl_cons, ih, h]

@[simp] theorem foldl_line {α : Type} {f : State → α → State} (h : ∀ s a, (f s a).unit.line = s.unit.line) (l : List α)
    (s : State) : (l.foldl f s).unit.line = s.unit.line := by
  induction l generalizing s with
  | nil => rfl
  | cons a l ih => rw [List.foldl_cons, ih, h]

/-! ### Single changes -/

@[simp] theorem finish_unit (a s : State) : (finish a s).unit = s.unit := rfl
@[simp] theorem finishPath_unit (path : List State) (a s : State) : (finishPath path a s).unit = s.unit := rfl
@[simp] theorem report_unit (o : Owner) (r : JReport) (s : State) : (report o r s).unit = s.unit := rfl
@[simp] theorem raise_unit (b : BitVec 5) (s : State) : (raise b s).unit = s.unit := rfl
@[simp] theorem alarm_unit (s : State) : (alarm s).unit = s.unit := rfl
@[simp] theorem writeCellState_unit (c v : Nat) (s : State) : (writeCellState c v s).unit = s.unit := rfl
@[simp] theorem writeHeader_unit (c : Nat) (k : ResultCode) (x : Option Nat) (s : State) : (writeHeader c k x s).unit = s.unit := rfl
@[simp] theorem beginWork_unit (g : OrderTag) (s : State) : (beginWork g s).unit = s.unit := rfl
@[simp] theorem pushRequest_unit (r : CtlReq) (s : State) : (pushRequest r s).unit = s.unit := rfl
@[simp] theorem modAux_unit (i : Nat) (f : LinkAux → LinkAux) (s : State) : (modAux i f s).unit = s.unit := rfl
@[simp] theorem placeControl_line (r : ControlReq) (s : State) : (placeControl r s).unit.line = s.unit.line := rfl
@[simp] theorem withdrawControl_line (l : Nat) (s : State) : (withdrawControl l s).unit.line = s.unit.line := rfl
@[simp] theorem withdrawForKill_line (l : Nat) (s : State) : (withdrawForKill l s).unit.line = s.unit.line := rfl
@[simp] theorem placeCue_line (r : CueReq) (s : State) : (placeCue r s).unit.line = s.unit.line := rfl
@[simp] theorem withdrawCue_line (c : Nat) (s : State) : (withdrawCue c s).unit.line = s.unit.line := rfl
@[simp] theorem placeSweep_line (r : SweepReq) (s : State) : (placeSweep r s).unit.line = s.unit.line := rfl
@[simp] theorem setService_unit (v : Option Service) (s : State) : (setService v s).unit = s.unit := rfl
@[simp] theorem leaveIntake_unit (s : State) : (leaveIntake s).unit = s.unit := rfl
@[simp] theorem enterService_unit (c : Nat) (s : State) : (enterService c s).unit = s.unit := rfl
@[simp] theorem holdAtHead_unit (o : Order) (s : State) : (holdAtHead o s).unit = s.unit := rfl
@[simp] theorem setLinkPending_unit (b : Bool) (i : Nat) (s : State) : (setLinkPending b i s).unit = s.unit := rfl
@[simp] theorem setCamPending_unit (b : Bool) (c : Nat) (s : State) : (setCamPending b c s).unit = s.unit := rfl
@[simp] theorem setDestPending_unit (b : Bool) (d : Nat) (s : State) : (setDestPending b d s).unit = s.unit := rfl
@[simp] theorem markWalking_unit (s : State) : (markWalking s).unit = s.unit := rfl
@[simp] theorem appendEntry_unit (e : JEntry) (s : State) : (appendEntry e s).unit = s.unit := rfl
@[simp] theorem setSlot_unit (k : Nat) (e : Option CarrierEntry) (s : State) : (setSlot k e s).unit = s.unit := rfl
@[simp] theorem setReserve_unit (l : List ReserveEntry) (c : Nat) (ch : ReserveChange) (o : Nat) (s : State) : (setReserve l c ch o s).unit = s.unit := rfl
@[simp] theorem handKill_unit (b : Bool) (s : State) : (handKill b s).unit = s.unit := rfl
@[simp] theorem missUnit_unit (u : Nat) (s : State) : (missUnit u s).unit = s.unit := rfl
@[simp] theorem distribute_unit (r : Report) (s : State) : (distribute r s).unit = s.unit := rfl
@[simp] theorem tellSupervisor_unit (r : ControlReq) (x : ControlResult) (s : State) : (tellSupervisor r x s).unit = s.unit := rfl

/-! ### Orders, answers and the grant of a place -/

@[simp] theorem doneOrder_unit (o : Owner) (g : OrderTag) (res : Results) (k : ResultCode) (x : Option Nat) (s : State) :
    (doneOrder o g res k x s).unit = s.unit := by
  rw [doneOrder_frame]
  rfl

@[simp] theorem refuseOrder_unit (o : Owner) (g : OrderTag) (res : Results) (k : ResultCode) (x : Option Nat) (s : State) :
    (refuseOrder o g res k x s).unit = s.unit := by
  rw [refuseOrder_frame]
  rfl

@[simp] theorem answerInsert_unit (byEngine : Bool) (a : InsertAnswer) (s : State) :
    (answerInsert byEngine a s).unit = s.unit := by
  cases byEngine <;> rfl

@[simp] theorem clearReserveGrantStep_unit (s : State) : (clearReserveGrantStep s).unit = s.unit := by
  unfold clearReserveGrantStep
  (repeat' split) <;> simp

/-! ### The gate -/

@[simp] theorem sendLink_unit (i : Nat) (r : CtlReq) (s : State) : (sendLink i r s).unit = s.unit := by
  rw [sendLink_frame]
  rfl

@[simp] theorem linkAnswered_unit (i : Nat) (s : State) : (linkAnswered i s).unit = s.unit := by
  rw [linkAnswered_frame]
  rfl

@[simp] theorem answerCancelled_unit (r : CtlReq) (s : State) : (answerCancelled r s).unit = s.unit := by
  cases r <;> simp [answerCancelled]

@[simp] theorem dropHeld_unit (s : State) (r : CtlReq) : (dropHeld s r).unit = s.unit := by
  unfold dropHeld
  split <;> simp

@[simp] theorem insertAnswered_unit (a : InsertAnswer) (s : State) : (insertAnswered a s).unit = s.unit := by
  simp [insertAnswered]

@[simp] theorem sendPurge_unit (i : Nat) (s : State) : (sendPurge i s).unit = s.unit := by simp [sendPurge]

@[simp] theorem sendEngineInsert_unit (i seq : Nat) (roles : List (RolePlan × Nat)) (s : State) :
    (sendEngineInsert i seq roles s).unit = s.unit := by
  unfold sendEngineInsert
  split <;> simp

/-! ### The controller -/

@[simp] theorem dropReserve_unit (p : ReserveEntry → Bool) (change : ReserveChange) (s : State) :
    (dropReserve p change s).unit = s.unit :=
  foldl_unit (f := fun s (e : ReserveEntry) => report .controller (reserveReport e.code change 0 s) s) (fun _ _ => rfl) _ _

@[simp] theorem spacingRemoval_unit (e : CarrierEntry) (s : State) : (spacingRemoval e s).unit = s.unit := by
  simp [spacingRemoval]

@[simp] theorem insertEntry_unit (e : CarrierEntry) (s : State) : (insertEntry e s).unit = s.unit := by
  unfold insertEntry
  split <;> simp

@[simp] theorem insertPassed_unit (link : Nat) (l : List (RolePlan × RoleAnswer)) (s : State) :
    (insertPassed link l s).2.unit = s.unit := by
  induction l generalizing s with
  | nil => rfl
  | cons a l ih => simp [insertPassed, ih]

@[simp] theorem removeSpaced_unit (link : Nat) (l : List (RolePlan × RoleAnswer)) (s : State) :
    (removeSpaced link l s).unit = s.unit := by simp [removeSpaced]

@[simp] theorem insertStep_unit (s : State) : (insertStep s).unit = s.unit := by
  unfold insertStep insertRequest
  dsimp only
  (repeat' split) <;> simp_all

@[simp] theorem walkReserve_unit (link : Nat) (p : RolePlan) (t : List Carrier) (n pos : Nat) (s : State) :
    (walkReserve link p t n pos s).2.unit = s.unit := by
  induction n generalizing pos s with
  | zero => rfl
  | succ n ih =>
    unfold walkReserve
    dsimp only
    (repeat' split) <;> simp [ih]

@[simp] theorem takeSpares_unit (link : Nat) (t : List Carrier) (h : List HeldSpare) (l : List RolePlan) (s : State) :
    (takeSpares link t h l s).2.unit = s.unit := by
  induction l generalizing t h s with
  | nil => rfl
  | cons p l ih =>
    have hw := walkReserve_unit link p t (s.ctl.reserve.length + 1) 0 s
    unfold takeSpares
    split
    · simpa [*] using hw
    · next heq =>
      rw [heq] at hw
      dsimp only at hw ⊢
      split <;> next h' => exact ((congrArg (·.2.unit) h').symm.trans (ih ..)).trans hw

@[simp] theorem giveBack_unit (h : HeldSpare) (s : State) : (giveBack h s).unit = s.unit := rfl

@[simp] theorem takeStep_unit (s : State) : (takeStep s).unit = s.unit := by
  unfold takeStep
  split
  · next link seq roles rest _ =>
    have hr : (takeRequest link seq roles { s with ctl.queue := rest }).2.unit = s.unit := by
      have ht := takeSpares_unit link [] [] (outboundFirst RolePlan.role roles) { s with ctl.queue := rest }
      unfold takeRequest
      dsimp only
      split
      · simp
      · split <;> next h =>
          rw [h] at ht
          simpa [foldl_unit (f := fun s h => giveBack h s) fun _ _ => rfl] using ht
    simpa using hr
  · rfl

@[simp] theorem learnRoles_unit (link zone : Nat) (l : List (Role × Nat × Nat)) (s : State) :
    (learnRoles link zone l s).2.unit = s.unit := by
  induction l generalizing s with
  | nil => rfl
  | cons a l ih =>
    obtain ⟨role, code, cls⟩ := a
    have hr : (learnRole link zone role code cls s).2.unit = s.unit := by
      unfold learnRole
      dsimp only
      (repeat' split) <;> simp
    simp [learnRoles, ih, hr]

@[simp] theorem learnStep_unit (s : State) : (learnStep s).unit = s.unit := by
  unfold learnStep
  split <;> simp

@[simp] theorem updateChanges_unit (link : Nat) (l : List CarrierChange) (s : State) :
    (updateChanges link l s).2.2.unit = s.unit := by
  induction l generalizing s with
  | nil => rfl
  | cons c l ih =>
    have hc : (updateChange link c s).2.2.unit = s.unit := by
      unfold updateChange
      (repeat' split) <;> simp [removeSlot]
    simp [updateChanges, ih, hc]

@[simp] theorem reevaluate_unit (gone : List CarrierEntry) (s : State) : (reevaluate gone s).unit = s.unit := by
  have hlift (s : State) (k : Nat) : (liftConflict gone s k).unit = s.unit := by
    unfold liftConflict
    (repeat' split) <;> simp
  simp [reevaluate, hlift]

@[simp] theorem updateStep_unit (s : State) : (updateStep s).unit = s.unit := by
  unfold updateStep
  dsimp only
  (repeat' split) <;> simp

@[simp] theorem purgeLink_unit (link : Nat) (l : List Nat) (s : State) : (purgeLink link l s).2.unit = s.unit := by
  induction l generalizing s with
  | nil => rfl
  | cons k l ih =>
    unfold purgeLink
    dsimp only
    (repeat' split) <;> simp [ih, removeSlot]

@[simp] theorem purgeStep_unit (s : State) : (purgeStep s).unit = s.unit := by
  unfold purgeStep
  split <;> simp

@[simp] theorem appendStep_unit (s : State) : (appendStep s).unit = s.unit := by
  unfold appendStep appendRequest
  dsimp only
  (repeat' split) <;> simp_all

@[simp] theorem clearReserveStep_unit (s : State) : (clearReserveStep s).unit = s.unit := by
  unfold clearReserveStep
  split <;> simp

@[simp] theorem remark_unit (s : State) : (remark s).unit = s.unit := by
  have hslot (s : State) (k : Nat) : (remarkSlot s k).unit = s.unit := by
    unfold remarkSlot
    split <;> simp
  simp [remark, hslot]

@[simp] theorem queueInternalAudit_unit (s : State) : (queueInternalAudit s).unit = s.unit := by simp [queueInternalAudit]

@[simp] theorem adoptStep_unit (s : State) : (adoptStep s).unit = s.unit := by
  unfold adoptStep
  split <;> simp [pruneReserve]

@[simp] theorem markStep_unit (s : State) : (markStep s).unit = s.unit := by
  have hfinding (s : State) (f : Finding) : (applyFinding s f).unit = s.unit := by
    unfold applyFinding
    (repeat' split) <;> simp
  unfold markStep markRequest
  dsimp only
  (repeat' split) <;> simp [hfinding]

/-! ### The unit link -/

@[simp] theorem trySweep_line (s : State) : (trySweep s).unit.line = s.unit.line := by
  unfold trySweep
  (repeat' split) <;> simp

@[simp] theorem sweepSpacingExpiryStep_line (s : State) : (sweepSpacingExpiryStep s).unit.line = s.unit.line := by
  simp [sweepSpacingExpiryStep]

@[simp] theorem sweepPollEnded_line (unit : Nat) (s : State) : (sweepPollEnded unit s).unit.line = s.unit.line := by
  simp [sweepPollEnded]

@[simp] theorem placeAttention_line (s : State) : (placeAttention s).unit.line = s.unit.line := by
  unfold placeAttention
  dsimp only
  (repeat' split) <;> simp

@[simp] theorem beginRound_line (s : State) : (beginRound s).unit.line = s.unit.line := by simp [beginRound]

@[simp] theorem uatnAssertedStep_line (s : State) : (uatnAssertedStep s).unit.line = s.unit.line := by
  simp [uatnAssertedStep]

@[simp] theorem uatnDeassertedStep_line (s : State) : (uatnDeassertedStep s).unit.line = s.unit.line := rfl

@[simp] theorem attentionPollEnded_line (unit : Nat) (quiet : Bool) (s : State) :
    (attentionPollEnded unit quiet s).unit.line = s.unit.line := by simp [attentionPollEnded]

@[simp] theorem rebuildUnits_line (s : State) : (rebuildUnits s).unit.line = s.unit.line := by simp [rebuildUnits]

@[simp] theorem tellLineTest_unit (r : LoopResult) (s : State) : (tellLineTest r s).unit = s.unit := rfl

@[simp] theorem lineTestGoOn_line (t : LineTest) (s : State) : (lineTestGoOn t s).unit.line = s.unit.line := by
  unfold lineTestGoOn
  split <;> simp

@[simp] theorem lineTestStep_line (s : State) : (lineTestStep s).unit.line = s.unit.line := by
  unfold lineTestStep
  dsimp only
  (repeat' split) <;> simp

@[simp] theorem loopOutcomeStep_line (s : State) : (loopOutcomeStep s).unit.line = s.unit.line := by
  unfold loopOutcomeStep
  (repeat' split) <;> simp

/-! ### Tally -/

@[simp] theorem setCam_unit (c : Nat) (stamp : Timestamp) (r : CamRec) (s : State) :
    (setCam c stamp r s).unit = s.unit := by simp [setCam]

@[simp] theorem modCam_unit (c : Nat) (f : CamRec → CamRec) (s : State) : (modCam c f s).unit = s.unit := by
  simp [modCam]

@[simp] theorem resolveCam_unit (stamp : Timestamp) (s : State) (c : Nat) :
    (resolveCam stamp s c).unit = s.unit := by simp [resolveCam]

@[simp] theorem resolveColours_unit (stamp : Timestamp) (s : State) :
    (resolveColours stamp s).unit = s.unit := by simp [resolveColours]

@[simp] theorem contactInputChangeStep_unit (n : Nat) (active : Bool) (s : State) :
    (contactInputChangeStep n active s).unit = s.unit := by simp [contactInputChangeStep]

@[simp] theorem contactEdge_unit (n : Nat) (s : State) : (contactEdge n s).unit = s.unit := by
  simp [contactEdge]

@[simp] theorem contactFilterRunCompleteStep_unit (n : Nat) (s : State) :
    (contactFilterRunCompleteStep n s).unit = s.unit := by simp [contactFilterRunCompleteStep]

@[simp] theorem setTallyStep_unit (s : State) : (setTallyStep s).unit = s.unit := by
  unfold setTallyStep
  split <;> simp

@[simp] theorem queueCue_line (c : Nat) (resend : Bool) (s : State) : (queueCue c resend s).unit.line = s.unit.line := by
  unfold queueCue
  (repeat' split) <;> simp

@[simp] theorem withdrawCues_line (c : Nat) (s : State) : (withdrawCues c s).unit.line = s.unit.line := rfl

@[simp] theorem alarmTest_unit (r : CamRec) (s : State) : (alarmTest r s).unit = s.unit := by simp [alarmTest]

@[simp] theorem setDelivery_unit (c : Nat) (d : Delivery) (s : State) : (setDelivery c d s).unit = s.unit := by
  simp [setDelivery]

@[simp] theorem decideDelivery_line (c : Nat) (s : State) : (decideDelivery c s).unit.line = s.unit.line := by
  simp [decideDelivery]

@[simp] theorem resolveLink_line (s : State) (c : Nat) : (resolveLink s c).unit.line = s.unit.line := by
  simp [resolveLink]

@[simp] theorem tallyStationAdoptionStep_line (s : State) : (tallyStationAdoptionStep s).unit.line = s.unit.line := by
  unfold tallyStationAdoptionStep
  split <;> simp

@[simp] theorem linkMoved_line (old new : LinkState) (s : State) (c : Nat) :
    (linkMoved old new s c).unit.line = s.unit.line := by simp [linkMoved]

@[simp] theorem linkStateToTallyStep_line (s : State) : (linkStateToTallyStep s).unit.line = s.unit.line := by
  unfold linkStateToTallyStep
  split <;> simp

@[simp] theorem applyCam_line (s : State) (c : Nat) : (applyCam s c).unit.line = s.unit.line := by simp [applyCam]

@[simp] theorem driveLamps_unit (before : List Lamp) (s : State) : (driveLamps before s).unit = s.unit := by
  simp [driveLamps]

@[simp] theorem handColours_unit (cams : List Nat) (s : State) : (handColours cams s).unit = s.unit := by
  simp [handColours]

@[simp] theorem lampApplyStep_line (s : State) : (lampApplyStep s).unit.line = s.unit.line := by simp [lampApplyStep]

@[simp] theorem callMoved_line (s : State) (c : Nat) : (callMoved s c).unit.line = s.unit.line := by simp [callMoved]

@[simp] theorem callChangeStep_line (s : State) : (callChangeStep s).unit.line = s.unit.line := by
  unfold callChangeStep
  split <;> simp

@[simp] theorem goUnconfirmed_unit (c : Nat) (s : State) : (goUnconfirmed c s).unit = s.unit := by
  simp [goUnconfirmed]

@[simp] theorem cueOutcomeStep_line (s : State) : (cueOutcomeStep s).unit.line = s.unit.line := by
  unfold cueOutcomeStep
  split <;> simp

@[simp] theorem takeEcho_line (r : Report) (s : State) (c : Nat) : (takeEcho r s c).unit.line = s.unit.line := by
  unfold takeEcho
  dsimp only
  (repeat' split) <;> simp

@[simp] theorem tallyEchoReportStep_line (s : State) : (tallyEchoReportStep s).unit.line = s.unit.line := by
  unfold tallyEchoReportStep
  split <;> simp

@[simp] theorem tallyKillStateStep_line (s : State) : (tallyKillStateStep s).unit.line = s.unit.line := by
  unfold tallyKillStateStep
  split <;> simp

@[simp] theorem completeRun_unit (s : State) (n : Nat) : (completeRun s n).unit = s.unit := by
  simp [completeRun]

@[simp] theorem tallyCueAdoption_unit (map : List MapEntry) (widths : List Nat) (s : State) :
    (tallyCueAdoption map widths s).unit = s.unit := by simp [tallyCueAdoption]

@[simp] theorem tallyRun_line (s : State) : (tallyRun s).unit.line = s.unit.line := by simp [tallyRun]

/-! ### The timebase -/

@[simp] theorem applyRequest_unit (o : Output) (s : State) : (applyRequest o s).unit = s.unit := by
  unfold applyRequest
  split <;> simp

@[simp] theorem triggerRequests_unit (p : Triggers → Bool) (s : State) :
    (triggerRequests p s).unit = s.unit := by simp [triggerRequests]

@[simp] theorem stagedChangeStep_unit (s : State) : (stagedChangeStep s).unit = s.unit := by
  unfold stagedChangeStep
  split <;> simp

@[simp] theorem applyStep_unit (s : State) : (applyStep s).unit = s.unit := by
  unfold applyStep
  split <;> simp

@[simp] theorem applyAnswerStep_unit (s : State) : (applyAnswerStep s).unit = s.unit := by
  unfold applyAnswerStep
  (repeat' split) <;> simp

@[simp] theorem setClockStep_unit (s : State) : (setClockStep s).unit = s.unit := by
  unfold setClockStep
  split <;> simp

@[simp] theorem setWaitingClock_unit (s : State) : (setWaitingClock s).unit = s.unit := by
  unfold setWaitingClock
  split <;> simp

@[simp] theorem takeRate_unit (s : State) : (takeRate s).unit = s.unit := by
  unfold takeRate
  split <;> simp

@[simp] theorem boundary_unit (s : State) : (boundary s).unit = s.unit := by simp [boundary]

@[simp] theorem setReference_unit (locked : Bool) (s : State) : (setReference locked s).unit = s.unit := by
  simp [setReference]

@[simp] theorem internalBoundary_unit (s : State) : (internalBoundary s).unit = s.unit := by
  simp [internalBoundary]

@[simp] theorem tickTimebase_unit (s : State) : (tickTimebase s).unit = s.unit := by simp [tickTimebase]

@[simp] theorem frameBoundaryStep_unit (s : State) : (frameBoundaryStep s).unit = s.unit := by
  simp [frameBoundaryStep]

@[simp] theorem framePulseStep_unit (s : State) : (framePulseStep s).unit = s.unit := by simp [framePulseStep]

@[simp] theorem takeInputChangeStep_unit (active : Bool) (s : State) :
    (takeInputChangeStep active s).unit = s.unit := rfl

@[simp] theorem takeEdge_unit (s : State) : (takeEdge s).unit = s.unit := by simp [takeEdge]

@[simp] theorem takeFilterRunCompleteStep_unit (s : State) : (takeFilterRunCompleteStep s).unit = s.unit := by
  simp [takeFilterRunCompleteStep]

@[simp] theorem timebaseCueAdoption_unit (c : CueSettings) (s : State) :
    (timebaseCueAdoption c s).unit = s.unit := by simp [timebaseCueAdoption]

/-! ### Kill control -/

@[simp] theorem killInputChangeStep_unit (active : Bool) (s : State) :
    (killInputChangeStep active s).unit = s.unit := rfl

/-! ### The plan engine -/

@[simp] theorem queuePlanning_unit (r : PlanningReq) (s : State) : (queuePlanning r s).unit = s.unit := by
  simp [queuePlanning]

@[simp] theorem planPlaceGrantStep_unit (s : State) : (planPlaceGrantStep s).unit = s.unit := by
  unfold planPlaceGrantStep
  (repeat' split) <;> simp

@[simp] theorem endPlanOrder_unit (tag : OrderTag) (res : Results) (code : ResultCode) (s : State) :
    (endPlanOrder tag res code s).unit = s.unit := by simp [endPlanOrder]

@[simp] theorem endFill_unit (tag : OrderTag) (f : FillRun) (code : ResultCode) (s : State) :
    (endFill tag f code s).unit = s.unit := by simp [endFill]

@[simp] theorem fillNext_unit (tag : OrderTag) (p : PlanParams) (sv : Service) (s : State) :
    (fillNext tag p sv s).unit = s.unit := by simp [fillNext]

@[simp] theorem planServiceStartStep_unit (s : State) : (planServiceStartStep s).unit = s.unit := by
  unfold planServiceStartStep
  (repeat' split) <;> simp

@[simp] theorem answerPlanning_unit (r : PlanningReq) (sv : Service) (result : ResultCode) (afterCancel : Bool)
    (roles : List RoleAnswer) (nothingFor : Option Role) (s : State) :
    (answerPlanning r sv result afterCancel roles nothingFor s).unit = s.unit := rfl

@[simp] theorem planningAttemptEndStep_unit (s : State) : (planningAttemptEndStep s).unit = s.unit := by
  unfold planningAttemptEndStep
  dsimp only
  (repeat' split) <;> simp

@[simp] theorem planningInsertAnswerStep_unit (s : State) : (planningInsertAnswerStep s).unit = s.unit := by
  unfold planningInsertAnswerStep
  (repeat' split) <;> simp

@[simp] theorem querySearchEndStep_unit (s : State) : (querySearchEndStep s).unit = s.unit := by
  unfold querySearchEndStep
  (repeat' split) <;> simp

@[simp] theorem fillSearchEndStep_unit (s : State) : (fillSearchEndStep s).unit = s.unit := by
  unfold fillSearchEndStep
  dsimp only
  (repeat' split) <;> simp

@[simp] theorem appendAnswerStep_unit (s : State) : (appendAnswerStep s).unit = s.unit := by
  unfold appendAnswerStep
  (repeat' split) <;> simp

@[simp] theorem auditMeasuringEndStep_unit (s : State) : (auditMeasuringEndStep s).unit = s.unit := by
  unfold auditMeasuringEndStep
  (repeat' split) <;> simp

@[simp] theorem markAnswerStep_unit (s : State) : (markAnswerStep s).unit = s.unit := by
  unfold markAnswerStep
  (repeat' split) <;> simp

@[simp] theorem answerUnstarted_unit (r : PlanningReq) (s : State) : (answerUnstarted r s).unit = s.unit :=
    rfl

@[simp] theorem cancelStep_unit (s : State) : (cancelStep s).unit = s.unit := by
  unfold cancelStep
  dsimp only
  (repeat' split) <;> simp

/-! ### Links -/

@[simp] theorem setLink_unit (i : Nat) (l : Link) (s : State) : (setLink i l s).unit = s.unit := by
  obtain ⟨j, rs, vt, vr, h, -⟩ := setLink_change i l s
  rw [h]
  rfl

@[simp] theorem modLink_unit (i : Nat) (f : Link → Link) (s : State) : (modLink i f s).unit = s.unit := by
  simp [modLink]

@[simp] theorem sendUpdate_unit (i : Nat) (changes : List CarrierChange) (s : State) :
    (sendUpdate i changes s).unit = s.unit := by simp [sendUpdate]

@[simp] theorem removeNew_unit (i : Nat) (s : State) : (removeNew i s).unit = s.unit := by simp [removeNew]

@[simp] theorem entryHealth_unit (i : Nat) (s : State) : (entryHealth i s).unit = s.unit := by
  unfold entryHealth
  split <;> simp

@[simp] theorem queueControl_line (i : Nat) (kind : ControlKind) (o n : Bool) (s : State) :
    (queueControl i kind o n s).unit.line = s.unit.line := by
  unfold queueControl
  split <;> simp

@[simp] theorem queueForSequence_line (i : Nat) (kind : ControlKind) (s : State) :
    (queueForSequence i kind s).unit.line = s.unit.line := by simp [queueForSequence]

@[simp] theorem queueDeclared_line (i : Nat) (kind : ControlKind) (s : State) :
    (queueDeclared i kind s).unit.line = s.unit.line := by
  unfold queueDeclared
  split <;> simp

@[simp] theorem completeLinkOrder_unit (i : Nat) (l : Link) (code : ResultCode) (s : State) :
    (completeLinkOrder i l code s).unit = s.unit := by
  unfold completeLinkOrder
  split <;> simp

@[simp] theorem refuseLinkOrder_unit (o : LinkOrder) (code : ResultCode) (s : State) :
    (refuseLinkOrder o code s).unit = s.unit := by simp [refuseLinkOrder]

@[simp] theorem refuseLinkParameter_unit (o : LinkOrder) (offset : Nat) (s : State) :
    (refuseLinkParameter o offset s).unit = s.unit := rfl

@[simp] theorem takeLinkOrder_unit (o : LinkOrder) (s : State) : (takeLinkOrder o s).unit = s.unit := by
  simp [takeLinkOrder]

@[simp] theorem beginHold_unit (i : Nat) (reason : HoldReason) (s : State) :
    (beginHold i reason s).unit = s.unit := by simp [beginHold]

@[simp] theorem proceedFailover_unit (i : Nat) (permitKept : Bool) (s : State) :
    (proceedFailover i permitKept s).unit = s.unit := by simp [proceedFailover]

@[simp] theorem evaluateFailover_unit (i : Nat) (s : State) : (evaluateFailover i s).unit = s.unit := by
  simp [evaluateFailover]

@[simp] theorem recheckHold_unit (i : Nat) (s : State) : (recheckHold i s).unit = s.unit := by
  simp [recheckHold]

@[simp] theorem healthChanged_unit (i : Nat) (s : State) : (healthChanged i s).unit = s.unit := by
  simp [healthChanged]

@[simp] theorem healthChangedFrom_unit (before : Option Health × Option Health) (i : Nat) (s : State) :
    (healthChangedFrom before i s).unit = s.unit := by simp [healthChangedFrom]

@[simp] theorem enterActive_unit (i : Nat) (s : State) : (enterActive i s).unit = s.unit := by
  simp [enterActive]

@[simp] theorem holdAgain_unit (i : Nat) (s : State) : (holdAgain i s).unit = s.unit := by simp [holdAgain]

@[simp] theorem goTuneSent_line (i : Nat) (s : State) : (goTuneSent i s).unit.line = s.unit.line := by simp [goTuneSent]

@[simp] theorem inserted_line (i : Nat) (roles : List RoleAnswer) (s : State) :
    (inserted i roles s).unit.line = s.unit.line := by simp [inserted]

@[simp] theorem returnWith_unit (f : Link → Link) (i : Nat) (code : ResultCode) (s : State) :
    (returnWith f i code s).unit = s.unit := by simp [returnWith]

@[simp] theorem returnToStart_unit (i : Nat) (code : ResultCode) (s : State) :
    (returnToStart i code s).unit = s.unit := by simp [returnToStart]

@[simp] theorem returnBlocked_unit (b : FailoverBlock) (i : Nat) (code : ResultCode) (s : State) :
    (returnBlocked b i code s).unit = s.unit := by simp [returnBlocked]

@[simp] theorem faultLink_unit (i : Nat) (s : State) : (faultLink i s).unit = s.unit := by simp [faultLink]

@[simp] theorem sendInsert_unit (i : Nat) (codes : List (Role × Nat)) (s : State) :
    (sendInsert i codes s).unit = s.unit := by simp [sendInsert]

@[simp] theorem seekEntries_unit (i : Nat) (o : LinkOrder) (roles : List Role) (s : State) :
    (seekEntries i o roles s).unit = s.unit := by simp [seekEntries]

@[simp] theorem proceedRetune_unit (i : Nat) (permitKept : Bool) (s : State) :
    (proceedRetune i permitKept s).unit = s.unit := by
  unfold proceedRetune
  dsimp only
  (repeat' split) <;> simp

@[simp] theorem proceedFromHold_unit (i : Nat) (permitKept : Bool) (s : State) :
    (proceedFromHold i permitKept s).unit = s.unit := by
  unfold proceedFromHold
  split <;> simp

@[simp] theorem recheckTally_unit (i : Nat) (s : State) : (recheckTally i s).unit = s.unit := by
  simp [recheckTally]

@[simp] theorem guardEnds_line (i : Nat) (s : State) : (guardEnds i s).unit.line = s.unit.line := by simp [guardEnds]

@[simp] theorem goGuard_line (i : Nat) (s : State) : (goGuard i s).unit.line = s.unit.line := by simp [goGuard]

@[simp] theorem goUnmuting_line (i : Nat) (s : State) : (goUnmuting i s).unit.line = s.unit.line := by simp [goUnmuting]

@[simp] theorem startPollTimer_unit (i : Nat) (s : State) : (startPollTimer i s).unit = s.unit := rfl

@[simp] theorem resumePolls_unit (i : Nat) (s : State) : (resumePolls i s).unit = s.unit := by
  simp [resumePolls]

@[simp] theorem goActive_unit (i : Nat) (s : State) : (goActive i s).unit = s.unit := by simp [goActive]

@[simp] theorem tryCompletePark_unit (i : Nat) (s : State) : (tryCompletePark i s).unit = s.unit := by
  unfold tryCompletePark
  dsimp only
  (repeat' split) <;> simp

@[simp] theorem displaceMute_line (i : Nat) (s : State) : (displaceMute i s).unit.line = s.unit.line := by
  simp [displaceMute]

@[simp] theorem beginRestore_line (i : Nat) (s : State) : (beginRestore i s).unit.line = s.unit.line := by
  unfold beginRestore
  split <;> simp

/-! ### The link supervisor's steps -/

@[simp] theorem refuseAs_unit (o : LinkOrder) (r : ResultCode × Option Nat) (s : State) :
    (refuseAs o r s).unit = s.unit := by
  unfold refuseAs
  split <;> simp

@[simp] theorem beginEnable_unit (o : LinkOrder) (s : State) : (beginEnable o s).unit = s.unit := by
  unfold beginEnable
  dsimp only
  (repeat' split) <;> simp

@[simp] theorem enableLinkStep_unit (s : State) : (enableLinkStep s).unit = s.unit := by
  unfold enableLinkStep
  dsimp only
  (repeat' split) <;> simp

@[simp] theorem retuneLinkStep_unit (s : State) : (retuneLinkStep s).unit = s.unit := by
  unfold retuneLinkStep
  dsimp only
  (repeat' split) <;> simp

@[simp] theorem cancelPlanning_unit (i : Nat) (s : State) : (cancelPlanning i s).unit = s.unit := by
  simp [cancelPlanning]

@[simp] theorem beginPark_line (o : LinkOrder) (s : State) : (beginPark o s).unit.line = s.unit.line := by
  simp only [beginPark, sendPurge_unit]
  split <;> simp

@[simp] theorem parkLinkStep_line (s : State) : (parkLinkStep s).unit.line = s.unit.line := by
  unfold parkLinkStep
  dsimp only
  (repeat' split) <;> simp

@[simp] theorem sendKillUpdate_unit (i : Nat) (s : State) : (sendKillUpdate i s).unit = s.unit := by
  simp [sendKillUpdate]

@[simp] theorem killAnswered_unit (i seq : Nat) (roles : List RoleAnswer) (wasInserted : Bool) (s : State) :
    (killAnswered i seq roles wasInserted s).unit = s.unit := by simp [killAnswered]

@[simp] theorem planningAnswerStep_line (s : State) : (planningAnswerStep s).unit.line = s.unit.line := by
  unfold planningAnswerStep
  (repeat' split) <;> simp

@[simp] theorem insertionAnswerStep_line (s : State) : (insertionAnswerStep s).unit.line = s.unit.line := by
  unfold insertionAnswerStep
  (repeat' split) <;> simp

@[simp] theorem failoverTakeAnswerStep_line (s : State) : (failoverTakeAnswerStep s).unit.line = s.unit.line := by
  unfold failoverTakeAnswerStep
  (repeat' split) <;> simp

@[simp] theorem learnAnswerStep_unit (s : State) : (learnAnswerStep s).unit = s.unit := by
  unfold learnAnswerStep
  dsimp only
  (repeat' split) <;> simp

@[simp] theorem liveUpdateAnswerStep_unit (s : State) : (liveUpdateAnswerStep s).unit = s.unit := by
  unfold liveUpdateAnswerStep
  split <;> simp

@[simp] theorem updateAnswerStep_unit (s : State) : (updateAnswerStep s).unit = s.unit := by
  unfold updateAnswerStep
  split <;> simp

@[simp] theorem purgeAnswerStep_unit (s : State) : (purgeAnswerStep s).unit = s.unit := by
  unfold purgeAnswerStep
  split <;> simp

@[simp] theorem takeOutcome_unit {kind : ControlKind} {p : ControlResult → Bool} {f : ControlOutcome → State → State}
    {s : State}
    (h : ∀ o u, (f o u).unit = u.unit) :
    (takeOutcome kind p f s).unit = s.unit := by
  unfold takeOutcome
  (repeat' split) <;> simp [h]

@[simp] theorem takeOutcome_line {kind : ControlKind} {p : ControlResult → Bool} {f : ControlOutcome → State → State}
    {s : State} (h : ∀ o u, (f o u).unit.line = u.unit.line) : (takeOutcome kind p f s).unit.line = s.unit.line := by
  unfold takeOutcome
  (repeat' split) <;> simp [h]

@[simp] theorem tuneAckStep_line (s : State) : (tuneAckStep s).unit.line = s.unit.line := takeOutcome_line fun o u => by
  split <;> simp

@[simp] theorem tuneFails_unit (i : Nat) (s : State) : (tuneFails i s).unit = s.unit := by
  unfold tuneFails
  split <;> simp

@[simp] theorem tuneFailedStep_unit (s : State) : (tuneFailedStep s).unit = s.unit := takeOutcome_unit fun o u => by
  split <;> simp

@[simp] theorem tuneWithheldStep_unit (s : State) : (tuneWithheldStep s).unit = s.unit := takeOutcome_unit fun o u => by
  (repeat' split) <;> simp

@[simp] theorem unmuteAckStep_unit (s : State) : (unmuteAckStep s).unit = s.unit := by simp [unmuteAckStep]

@[simp] theorem unmuteFailedStep_unit (s : State) : (unmuteFailedStep s).unit = s.unit := by
  simp [unmuteFailedStep]

@[simp] theorem unmuteWithheldStep_unit (s : State) : (unmuteWithheldStep s).unit = s.unit := by
  simp [unmuteWithheldStep]

@[simp] theorem parkMuteOutcomeStep_unit (s : State) : (parkMuteOutcomeStep s).unit = s.unit := by
  unfold parkMuteOutcomeStep
  split <;> simp

@[simp] theorem settlePollOutcomeStep_unit (s : State) : (settlePollOutcomeStep s).unit = s.unit := by
  simp [settlePollOutcomeStep]

@[simp] theorem settlePollTimerExpiryStep_line (i : Nat) (s : State) :
    (settlePollTimerExpiryStep i s).unit.line = s.unit.line := by simp [settlePollTimerExpiryStep]

@[simp] theorem guardExpiryStep_line (i : Nat) (s : State) : (guardExpiryStep i s).unit.line = s.unit.line := by
  simp [guardExpiryStep]

@[simp] theorem withdrawPoll_line (i : Nat) (s : State) : (withdrawPoll i s).unit.line = s.unit.line := rfl

@[simp] theorem settleLimitExpiryStep_line (i : Nat) (s : State) :
    (settleLimitExpiryStep i s).unit.line = s.unit.line := by simp [settleLimitExpiryStep]

@[simp] theorem holdExpires_unit (i : Nat) (s : State) : (holdExpires i s).unit = s.unit := by
  simp [holdExpires]

@[simp] theorem holdLimitExpiryStep_unit (i : Nat) (s : State) : (holdLimitExpiryStep i s).unit = s.unit := by
  simp [holdLimitExpiryStep]

@[simp] theorem failoverDelayExpiryStep_unit (i : Nat) (r : Role) (s : State) :
    (failoverDelayExpiryStep i r s).unit = s.unit := by
  unfold failoverDelayExpiryStep
  split <;> simp

@[simp] theorem failoverRetryExpiryStep_unit (i : Nat) (s : State) :
    (failoverRetryExpiryStep i s).unit = s.unit := by simp [failoverRetryExpiryStep]

@[simp] theorem staleTimerExpiryStep_unit (i : Nat) (s : State) : (staleTimerExpiryStep i s).unit = s.unit := by
  simp [staleTimerExpiryStep]

@[simp] theorem tallyChangeToSupervisorStep_unit (s : State) :
    (tallyChangeToSupervisorStep s).unit = s.unit := by
  unfold tallyChangeToSupervisorStep
  split <;> simp

@[simp] theorem learn_unit (i : Nat) (d : LinkDef) (c : ChanReport) (s : State) :
    (learn i d c s).unit = s.unit := by simp [learn]

@[simp] theorem takeReport_line (r : Report) (i : Nat) (d : LinkDef) (s : State) :
    (takeReport r i d s).unit.line = s.unit.line := by simp [takeReport]

@[simp] theorem reportToLinkSupervisorStep_line (s : State) : (reportToLinkSupervisorStep s).unit.line = s.unit.line := by
  unfold reportToLinkSupervisorStep
  split
  · rfl
  · refine foldl_line (fun s i => ?_) _ _
    split
    · split <;> simp
    · rfl

@[simp] theorem missLink_unit (i : Nat) (s : State) : (missLink i s).unit = s.unit := by simp [missLink]

@[simp] theorem pollMissStep_unit (s : State) : (pollMissStep s).unit = s.unit := by
  unfold pollMissStep
  split <;> simp

@[simp] theorem dropOwnHeld_unit (i : Nat) (s : State) : (dropOwnHeld i s).unit = s.unit := rfl

@[simp] theorem holdUpdate_unit (i seq : Nat) (changes : List CarrierChange) (s : State) :
    (holdUpdate i seq changes s).unit = s.unit := by simp [holdUpdate]

@[simp] theorem killLink_line (i : Nat) (needed keepCodes : Bool) (changes : List CarrierChange) (s : State) :
    (killLink i needed keepCodes changes s).unit.line = s.unit.line := by simp [killLink]

@[simp] theorem killToParked_line (i : Nat) (s : State) : (killToParked i s).unit.line = s.unit.line := by
  simp [killToParked]

@[simp] theorem abandonRestore_line (i : Nat) (s : State) : (abandonRestore i s).unit.line = s.unit.line := by
  simp [abandonRestore]

@[simp] theorem killInTune_line (i : Nat) (begun : Bool) (s : State) :
    (killInTune i begun s).unit.line = s.unit.line := by simp [killInTune]

@[simp] theorem treatFound_line (s : State) (i : Nat) : (treatFound s i).unit.line = s.unit.line := by
  unfold treatFound
  dsimp only
  (repeat' split) <;> simp

@[simp] theorem treatLink_line (s : State) (i : Nat) : (treatLink s i).unit.line = s.unit.line := by simp [treatLink]

@[simp] theorem linkKillAssertionStep_line (s : State) : (linkKillAssertionStep s).unit.line = s.unit.line := by
  unfold linkKillAssertionStep
  split <;> simp

@[simp] theorem releaseLink_line (s : State) (i : Nat) : (releaseLink s i).unit.line = s.unit.line := by
  simp [releaseLink]

@[simp] theorem linkKillReleaseStep_line (s : State) : (linkKillReleaseStep s).unit.line = s.unit.line := by
  unfold linkKillReleaseStep
  split <;> simp

@[simp] theorem adoptLink_unit (old new : Option LinkDef) (i : Nat) (s : State) :
    (adoptLink old new i s).unit = s.unit := by
  unfold adoptLink
  split <;> simp

@[simp] theorem adoptSupervision_unit (staleChanged : Bool) (s : State) (i : Nat) :
    (adoptSupervision staleChanged s i).unit = s.unit := by simp [adoptSupervision]

@[simp] theorem takeDefinitions_unit (c : StationCopy) (s : State) : (takeDefinitions c s).unit = s.unit := by
  simp [takeDefinitions]

/-! ### Talkback -/

@[simp] theorem reportDest_unit (d : Nat) (old new : DestRec) (s : State) :
    (reportDest d old new s).unit = s.unit := by
  rw [reportDest_frame]
  rfl

@[simp] theorem handStaged_unit (before : List (List Nat)) (s : State) :
    (handStaged before s).unit = s.unit := by simp [handStaged]

@[simp] theorem handCalls_unit (before : List Bool) (s : State) : (handCalls before s).unit = s.unit := rfl

@[simp] theorem rebuild_unit (s : State) : (rebuild s).unit = s.unit := by
  rw [rebuild_frame]
  rfl

@[simp] theorem setKey_unit (i : Nat) (k : Option KeyRec) (s : State) : (setKey i k s).unit = s.unit := by
  simp [setKey]

@[simp] theorem keyAction_unit (k : KeyRec) (press : Bool) (s : State) :
    (keyAction k press s).2.2.2.unit = s.unit := by
  unfold keyAction
  dsimp only
  (repeat' split) <;> simp

@[simp] theorem keyStep_unit (s : State) : (keyStep s).unit = s.unit := by
  unfold keyStep
  split <;> simp

@[simp] theorem clearKeysStep_unit (s : State) : (clearKeysStep s).unit = s.unit := by
  unfold clearKeysStep
  split <;> simp

@[simp] theorem keyEdge_unit (s : State) (e : Edge) : (keyEdge s e).unit = s.unit := by
  unfold keyEdge
  split <;> simp

@[simp] theorem beltpackKeyReportStep_unit (s : State) : (beltpackKeyReportStep s).unit = s.unit := by
  unfold beltpackKeyReportStep
  split <;> simp

@[simp] theorem routerTallyColoursStep_unit (s : State) : (routerTallyColoursStep s).unit = s.unit := by
  unfold routerTallyColoursStep
  split <;> simp

@[simp] theorem linkStateToRouterStep_unit (s : State) : (linkStateToRouterStep s).unit = s.unit := by
  unfold linkStateToRouterStep
  split <;> simp

@[simp] theorem routerKillStateStep_unit (s : State) : (routerKillStateStep s).unit = s.unit := by
  unfold routerKillStateStep
  split <;> simp

@[simp] theorem routerStationAdoptionStep_unit (s : State) : (routerStationAdoptionStep s).unit = s.unit := by
  unfold routerStationAdoptionStep
  split <;> simp

@[simp] theorem routerCueAdoption_unit (p : TalkPlan) (s : State) : (routerCueAdoption p s).unit = s.unit := by
  simp [routerCueAdoption]

@[simp] theorem crosspointApplyStep_unit (s : State) : (crosspointApplyStep s).unit = s.unit := by
  simp [crosspointApplyStep]

@[simp] theorem crosspointWordSentStep_unit (s : State) : (crosspointWordSentStep s).unit = s.unit := by
  unfold crosspointWordSentStep
  split <;> simp

/-! ### The journal -/

@[simp] theorem setAllPending_unit (s : State) : (setAllPending s).unit = s.unit := rfl

@[simp] theorem readTaken_unit (s : State) : (readTaken s).unit = s.unit := by simp [readTaken]

@[simp] theorem clearPending_unit (p : PendingRec) (s : State) : (clearPending p s).unit = s.unit := by
  unfold clearPending
  split <;> simp

@[simp] theorem resyncStep_unit (s : State) : (resyncStep s).unit = s.unit := by
  unfold resyncStep
  dsimp only
  (repeat' split) <;> simp

@[simp] theorem setPending_unit (p : PendingOf) (s : State) : (setPending p s).unit = s.unit := by
  unfold setPending
  split <;> simp

@[simp] theorem noticeReport_unit (n : NoticeOf) (appended : Bool) (s : State) :
    (noticeReport n appended s).unit = s.unit := by
  unfold noticeReport
  split <;> simp

@[simp] theorem takeJournalReport_unit (r : JReport) (s : State) : (takeJournalReport r s).unit = s.unit := by
  simp [takeJournalReport]

@[simp] theorem takeOldestReport_unit (o : Owner) (s : State) : (takeOldestReport o s).unit = s.unit := by
  unfold takeOldestReport
  split <;> simp

@[simp] theorem journalDelayExpiryStep_unit (s : State) : (journalDelayExpiryStep s).unit = s.unit := by
  simp [journalDelayExpiryStep]

@[simp] theorem clearNotice_unit (bits : Word) (s : State) : (clearNotice bits s).unit = s.unit := by
  simp [clearNotice]

@[simp] theorem noticeEnableWriteStep_unit (bits : Word) (s : State) :
    (noticeEnableWriteStep bits s).unit = s.unit := rfl

@[simp] theorem journalCueAdoption_unit (c : CueSettings) (s : State) :
    (journalCueAdoption c s).unit = s.unit := rfl

/-! ### The dispatcher, the adoptions and RUN -/

@[simp] theorem hostMemoryWriteStep_unit (wordIndex : Nat) (data : Word) (enables : BitVec 4) (s : State) :
    (hostMemoryWriteStep wordIndex data enables s).unit = s.unit := rfl

@[simp] theorem registerWriteDiscardedStep_unit (_wordIndex : Nat) (_data : Word) (s : State) :
    (registerWriteDiscardedStep _wordIndex _data s).unit = s.unit := rfl

@[simp] theorem postStep_unit (number : Word) (s : State) : (postStep number s).unit = s.unit := by
  simp [postStep]

@[simp] theorem markClamped_unit (cell : Nat) (clamped : Bool) (s : State) :
    (markClamped cell clamped s).unit = s.unit := by simp [markClamped]

@[simp] theorem handOver_unit (cell : Nat) (o : Order) (s : State) : (handOver cell o s).unit = s.unit := by
  unfold handOver
  split <;> simp

@[simp] theorem refuseCell_unit (cell : Nat) (clamped : Bool) (res : Results) (code : ResultCode) (s : State) :
    (refuseCell cell clamped res code s).unit = s.unit := by simp [refuseCell]

@[simp] theorem dispatchCell_unit (cell : Nat) (s : State) : (dispatchCell cell s).unit = s.unit := by
  unfold dispatchCell
  (repeat' split) <;> simp

@[simp] theorem dispatchCellStep_unit (s : State) : (dispatchCellStep s).unit = s.unit := by
  unfold dispatchCellStep
  split <;> simp

@[simp] theorem dispatchPlanOrder_unit (p : PlanReq → Bool) (s : State) :
    (dispatchPlanOrder p s).unit = s.unit := by
  unfold dispatchPlanOrder
  (repeat' split) <;> simp

@[simp] theorem planQueryStep_unit (s : State) : (planQueryStep s).unit = s.unit := by simp [planQueryStep]

@[simp] theorem fillReserveStep_unit (s : State) : (fillReserveStep s).unit = s.unit := by
  simp [fillReserveStep]

@[simp] theorem auditPlanStep_unit (s : State) : (auditPlanStep s).unit = s.unit := by simp [auditPlanStep]

@[simp] theorem lockSetStep_unit (p : LockPort) (s : State) : (lockSetStep p s).unit = s.unit := by
  unfold lockSetStep
  split <;> simp

@[simp] theorem lockReleaseStep_unit (p : LockPort) (s : State) : (lockReleaseStep p s).unit = s.unit := by
  unfold lockReleaseStep
  split <;> simp

@[simp] theorem tellTable_unit (group : Nat) (st : AdoptStatus) (s : State) :
    (tellTable group st s).unit = s.unit := rfl

@[simp] theorem endStation_unit (st : AdoptStatus) (s : State) : (endStation st s).unit = s.unit := by
  simp [endStation]

@[simp] theorem endCue_unit (st : AdoptStatus) (s : State) : (endCue st s).unit = s.unit := rfl

@[simp] theorem stationAdoptionStep_unit (s : State) : (stationAdoptionStep s).unit = s.unit := by
  unfold stationAdoptionStep
  (repeat' split) <;> simp

@[simp] theorem takeCue_unit (m : List Host.Cell) (s : State) : (takeCue m s).unit = s.unit := by
  simp only [takeCue, journalCueAdoption_unit, timebaseCueAdoption_unit, routerCueAdoption_unit,
    tallyCueAdoption_unit]

@[simp] theorem cueAdoptionStep_unit (s : State) : (cueAdoptionStep s).unit = s.unit := by
  unfold cueAdoptionStep
  (repeat' split) <;> simp

/-! ### The ends of steps -/

@[simp] theorem walkN_unit (n : Nat) (s : State) : (walkN n s).unit = s.unit := by
  induction n generalizing s with
  | zero => rfl
  | succ n ih =>
    unfold walkN
    split
    · rw [ih, finish_unit, resyncStep_unit]
    · rfl

@[simp] theorem walkOn_unit (s : State) : (walkOn s).unit = s.unit := by
  unfold walkOn
  split
  · exact walkN_unit ..
  · rfl

@[simp] theorem journalReportStep_unit (o : Owner) (s : State) : (journalReportStep o s).unit = s.unit := by
  simp [journalReportStep]

@[simp] theorem noticeClearStep_unit (bits : Word) (s : State) : (noticeClearStep bits s).unit = s.unit := by
  unfold noticeClearStep
  dsimp only
  split <;> simp

/-! ### A tick -/

@[simp] theorem engineWork_unit (n : Nat) (s : State) : (engineWork n s).unit = s.unit := by
  induction n generalizing s with
  | zero => rfl
  | succ n ih =>
    unfold engineWork
    split
    · rfl
    · exact ih _

@[simp] theorem engineTick_unit (s : State) : (engineTick s).unit = s.unit := by
  unfold engineTick
  split
  · exact engineWork_unit ..
  · rfl

@[simp] theorem idleTick_unit (s : State) : (idleTick s).unit = s.unit := by simp [idleTick]

end Sys2Proof.Machine
end

section
/-! PROOFS. The arbiter, the frames that the tune permit governs, and the law of the KILL class (R72, R82, R84, R85). -/

namespace Sys2Proof.Machine

/-! ### The arbiter -/

/-- Sending a frame that the permit withholds ends the transaction; any other puts the frame on the line. -/
theorem sendFrame_control (r : ControlReq) (b : Bool) (s : State) : sendFrame (.controlReq r) b s =
    match s.withheldBy r with
    | some part => tellSupervisor r (.withheld part) { s with ul.xact := none }
    | none => { s with ul.xact := some { req := .controlReq r, second := b, sending := true, deadline := 0 } } := rfl

theorem sendFrame_xact (req : UlReq) (b : Bool) (s : State) :
    (sendFrame req b s).ul.xact = none ∨
      ((sendFrame req b s).ul.xact = some { req := req, second := b, sending := true, deadline := 0 } ∧
        ∀ r, req = .controlReq r → s.withheldBy r = none) := by
  cases req with
  | controlReq r =>
    rw [sendFrame_control]
    cases h : s.withheldBy r with
    | none => exact .inr ⟨rfl, fun r' hr => by cases hr; exact h⟩
    | some p => exact .inl rfl
  | killReq _ | cueReq _ | attentionPoll _ | sweepReq _ => exact .inr ⟨rfl, nofun⟩

/-- Every class but CONTROL starts without asking for a permit. -/
theorem sendFrame_begins {req : UlReq} {b : Bool} {s : State} (h : ∀ r, req ≠ .controlReq r) :
    sendFrame req b s = { s with ul.xact := some { req := req, second := b, sending := true, deadline := 0 } } := by
  cases req with
  | controlReq r => exact absurd rfl (h r)
  | killReq _ | cueReq _ | attentionPoll _ | sweepReq _ => rfl

@[simp] theorem noteBegun_ul (req : UlReq) (s : State) : (noteBegun req s).ul = s.ul := by rw [noteBegun_frame]
@[simp] theorem noteBegun_part (req : UlReq) (s : State) : (noteBegun req s).part = s.part := by rw [noteBegun_frame]
@[simp] theorem noteBegun_withheldBy (req : UlReq) (s : State) (r : ControlReq) :
    (noteBegun req s).withheldBy r = s.withheldBy r := by
  rw [noteBegun_frame]
  rfl

theorem noteBegun_kc {req : UlReq} {s : State} (h : ∀ k, req ≠ .killReq k) : (noteBegun req s).kc = s.kc := by
  cases req with
  | killReq k => exact absurd rfl (h k)
  | controlReq r =>
    unfold noteBegun
    dsimp only
    (repeat' split) <;> rfl
  | cueReq _ | attentionPoll _ | sweepReq _ => rfl

/-- One round of the arbiter at an idle machine. -/
theorem arbitrateN_next {n : Nat} {s : State} {req : UlReq} {u : UnitLink} (hx : s.ul.xact = none)
    (hn : nextRequest s.ul = some (req, u)) :
    arbitrateN (n + 1) s = arbitrateN n (sendFrame req false (noteBegun req { s with ul := u })) := by
  rw [arbitrateN, hx]
  dsimp only
  rw [hn]

theorem arbitrateN_busy {n : Nat} {s : State} (hx : s.ul.xact ≠ none) : arbitrateN n s = s := by
  cases n with
  | zero => rfl
  | succ n =>
    rw [arbitrateN]
    split
    · rfl
    · next h => exact absurd h hx

/-- A request that is not withheld begins, and the arbiter has done its work. -/
theorem arbitrate_begins {s : State} {req : UlReq} {u : UnitLink} (hp : s.part = .running) (hx : s.ul.xact = none)
    (hn : nextRequest s.ul = some (req, u)) (hr : ∀ r, req = .controlReq r → s.withheldBy r = none) :
    (arbitrate s).ul = { u with xact := some { req := req, second := false, sending := true, deadline := 0 } } := by
  have hsend : (sendFrame req false (noteBegun req { s with ul := u })) = { noteBegun req { s with ul := u } with
      ul.xact := some { req := req, second := false, sending := true, deadline := 0 } } := by
    by_cases h : ∃ r, req = .controlReq r
    · obtain ⟨r, rfl⟩ := h
      have hnone : ({ s with ul := u } : State).withheldBy r = none := hr r rfl
      rw [sendFrame_control, noteBegun_withheldBy, hnone]
    · exact sendFrame_begins fun r hreq => h ⟨r, hreq⟩
  have hrun : s.running = true := decide_eq_true hp
  rw [arbitrate, if_pos hrun, arbitrateN_next hx hn, hsend, arbitrateN_busy (by simp)]
  simp

/-- A CONTROL request that is withheld ends so, and the arbiter goes on with what else waits. -/
theorem arbitrate_withheld {s : State} {r : ControlReq} {q : List ControlReq} {p : PermitPart} (hp : s.part = .running)
    (hx : s.ul.xact = none) (hk : s.ul.killQ = []) (hc : s.ul.cueQ = []) (hq : s.ul.controlQ = r :: q)
    (hw : s.withheldBy r = some p) :
    arbitrate s = arbitrate (noteBegun (.controlReq r) { s with
      ul.controlQ := q
      mail.controlOutcomes := s.mail.controlOutcomes ++
        [{ link := r.link, seq := r.seq, kind := r.kind, result := .withheld p }] }) := by
  have hrun : s.running = true := decide_eq_true hp
  have hn : nextRequest s.ul = some (.controlReq r, { s.ul with controlQ := q }) := by simp only [nextRequest, hk, hc, hq]
  have hsend : sendFrame (.controlReq r) false (noteBegun (.controlReq r) { s with ul.controlQ := q }) =
      noteBegun (.controlReq r) { s with
        ul.controlQ := q
        mail.controlOutcomes := s.mail.controlOutcomes ++
          [{ link := r.link, seq := r.seq, kind := r.kind, result := .withheld p }] } := by
    have hw' : ({ s with ul.controlQ := q } : State).withheldBy r = some p := hw
    have hul : ({ s.ul with controlQ := q } : UnitLink) = { s.ul with controlQ := q, xact := none } := by rw [← hx]
    rw [sendFrame_control, noteBegun_withheldBy, hw']
    unfold noteBegun tellSupervisor
    dsimp only
    simp only [hul]
    have hlink : ({ s with
        ul := { s.ul with controlQ := q, xact := none }
        mail.controlOutcomes := s.mail.controlOutcomes ++
          [{ link := r.link, seq := r.seq, kind := r.kind, result := .withheld p }] } : State).link r.link = s.link r.link := rfl
    have hlink' : ({ s with ul := { s.ul with controlQ := q, xact := none } } : State).link r.link = s.link r.link := rfl
    rw [hlink, hlink']
    split
    · cases r.kind <;> rfl
    · rfl
  have hrun' : (noteBegun (.controlReq r) { s with
        ul.controlQ := q
        mail.controlOutcomes := s.mail.controlOutcomes ++
          [{ link := r.link, seq := r.seq, kind := r.kind, result := .withheld p }] }).running = true := by
    simp [State.running, hp]
  rw [arbitrate, if_pos hrun, arbitrateN_next hx hn, hsend, arbitrate, if_pos hrun', hq]
  simp

/-- With enough rounds the arbiter leaves the machine busy or nothing waiting. -/
theorem arbitrateN_settles (n : Nat) (s : State) (hn : s.ul.controlQ.length < n) (hx : (arbitrateN n s).ul.xact = none) :
    nextRequest (arbitrateN n s).ul = none := by
  induction n generalizing s with
  | zero => omega
  | succ n ih =>
    cases hs : s.ul.xact with
    | some x =>
      rw [arbitrateN_busy (by simp [hs]), hs] at hx
      cases hx
    | none =>
      cases hreq : nextRequest s.ul with
      | none =>
        rw [arbitrateN, hs]
        dsimp only
        rw [hreq]
        exact hreq
      | some ru =>
        obtain ⟨req, u⟩ := ru
        rw [arbitrateN_next hs hreq] at hx ⊢
        rcases sendFrame_xact req false (noteBegun req { s with ul := u }) with hnone | ⟨hbusy, -⟩
        · refine ih _ ?_ hx
          cases req with
          | controlReq r =>
            have hul : (sendFrame (.controlReq r) false (noteBegun (.controlReq r) { s with ul := u })).ul.controlQ = u.controlQ := by
              rw [sendFrame_frame]
              simp
            rw [hul]
            unfold nextRequest at hreq
            split at hreq <;> simp_all
            obtain ⟨-, rfl⟩ := hreq
            simpa using hn
          | killReq _ | cueReq _ | attentionPoll _ | sweepReq _ =>
            simp [sendFrame] at hnone
        · rw [arbitrateN_busy (by simp [hbusy]), hbusy] at hx
          cases hx

theorem arbiterLaw_arbitrate (s : State) : ArbiterLaw (arbitrate s) := by
  intro hp hx
  have hrun : s.running = true := by
    rw [arbitrate_frame] at hp
    exact decide_eq_true hp
  rw [arbitrate, if_pos hrun] at hx ⊢
  exact arbitrateN_settles _ s (Nat.lt_succ_self _) hx

/-! ### The frames that the permit governs (R72, R82) -/

/-- The permit is held for the frame of a transaction. -/
def State.lets (s : State) (x : Transaction) : Prop := ∀ r, x.req = .controlReq r → s.withheldBy r = none

/-- A governed frame that is on the line in t was there in s, or its permit is held in t. -/
def FrameLaw (s t : State) : Prop := ∀ x, t.permitFrame = some x → s.permitFrame = some x ∨ t.lets x

/-- A frame on the line is that of the transaction in progress, and is being sent. -/
theorem permitFrame_eq_some {s : State} {x : Transaction} :
    s.permitFrame = some x ↔ s.ul.xact = some x ∧ x.sending = true ∧ x.req.needsPermit = true := by
  simp [State.permitFrame, Option.filter_eq_some_iff]

theorem frameLaw_of_xact {s t : State} (h : t.ul.xact = s.ul.xact) : FrameLaw s t := by
  intro x hx
  rw [permitFrame_eq_some, h, ← permitFrame_eq_some] at hx
  exact .inl hx

/-- No governed frame is on the line. -/
theorem frameLaw_of_silent {s t : State} (h : ∀ x, t.ul.xact = some x → x.sending = false) : FrameLaw s t := by
  intro x hx
  obtain ⟨hxact, hsending, -⟩ := permitFrame_eq_some.1 hx
  rw [h x hxact] at hsending
  cases hsending

/-- What the permit depends on: the kill state, the definitions and the cameras. -/
theorem withheldBy_congr {s t : State} (hk : t.kc.asserted = s.kc.asserted) (hd : t.sup.defs = s.sup.defs)
    (hc : t.tally.cams = s.tally.cams) (r : ControlReq) : t.withheldBy r = s.withheldBy r := by
  unfold State.withheldBy State.linkOnProgramme State.onProgramme State.linkDef
  rw [hk, hd, hc]

/-- The arbiter and the retry consult the permit before they put a frame on the line. -/
theorem frameLaw_sendFrame (s : State) (req : UlReq) (b : Bool) (u : State) : FrameLaw s (sendFrame req b u) := by
  intro x hx
  obtain ⟨hxact, -, -⟩ := permitFrame_eq_some.1 hx
  rcases sendFrame_xact req b u with h | ⟨h, hlets⟩ <;> rw [h] at hxact
  · cases hxact
  · obtain rfl := Option.some.inj hxact
    refine .inr fun r hr => ?_
    rw [withheldBy_congr (s := u) (by rw [sendFrame_frame]) (by rw [sendFrame_frame]) (by rw [sendFrame_frame])]
    exact hlets r hr

theorem frameLaw_arbitrateN {s : State} (n : Nat) {u : State} (h : FrameLaw s u) : FrameLaw s (arbitrateN n u) := by
  induction n generalizing u with
  | zero => exact h
  | succ n ih =>
    unfold arbitrateN
    split
    · exact h
    · split
      · exact h
      · exact ih (frameLaw_sendFrame _ _ _ _)

theorem frameLaw_arbitrate {s u : State} (h : FrameLaw s u) : FrameLaw s (arbitrate u) := by
  unfold arbitrate
  split
  · exact frameLaw_arbitrateN _ h
  · exact h

/-! ### The KILL class (R85) -/

/-- The law of the KILL class, of its queue, the kill state and the MUTE states. -/
def KillClass (q : List KillReq) (asserted : Bool) (m : List MuteRec) : Prop :=
  q.count .silence ≤ 1 ∧ (asserted = false → q = []) ∧ ∀ l, l < m.length → q.countP (KillReq.muteOf l) ≤ 1 ∧
    (0 < q.countP (KillReq.muteOf l) → (m.getD l MuteRec.reset).state = .waiting)

theorem killClassLaw_iff {s : State} : KillClassLaw s ↔ KillClass s.ul.killQ s.kc.asserted s.kc.mutes := Iff.rfl

theorem killClassLaw_congr {s t : State} (hq : t.ul.killQ = s.ul.killQ) (hk : t.kc.core = s.kc.core) :
    KillClassLaw t ↔ KillClassLaw s := by
  have ha : t.kc.core.asserted = s.kc.core.asserted := by rw [hk]
  have hm : t.kc.core.mutes = s.kc.core.mutes := by rw [hk]
  rw [killClassLaw_iff, killClassLaw_iff, hq, show t.kc.asserted = s.kc.asserted from ha, show t.kc.mutes = s.kc.mutes from hm]

section
variable {q : List KillReq} {a : Bool} {m : List MuteRec} {r : KillReq} {l : Nat} {x : MuteRec}

theorem KillClass.nil : KillClass [] a m := ⟨by simp, fun _ => rfl, fun _ _ => ⟨by simp, by simp⟩⟩

theorem KillClass.silence : KillClass [.silence] true m :=
  ⟨by decide, nofun, fun _ _ => ⟨by simp [KillReq.muteOf], by simp [KillReq.muteOf]⟩⟩

theorem KillClass.pop (h : KillClass (r :: q) a m) : KillClass q a m := by
  obtain ⟨hsilence, hclear, hmute⟩ := h
  refine ⟨(List.count_le_count_cons ..).trans hsilence, fun hoff => absurd (hclear hoff) (by simp), fun k hk => ?_⟩
  obtain ⟨hone, hwaits⟩ := hmute k hk
  rw [List.countP_cons] at hone hwaits
  exact ⟨by omega, fun hpos => hwaits (by omega)⟩

/-- What kill control keeps of a link may change so long as a waiting MUTE finds its state WAITING. -/
theorem KillClass.set (h : KillClass q a m) (hl : l < m.length → 0 < q.countP (KillReq.muteOf l) → x.state = .waiting) :
    KillClass q a (put m l x) := by
  obtain ⟨hsilence, hclear, hmute⟩ := h
  refine ⟨hsilence, hclear, fun k hk => ?_⟩
  have hlen : k < m.length := hk.trans_eq (List.length_set ..)
  obtain ⟨hone, hwaits⟩ := hmute k hlen
  refine ⟨hone, fun hpos => ?_⟩
  rw [put_getD]
  split
  · next heq => exact hl heq.2 (heq.1 ▸ hpos)
  · exact hwaits hpos

/-- No MUTE waits in the class for a link whose MUTE state is not WAITING. -/
theorem KillClass.none_waits (h : KillClass q a m) (hw : (m.getD l MuteRec.reset).state ≠ .waiting) (hl : l < m.length) :
    q.countP (KillReq.muteOf l) = 0 := by
  by_contra hne
  exact hw ((h.2.2 l hl).2 (Nat.pos_of_ne_zero hne))

/-- The MUTE of a link that has just left the class may begin. -/
theorem KillClass.begun (h : KillClass (r :: q) a m) (hr : r.muteOf l = true) : KillClass q a (put m l x) := by
  refine h.pop.set fun hl hpos => absurd hpos ?_
  have hone := (h.2.2 l hl).1
  rw [List.countP_cons_of_pos hr] at hone
  omega

/-- A MUTE is placed for a link whose MUTE state is not WAITING, which then becomes WAITING. -/
theorem KillClass.placed (h : KillClass q true m) (hw : (m.getD l MuteRec.reset).state ≠ .waiting)
    (hr : ∀ k, r.muteOf k = decide (l = k)) (hs : r ≠ .silence) (hx : x.state = .waiting) :
    KillClass (q ++ [r]) true (put m l x) := by
  have hnone := h.none_waits hw
  obtain ⟨hsilence, -, hmute⟩ := h
  refine ⟨by simpa [hs] using hsilence, nofun, fun k hk => ?_⟩
  have hlen : k < m.length := hk.trans_eq (List.length_set ..)
  obtain ⟨hone, hwaits⟩ := hmute k hlen
  rw [List.countP_append, List.countP_singleton, hr, put_getD]
  by_cases hkl : l = k
  · subst hkl
    simp [hnone hlen, hlen, hx]
  · rw [decide_eq_false hkl, if_neg Bool.false_ne_true, if_neg fun heq => hkl heq.1.symm]
    exact ⟨hone, hwaits⟩

end

theorem killClassLaw_placeMute {s : State} (t : MuteTarget) (h : KillClassLaw s) (ha : s.kc.asserted = true) :
    KillClassLaw (placeMute t s) := by
  rcases placeMute_cases t s with ⟨-, hsame⟩ | ⟨hw, hplaced⟩
  · rw [hsame]
    exact h
  · rw [killClassLaw_iff, ha] at h
    rw [hplaced, killClassLaw_iff]
    exact ha ▸ h.placed hw (fun _ => rfl) (by simp) rfl

/-- KILL_ASSERTION finds the KILL class empty and leaves a SILENCE in it. -/
theorem killClassLaw_assertKill {s : State} (cause : KillCause) (h : KillClassLaw s) (ha : s.kc.asserted = false) :
    KillClassLaw (assertKill cause s) := by
  have hq : s.ul.killQ = [] := h.2.1 ha
  rw [killClassLaw_iff]
  simp only [assertKill, hq, List.contains_nil, Bool.false_eq_true, if_false]
  show KillClass (s.ul.killQ ++ [.silence]) true noMutes
  rw [hq]
  exact .silence

theorem killClassLaw_takeLine {s : State} (h : KillClassLaw s) : KillClassLaw (takeLine s) := by
  unfold takeLine
  dsimp only
  split
  · next hline =>
    refine killClassLaw_assertKill _ h ?_
    simp only [Bool.and_eq_true, Bool.not_eq_true'] at hline
    exact hline.2
  · exact h

/-- The request that begins leaves the KILL class, and the link's MUTE waits no more. -/
theorem killClassLaw_begin {s : State} {req : UlReq} {u : UnitLink} (h : KillClassLaw s)
    (hn : nextRequest s.ul = some (req, u)) : KillClassLaw (sendFrame req false (noteBegun req { s with ul := u })) := by
  rw [killClassLaw_congr (s := noteBegun req { s with ul := u }) (by rw [sendFrame_frame]) (by rw [sendFrame_frame])]
  cases req with
  | killReq r =>
    have hq : s.ul.killQ = r :: u.killQ := by
      unfold nextRequest at hn
      split at hn <;> simp_all
      rw [← hn.2]
    rw [killClassLaw_iff, hq] at h
    cases r with
    | silence => exact h.pop
    | mute link epoch _ _ _ _ _ =>
      unfold noteBegun
      dsimp only
      (repeat' split)
      · exact h.begun (by simp [KillReq.muteOf])
      · exact h.pop
      · exact h.pop
  | controlReq _ | cueReq _ | attentionPoll _ | sweepReq _ =>
    have hq : u.killQ = s.ul.killQ := by
      unfold nextRequest at hn
      split at hn <;> simp_all
      all_goals rw [← hn.2]
    refine (killClassLaw_congr (s := s) ?_ ?_).2 h
    · rw [noteBegun_ul]
      exact hq
    · exact congrArg KillControl.core (noteBegun_kc (s := { s with ul := u }) nofun)

theorem killClassLaw_arbitrate {s : State} (h : KillClassLaw s) : KillClassLaw (arbitrate s) := by
  have rounds (n : Nat) (s : State) (h : KillClassLaw s) : KillClassLaw (arbitrateN n s) := by
    induction n generalizing s with
    | zero => exact h
    | succ n ih =>
      unfold arbitrateN
      split
      · exact h
      · split
        · exact h
        · next hn => exact ih _ (killClassLaw_begin h hn)
  unfold arbitrate
  split
  · exact rounds _ s h
  · exact h

end Sys2Proof.Machine
end

section
/-! PROOFS. O8 and O46: how a step ends for the unit link, the frames that it puts on the line and the laws that it keeps (R72, R82, R84,
R85). -/

namespace Sys2Proof.Machine

/-! ### The unit link's steps -/

/-- What the end of a transaction leaves of the line: the machine IDLE. -/
def State.idleLine (s : State) : LineView := { s.unit.line with xact := none }

theorem tellKillControl_line (r : KillReq) (ok : Bool) (s : State) : (tellKillControl r ok s).unit.line = s.unit.line := by
  cases r <;> rfl

theorem endAnswered_line (req : UlReq) (reply : Reply) (s : State) : (endAnswered req reply s).unit.line = s.idleLine := by
  unfold endAnswered
  dsimp only
  split <;> simp [tellKillControl_line] <;> rfl

theorem endFailed_line (req : UlReq) (s : State) : (endFailed req s).unit.line = s.idleLine := by
  unfold endFailed
  dsimp only
  split <;> simp [tellKillControl_line] <;> rfl

section
variable {s t : State}

theorem frameLaw_of_line (h : t.unit.line = s.unit.line) : FrameLaw s t := frameLaw_of_xact (congrArg LineView.xact h)

theorem killClassLaw_of_line (h : t.unit.line = s.unit.line) : KillClassLaw s → KillClassLaw t :=
  (killClassLaw_congr (congrArg LineView.killQ h) (congrArg LineView.kc h)).2

theorem frameLaw_of_idle (h : t.unit.line = s.idleLine) : FrameLaw s t := by
  have hnone : t.ul.xact = none := congrArg LineView.xact h
  exact frameLaw_of_silent fun x hx => by rw [hnone] at hx; cases hx

theorem killClassLaw_of_idle (h : t.unit.line = s.idleLine) : KillClassLaw s → KillClassLaw t :=
  (killClassLaw_congr (congrArg LineView.killQ h) (congrArg LineView.kc h)).2

end

/-- A step keeps the line as the permit and the law of the KILL class ask. -/
structure LineLawful (s t : State) : Prop where
  frame : FrameLaw s t
  killClass : KillClassLaw s → KillClassLaw t

theorem LineLawful.of_line {s t : State} (h : t.unit.line = s.unit.line) : LineLawful s t :=
  ⟨frameLaw_of_line h, killClassLaw_of_line h⟩

theorem LineLawful.of_idle {s t : State} (h : t.unit.line = s.idleLine) : LineLawful s t :=
  ⟨frameLaw_of_idle h, killClassLaw_of_idle h⟩

theorem LineLawful.noReply (x : Transaction) (s : State) : LineLawful s (noReply x s) := by
  unfold Machine.noReply
  split
  · exact .of_idle (endFailed_line ..)
  · exact ⟨frameLaw_sendFrame _ _ _ _, (killClassLaw_congr (by rw [sendFrame_frame]) (by rw [sendFrame_frame])).2⟩

theorem LineLawful.unitFrameReceived (bytes : List Byte) (s : State) : LineLawful s (unitFrameReceivedStep bytes s) := by
  unfold unitFrameReceivedStep
  (repeat' split)
  · exact .of_line rfl
  · exact .of_idle (endAnswered_line ..)
  · exact .noReply ..
  · exact .of_line rfl

theorem LineLawful.replyTimeout (s : State) : LineLawful s (replyTimeoutStep s) := by
  unfold replyTimeoutStep
  (repeat' split)
  · exact .noReply ..
  · exact .of_line rfl
  · exact .of_line rfl

/-- A frame that has been sent is on the line no more. -/
theorem LineLawful.frameTransmitted (s : State) : LineLawful s (frameTransmittedStep s) := by
  unfold frameTransmittedStep
  (repeat' split)
  · exact .of_idle rfl
  · refine ⟨frameLaw_of_silent fun x hx => ?_, id⟩
    obtain rfl := Option.some.inj hx
    rfl
  · exact .of_line rfl
  · exact .of_line rfl

/-! ### Kill control's steps -/

/-- The transaction machine is as before, and the law of the KILL class is kept. -/
structure KillLawful (s t : State) : Prop where
  xact : t.ul.xact = s.ul.xact
  killClass : KillClassLaw s → KillClassLaw t

theorem KillLawful.trans {s t u : State} (h : KillLawful s t) (h' : KillLawful t u) : KillLawful s u :=
  ⟨h'.xact.trans h.xact, h'.killClass ∘ h.killClass⟩

theorem KillLawful.of_line {s t : State} (h : t.unit.line = s.unit.line) : KillLawful s t :=
  ⟨congrArg LineView.xact h, killClassLaw_of_line h⟩

/-- The same from a state with the same line. -/
theorem KillLawful.of_same {s s' t : State} (h : KillLawful s' t) (hs : s'.unit.line = s.unit.line) : KillLawful s t :=
  (KillLawful.of_line hs).trans h

theorem LineLawful.of_kill {s t : State} (h : KillLawful s t) : LineLawful s t := ⟨frameLaw_of_xact h.xact, h.killClass⟩

theorem assertKill_xact (cause : KillCause) (s : State) : (assertKill cause s).ul.xact = s.ul.xact := by
  unfold assertKill
  dsimp only
  split <;> rfl

theorem KillLawful.assertKill {cause : KillCause} {s : State} (ha : s.kc.asserted = false) :
    KillLawful s (assertKill cause s) := ⟨assertKill_xact cause s, fun h => killClassLaw_assertKill cause h ha⟩

theorem KillLawful.takeLine (s : State) : KillLawful s (takeLine s) := by
  refine ⟨?_, killClassLaw_takeLine⟩
  unfold Machine.takeLine
  dsimp only
  split
  · exact assertKill_xact ..
  · rfl

theorem KillLawful.adoptKillWidth (w : Nat) (s : State) : KillLawful s (adoptKillWidth w s) := by
  unfold Machine.adoptKillWidth
  dsimp only
  split
  · exact (KillLawful.takeLine _).of_same rfl
  · exact .of_line rfl

theorem KillLawful.kill (s : State) : KillLawful s (killStep s) := by
  unfold killStep
  dsimp only
  split
  · next tag rest _ =>
    refine KillLawful.trans (t := if s.kc.asserted then { s with mail.killOrders := rest }
      else Machine.assertKill .order { s with mail.killOrders := rest }) ?_ (.of_line (by rw [doneOrder_unit]))
    split
    · exact .of_line rfl
    · next h => exact (KillLawful.assertKill (s := { s with mail.killOrders := rest }) (Bool.eq_false_iff.2 h)).of_same rfl
  · exact .of_line rfl

theorem KillLawful.releaseKill (s : State) : KillLawful s (releaseKillStep s) := by
  have released (u : State) : KillLawful u (Machine.releaseKill u) := ⟨rfl, fun _ => killClassLaw_iff.2 .nil⟩
  unfold releaseKillStep
  dsimp only
  split
  · next tag rest _ =>
    split
    · exact .of_line (by rw [refuseOrder_unit]; rfl)
    · refine KillLawful.trans (t := if s.kc.asserted then Machine.releaseKill { s with mail.killOrders := rest }
        else { s with mail.killOrders := rest }) ?_ (.of_line (by rw [doneOrder_unit]))
      split
      · exact (released _).of_same rfl
      · exact .of_line rfl
  · exact .of_line rfl

theorem KillLawful.filterRunComplete (s : State) : KillLawful s (killFilterRunCompleteStep s) := by
  unfold killFilterRunCompleteStep
  split
  · exact .takeLine s
  · exact .of_line rfl

theorem placeMute_kept (t : MuteTarget) (s : State) :
    (placeMute t s).ul.xact = s.ul.xact ∧ (placeMute t s).kc.asserted = s.kc.asserted := by
  rcases placeMute_cases t s with ⟨-, h⟩ | ⟨-, h⟩ <;> rw [h] <;> exact ⟨rfl, rfl⟩

theorem KillLawful.placeMute {t : MuteTarget} {s : State} (ha : s.kc.asserted = true) : KillLawful s (placeMute t s) :=
  ⟨(placeMute_kept t s).1, fun h => killClassLaw_placeMute t h ha⟩

theorem KillLawful.muteList (s : State) : KillLawful s (killMuteListStep s) := by
  have places (l : List MuteTarget) (u : State) (ha : u.kc.asserted = true) :
      KillLawful u (l.foldl (fun s t => Machine.placeMute t s) u) := by
    induction l generalizing u with
    | nil => exact .of_line rfl
    | cons t l ih => exact (KillLawful.placeMute ha).trans (ih _ ((placeMute_kept t u).2.trans ha))
  unfold killMuteListStep
  dsimp only
  (repeat' split)
  · exact .of_line rfl
  · next rest _ ha => exact (places _ { s with mail.muteLists := rest } ha).of_same rfl
  · exact .of_line rfl

/-- A MUTE state is written that leaves a waiting MUTE WAITING. -/
theorem KillLawful.setMute {l : Nat} {m : MuteRec} {s : State}
    (h : (s.kc.mutes.getD l MuteRec.reset).state = .waiting → m.state = .waiting) : KillLawful s (setMute l m s) :=
  ⟨rfl, fun hs => killClassLaw_iff.2 ((killClassLaw_iff.1 hs).set fun hl hpos => h ((hs.2.2 l hl).2 hpos))⟩

theorem KillLawful.muteOutcome (s : State) : KillLawful s (killMuteOutcomeStep s) := by
  unfold killMuteOutcomeStep
  dsimp only
  split
  · exact .of_line rfl
  · next l epoch serial ok rest _ =>
    generalize hm : s.kc.mutes.getD l MuteRec.reset = m
    have written (st : MuteState) (target : Option MuteTarget) (failed : Bool) (n : Nat) : KillLawful s (Machine.setMute l
        { state := if m.state = .inProgress ∧ serial = m.serial then st else m.state, failedBefore := failed, target := target
          serial := n } { s with mail.killMuteOutcomes := rest }) := by
      refine (KillLawful.setMute fun hw => ?_).of_same rfl
      rw [show m.state = .waiting from hm ▸ hw, if_neg (by simp)]
    split
    · split
      · split
        · exact (written ..).trans (.of_line rfl)
        · exact written ..
      · split
        · exact written ..
        · exact (written ..).trans (.of_line rfl)
    · exact .of_line rfl

theorem KillLawful.muteRetryExpiry (l : Nat) (s : State) : KillLawful s (killMuteRetryExpiryStep l s) := by
  unfold killMuteRetryExpiryStep
  dsimp only
  split
  · split
    · next h =>
      simp only [Bool.and_eq_true] at h
      exact .placeMute h.1.2
    · exact .of_line rfl
  · exact .of_line rfl

theorem KillLawful.stationDefinitionsTaken (s : State) : KillLawful s (stationDefinitionsTakenStep s) := by
  unfold stationDefinitionsTakenStep
  dsimp only
  split
  · next c _ _ =>
    refine KillLawful.trans (.of_line (t := { rebuildUnits (takeDefinitions c s) with
      mail.tallyDefs := (rebuildUnits (takeDefinitions c s)).mail.tallyDefs ++ [c.defs]
      mail.routerDefs := (rebuildUnits (takeDefinitions c s)).mail.routerDefs ++ [c.defs] }) (by simp))
      ((KillLawful.adoptKillWidth c.killWidth _).trans (.of_line (by rw [endStation_unit])))
  · exact .of_line rfl

/-- RUN changes the part state; the line is that of the filtered KILL input. -/
theorem KillLawful.run (s : State) : KillLawful s (runStep s) := by
  unfold runStep
  dsimp only
  split
  · have hstart : KillLawful s { s with part := .running, tb := timebaseRun s.tb } := ⟨rfl, id⟩
    refine hstart.trans (KillLawful.trans (.of_line (tallyRun_line _)) ((KillLawful.takeLine _).trans (.of_line ?_)))
    split <;> simp [killRun]
  · exact .of_line rfl

/-! ### How a step ends -/

/-- The end of a step for the unit link: nothing of it changed, a reset, or a block's step after which the arbiter takes what
waits. -/
inductive StepEnd (s t : State) : Prop
  | kept (h : t.unit = s.unit)
  | reset (part : t.part = .halted) (xact : t.ul.xact = none) (killQ : t.ul.killQ = [])
  | arbitrated (u : State) (c : Counts) (ht : t = { arbitrate u with counts := c }) (h : LineLawful s u)

theorem exec_ends {c : Instr} {s t : State} (h : exec c s = .next t) : StepEnd s t := by
  cases c
  case powerOnReset | partReset => cases h; exact .reset rfl rfl rfl
  case unitFrameReceived bytes => cases h; exact .arbitrated _ _ rfl (.unitFrameReceived bytes s)
  case frameTransmitted => cases h; exact .arbitrated _ _ rfl (.frameTransmitted s)
  case replyTimeout => cases h; exact .arbitrated _ _ rfl (.replyTimeout s)
  case kill => cases h; exact .arbitrated _ _ rfl (.of_kill (.kill s))
  case releaseKill => cases h; exact .arbitrated _ _ rfl (.of_kill (.releaseKill s))
  case killFilterRunComplete => cases h; exact .arbitrated _ _ rfl (.of_kill (.filterRunComplete s))
  case killMuteList => cases h; exact .arbitrated _ _ rfl (.of_kill (.muteList s))
  case killMuteOutcome => cases h; exact .arbitrated _ _ rfl (.of_kill (.muteOutcome s))
  case killMuteRetryExpiry link => cases h; exact .arbitrated _ _ rfl (.of_kill (.muteRetryExpiry link s))
  case stationDefinitionsTaken => cases h; exact .arbitrated _ _ rfl (.of_kill (.stationDefinitionsTaken s))
  case run => cases h; exact .arbitrated _ _ rfl (.of_kill (.run s))
  case enableLink | retuneLink | parkLink | setTally | lineTest | planningAnswer | insertionAnswer | failoverTakeAnswer
    | learnAnswer | liveUpdateAnswer | purgeAnswer | tuneAck | tuneFailed | tuneWithheld | unmuteAck | unmuteFailed
    | unmuteWithheld | parkMuteOutcome | settlePollOutcome | settlePollTimerExpiry | guardExpiry | settleLimitExpiry
    | holdLimitExpiry | failoverDelayExpiry | failoverRetryExpiry | tallyChangeToSupervisor | cueAdoption
    | tallyStationAdoption | linkStateToTally | sweepSpacingExpiry | reportToLinkSupervisor | pollMiss | staleTimerExpiry
    | uatnAsserted | uatnDeasserted | loopOutcome | linkKillAssertion | linkKillRelease | tallyKillState
    | contactFilterRunComplete | lampApply | callChange | cueOutcome | tallyEchoReport | updateAnswer =>
    cases h
    exact .arbitrated _ _ rfl (.of_line (by simp))
  all_goals
    cases h
    exact .kept (by simp)

theorem step_ends {s t : State} (h : step s = .next t) : StepEnd s t := by
  unfold step at h
  split at h
  · cases exec_ends h with
    | kept h => exact .kept h
    | reset hp hx hq => exact .reset hp hx hq
    | arbitrated u c ht hu => exact .arbitrated u c ht ⟨hu.frame, hu.killClass⟩
  · cases h
    exact .kept (idleTick_unit s)

theorem step_frameLaw {s t : State} (h : step s = .next t) : FrameLaw s t := by
  cases step_ends h with
  | kept h => exact frameLaw_of_xact (congrArg (fun v => v.ul.xact) h)
  | reset _ hx _ => exact frameLaw_of_silent fun x hsome => by rw [hx] at hsome; cases hsome
  | arbitrated u c ht hu =>
    rw [ht]
    exact frameLaw_arbitrate hu.frame

theorem step_arbiterLaw {s t : State} (hs : ArbiterLaw s) (h : step s = .next t) : ArbiterLaw t := by
  cases step_ends h with
  | kept h =>
    have hul : t.ul = s.ul := congrArg UnitView.ul h
    have hpart : t.part = s.part := congrArg UnitView.part h
    unfold ArbiterLaw
    rw [hul, hpart]
    exact hs
  | reset hp _ _ => exact fun hrun => by rw [hp] at hrun; cases hrun
  | arbitrated u c ht _ =>
    rw [ht]
    exact arbiterLaw_arbitrate u

theorem step_killClassLaw {s t : State} (hs : KillClassLaw s) (h : step s = .next t) : KillClassLaw t := by
  cases step_ends h with
  | kept h => exact killClassLaw_of_line (congrArg UnitView.line h) hs
  | reset _ _ hq =>
    rw [killClassLaw_iff, hq]
    exact .nil
  | arbitrated u c ht hu =>
    rw [ht]
    exact killClassLaw_arbitrate (hu.killClass hs)

/-! ### The permit -/

/-- A CONTROL request is withheld by the kill part while the kill is ASSERTED, and otherwise a retune's TUNE by the programme part. -/
theorem withheldBy_eq_some {s : State} {r : ControlReq} {p : PermitPart} : s.withheldBy r = some p ↔
    (p = .killPart ∧ (r.kind = .tune ∨ r.kind = .unmute) ∧ s.kc.asserted = true) ∨
      (p = .programmePart ∧ r.kind = .tune ∧ s.kc.asserted = false ∧ r.forRetune = true ∧ s.linkOnProgramme r.link = true) := by
  unfold State.withheldBy
  cases hk : r.kind <;> cases ha : s.kc.asserted <;> cases p <;> simp

theorem linkOnProgramme_of_camera {s : State} {i c : Nat} {d : LinkDef} (hd : s.linkDef i = some d) (hc : d.camera = c + 1) :
    s.linkOnProgramme i = true ↔ (camOf s c).staged.programme = true ∨ (camOf s c).applied.programme = true := by
  unfold State.linkOnProgramme State.onProgramme
  rw [hd]
  dsimp only
  rw [hc]
  exact Bool.or_eq_true_iff

theorem needsPermit_control {x : UlReq} (h : x.needsPermit = true) :
    ∃ r, x = .controlReq r ∧ (r.kind = .tune ∨ r.kind = .unmute) := by
  cases x with
  | controlReq r => exact ⟨r, rfl, by simpa [UlReq.needsPermit] using h⟩
  | killReq _ | cueReq _ | attentionPoll _ | sweepReq _ => cases h

/-- Settles O8. -/
theorem noPermitFrameBegunWhileKilled : Obligations.NoPermitFrameBegunWhileKilled := by
  refine ⟨fun s t x hstep hkill hx => ?killed, fun s t x r d c hstep hx hr htune hretune hd hc hprogramme => ?programme⟩
  all_goals rcases step_frameLaw hstep x hx with hbefore | hlets
  case killed.inl | programme.inl => exact hbefore
  case killed.inr =>
    obtain ⟨-, -, hneeds⟩ := permitFrame_eq_some.1 hx
    obtain ⟨r, hr, hkind⟩ := needsPermit_control hneeds
    have hwithheld : t.withheldBy r = some .killPart := withheldBy_eq_some.2 (.inl ⟨rfl, hkind, hkill⟩)
    rw [hlets r hr] at hwithheld
    cases hwithheld
  case programme.inr =>
    have hshown : t.linkOnProgramme r.link = true := (linkOnProgramme_of_camera hd hc).2 hprogramme
    have hnone := hlets r hr
    cases hkill : t.kc.asserted with
    | true => rw [withheldBy_eq_some.2 (.inl ⟨rfl, .inl htune, hkill⟩)] at hnone; cases hnone
    | false => rw [withheldBy_eq_some.2 (.inr ⟨rfl, htune, hkill, hretune, hshown⟩)] at hnone; cases hnone

/-- Settles O46, class by class; the laws are those of every step's end. -/
theorem arbiterTakesHighestClass : Obligations.ArbiterTakesHighestClass := by
  refine ⟨fun s hp hx => ?classes, fun s h => ?stays, fun s t => ?ends, fun s t => step_arbiterLaw, fun s t => step_killClassLaw,
    fun s i c d kind o n => ?requests⟩
  case classes =>
    refine ⟨fun r q hk => ?_, fun r q hk hc => ?_, fun r q hk hc hq => ⟨fun hnone => ?_, fun p hw => ?_⟩,
      fun a hk hc hq ha => ?_, fun r q hk hc hq ha hs => ?_, fun hk hc hq ha hs => ?_⟩
    · exact arbitrate_begins hp hx (by simp only [nextRequest, hk]) nofun
    · exact arbitrate_begins hp hx (by simp only [nextRequest, hk, hc]) nofun
    · refine arbitrate_begins hp hx (by simp only [nextRequest, hk, hc, hq]) fun r' hr => ?_
      cases hr
      by_contra hsome
      obtain ⟨p, hsome⟩ := Option.ne_none_iff_exists'.1 hsome
      exact hnone p (withheldBy_eq_some.1 hsome)
    · exact arbitrate_withheld hp hx hk hc hq (withheldBy_eq_some.2 hw)
    · exact arbitrate_begins hp hx (by simp only [nextRequest, hk, hc, hq, ha]) nofun
    · exact arbitrate_begins hp hx (by simp only [nextRequest, hk, hc, hq, ha, hs]) nofun
    · exact arbitrate_idle (by simp only [nextRequest, hk, hc, hq, ha, hs])
  case stays =>
    rcases h with hp | hx
    · exact if_neg fun hrun => hp (of_decide_eq_true hrun)
    · obtain ⟨x, hx⟩ := Option.isSome_iff_exists.1 hx
      exact arbitrate_busy hx
  case ends => exact ⟨rfl, rfl, fun path => ⟨rfl, rfl⟩⟩
  case requests =>
    refine ⟨rfl, rfl, rfl, ?_, linkOnProgramme_of_camera, fun h => ?_⟩
    · simp [controlReq, State.linkRec]
    · unfold State.linkOnProgramme State.onProgramme
      rcases h with hd | ⟨hd, hc⟩ <;> rw [hd]
      dsimp only
      rw [hc]

end Sys2Proof.Machine
end

section
/-! PROOFS. Chapter 4: what the operations on a link change, each stated once: the state without the links, the link itself, and the
LINK entries (R60). -/

namespace Sys2Proof.Machine

/-! ### The state without its links -/

/-- The state without what a change of a link alters: the links, the notices, the reports and the hand-overs to tally and router. -/
def State.unlinked (s : State) : State :=
  { s with
    sup.links := [], jw := { s.jw with notice := 0, line := false }
    mail := { s.mail with reports := [], linkToTally := [], linkToRouter := [] } }

theorem onlyLinks_iff {s t : State} : OnlyLinks s t ↔ t.unlinked = s.unlinked := by
  refine ⟨fun h => ?_, fun h => ?_⟩
  · calc t.unlinked = _ := (congrArg State.unlinked h :)
      _ = s.unlinked := rfl
  · have eta (u : State) : u = { u.unlinked with
        sup := { u.unlinked.sup with links := u.sup.links }
        jw := { u.unlinked.jw with notice := u.jw.notice, line := u.jw.line }
        mail := { u.unlinked.mail with
          reports := u.mail.reports, linkToTally := u.mail.linkToTally, linkToRouter := u.mail.linkToRouter } } := rfl
    have ht := eta t
    rw [h] at ht
    exact ht

section
variable {s t : State} (h : t.unlinked = s.unlinked)
include h

theorem mem_of_unlinked : t.mem = s.mem := (congrArg State.mem h :)
theorem ctl_of_unlinked : t.ctl = s.ctl := (congrArg State.ctl h :)
theorem eng_of_unlinked : t.eng = s.eng := (congrArg State.eng h :)
theorem ul_of_unlinked : t.ul = s.ul := (congrArg State.ul h :)
theorem kc_of_unlinked : t.kc = s.kc := (congrArg State.kc h :)
theorem tb_of_unlinked : t.tb = s.tb := (congrArg State.tb h :)
theorem disp_of_unlinked : t.disp = s.disp := (congrArg State.disp h :)
theorem settings_of_unlinked : t.sup.settings = s.sup.settings := (congrArg (fun u => u.sup.settings) h :)
theorem linkDef_of_unlinked (i : Nat) : t.linkDef i = s.linkDef i := (congrArg (fun u => u.linkDef i) h :)
theorem rolePlan_of_unlinked (i : Nat) (r : Role) : t.rolePlan i r = s.rolePlan i r := (congrArg (fun u => u.rolePlan i r) h :)
theorem linkOnProgramme_of_unlinked (i : Nat) : t.linkOnProgramme i = s.linkOnProgramme i :=
  (congrArg (fun u => u.linkOnProgramme i) h :)
theorem now_of_unlinked : t.now = s.now := (congrArg State.now h :)
theorem entriesOf_of_unlinked (i : Nat) : entriesOf t i = entriesOf s i := (congrArg (fun u => entriesOf u i) h :)

end

/-! ### A change of one link -/

@[simp] theorem unlinked_links (s : State) (l : List Link) :
    ({ s with sup := { s.sup with links := l } } : State).unlinked = s.unlinked := rfl

@[simp] theorem setLink_unlinked (i : Nat) (l : Link) (s : State) : (setLink i l s).unlinked = s.unlinked := by
  obtain ⟨j, rs, vt, vr, h, hj⟩ := setLink_change i l s
  rw [h]
  rcases hj with rfl | rfl | rfl <;> rfl

@[simp] theorem modLink_unlinked (i : Nat) (f : Link → Link) (s : State) : (modLink i f s).unlinked = s.unlinked :=
  setLink_unlinked ..

@[simp] theorem modAux_unlinked (i : Nat) (f : LinkAux → LinkAux) (s : State) : (modAux i f s).unlinked = s.unlinked := rfl

@[simp] theorem report_unlinked (o : Owner) (r : JReport) (s : State) : (report o r s).unlinked = s.unlinked := rfl

@[simp] theorem modLink_length (i : Nat) (f : Link → Link) (s : State) :
    (modLink i f s).sup.links.length = s.sup.links.length := by
  rw [modLink, setLink_sup]
  exact List.length_set ..

@[simp] theorem modAux_length (i : Nat) (f : LinkAux → LinkAux) (s : State) :
    (modAux i f s).sup.links.length = s.sup.links.length := List.length_set ..

theorem link_modLink_self {i : Nat} {s : State} (hi : i < s.sup.links.length) (f : Link → Link) :
    (modLink i f s).link i = f (s.link i) := by rw [link_modLink, if_pos ⟨rfl, hi⟩]

theorem link_modAux_self {i : Nat} {s : State} (hi : i < s.sup.links.length) (f : LinkAux → LinkAux) :
    (modAux i f s).link i = { s.link i with aux := f (s.link i).aux } := by rw [link_modAux, if_pos ⟨rfl, hi⟩]

theorem modLink_reports (i : Nat) (f : Link → Link) (s : State) :
    (modLink i f s).mail.reports = s.mail.reports ++ linkEntries i (s.linkRec i) (f (s.link i)).vis s := setLink_reports ..

/-! ### What an operation on link i leaves of the supervisor -/

/-- An operation on link i: the other links are as before, and the table of links has its length. -/
structure LinkOp (i : Nat) (s t : State) : Prop where
  others : OtherLinks i s t
  length : t.sup.links.length = s.sup.links.length

theorem LinkOp.refl (i : Nat) (s : State) : LinkOp i s s := ⟨fun _ _ => rfl, rfl⟩

theorem LinkOp.trans {i : Nat} {s t u : State} (h : LinkOp i s t) (h' : LinkOp i t u) : LinkOp i s u :=
  ⟨fun j hj => (h'.others j hj).trans (h.others j hj), h'.length.trans h.length⟩

theorem LinkOp.lt {i : Nat} {s t : State} (h : LinkOp i s t) (hi : i < s.sup.links.length) : i < t.sup.links.length :=
  hi.trans_eq h.length.symm

theorem LinkOp.of_links {i : Nat} {s t : State} (h : t.sup.links = s.sup.links) : LinkOp i s t := by
  refine ⟨fun j _ => ?_, by rw [h]⟩
  unfold State.link
  rw [h]

theorem LinkOp.modLink (i : Nat) (f : Link → Link) (s : State) : LinkOp i s (modLink i f s) :=
  ⟨fun j hj => by rw [link_modLink, if_neg fun h => hj h.1], modLink_length ..⟩

theorem LinkOp.modAux (i : Nat) (f : LinkAux → LinkAux) (s : State) : LinkOp i s (modAux i f s) :=
  ⟨fun j hj => by rw [link_modAux, if_neg fun h => hj h.1], modAux_length ..⟩

end Sys2Proof.Machine
end

section
/-! PROOFS. Chapter 4: health, requests, orders and CONTROL requests of a link, each by what it changes (R26, R62, R85, R92). -/

namespace Sys2Proof.Machine

/-! ### Health (R73, R90, R92 to R94) -/

/-- A role without its health and what rates it: its codes. -/
def RoleRec.unrated (x : RoleRec) : RoleRec := { x with health := none, degradedSince := none, badRun := 0, goodRun := 0 }

/-- A link without the healths of its roles and what rates them. -/
def Link.unrated (l : Link) : Link :=
  { vis := { l.vis with outRec := l.vis.outRec.unrated, inRec := l.vis.inRec.unrated }
    aux := { l.aux with outDegradedAt := none, inDegradedAt := none } }

@[simp] theorem setHealth_unrated (s : State) (r : Role) (h : Option Health) (l : Link) :
    (l.setHealth s r h).unrated = l.unrated := by
  unfold Link.setHealth
  dsimp only
  split
  · rfl
  · cases r <;> rfl

@[simp] theorem setCounts_unrated (r : Role) (bad good : Nat) (l : Link) : (l.setCounts r bad good).unrated = l.unrated := by
  cases r <;> rfl

@[simp] theorem settle_unrated (s : State) (r : Role) (h : Option Health) (l : Link) :
    (l.settle s r h).unrated = l.unrated := by rw [Link.settle, setCounts_unrated, setHealth_unrated]

theorem foldl_unrated {α : Type} {f : Link → α → Link} (h : ∀ l a, (f l a).unrated = l.unrated) (x : List α) (l : Link) :
    (x.foldl f l).unrated = l.unrated := by
  induction x generalizing l with
  | nil => rfl
  | cons a x ih => rw [List.foldl_cons, ih, h]

@[simp] theorem goStale_unrated (s : State) (d : LinkDef) (l : Link) : (l.goStale s d).unrated = l.unrated :=
  foldl_unrated (fun l r => by dsimp only; split <;> simp) ..

@[simp] theorem goLost_unrated (s : State) (d : LinkDef) (l : Link) : (l.goLost s d).unrated = l.unrated :=
  foldl_unrated (fun l r => by split <;> simp) ..

@[simp] theorem rateRole_unrated (s : State) (p : Nat) (r : Role) (g : Grade) (l : Link) :
    (rateRole s p r g l).unrated = l.unrated := by
  unfold rateRole
  dsimp only
  (repeat' split) <;> simp

@[simp] theorem rateLink_unrated (s : State) (d : LinkDef) (c : ChanReport) (l : Link) :
    (rateLink s d c l).unrated = l.unrated :=
  foldl_unrated (fun l r => by split <;> simp) ..

section
variable {l l' : Link} (h : l'.unrated = l.unrated)
include h

theorem state_of_unrated : l'.vis.state = l.vis.state := (congrArg (fun x => x.vis.state) h :)
theorem hold_of_unrated : l'.vis.hold = l.vis.hold := (congrArg (fun x => x.vis.hold) h :)
theorem holdStart_of_unrated : l'.vis.holdStart = l.vis.holdStart := (congrArg (fun x => x.vis.holdStart) h :)
theorem seqKind_of_unrated : l'.vis.seqKind = l.vis.seqKind := (congrArg (fun x => x.vis.seqKind) h :)
theorem phase_of_unrated : l'.vis.phase = l.vis.phase := (congrArg (fun x => x.vis.phase) h :)
theorem orderCell_of_unrated : l'.vis.orderCell = l.vis.orderCell := (congrArg (fun x => x.vis.orderCell) h :)
theorem misses_of_unrated : l'.vis.misses = l.vis.misses := (congrArg (fun x => x.vis.misses) h :)
theorem present_of_unrated (r : Role) : (l'.vis.role r).present = (l.vis.role r).present := by
  cases r
  · exact (congrArg (fun x => x.vis.outRec.present) h :)
  · exact (congrArg (fun x => x.vis.inRec.present) h :)

end

/-- Neither an expired stale timer nor a miss count at its limit waits for the link's entry into ACTIVE or HOLDING. -/
abbrev Calm (s : State) (l : Link) : Prop := l.aux.staleExpired = false ∧ l.vis.misses < s.sup.settings.missLimit

theorem entryHealth_calm {s : State} {i : Nat} (h : Calm s (s.link i)) : entryHealth i s = s := by
  obtain ⟨hstale, hmiss⟩ := h
  have hmiss' : ¬s.sup.settings.missLimit ≤ (s.linkRec i).misses := not_le.2 hmiss
  unfold entryHealth
  split
  · rfl
  · dsimp only
    simp [hstale, hmiss']

/-- Two moves of a link at most. -/
theorem entryHealth_cases (i : Nat) (s : State) : ∃ f g : State → State, entryHealth i s = g (f s) ∧
    (f = id ∨ ∃ d, f = fun t => modLink i (Link.goStale t d) t) ∧ (g = id ∨ ∃ d, g = fun t => modLink i (Link.goLost t d) t) := by
  unfold entryHealth
  split
  · exact ⟨id, id, rfl, .inl rfl, .inl rfl⟩
  · next d _ =>
    dsimp only
    split <;> split
    · exact ⟨fun t => modLink i (Link.goStale t d) t, fun t => modLink i (Link.goLost t d) t, rfl, .inr ⟨d, rfl⟩, .inr ⟨d, rfl⟩⟩
    · exact ⟨fun t => modLink i (Link.goStale t d) t, id, rfl, .inr ⟨d, rfl⟩, .inl rfl⟩
    · exact ⟨id, fun t => modLink i (Link.goLost t d) t, rfl, .inl rfl, .inr ⟨d, rfl⟩⟩
    · exact ⟨id, id, rfl, .inl rfl, .inl rfl⟩

@[simp] theorem entryHealth_unlinked (i : Nat) (s : State) : (entryHealth i s).unlinked = s.unlinked := by
  obtain ⟨f, g, h, hf, hg⟩ := entryHealth_cases i s
  rw [h]
  rcases hf with rfl | ⟨d, rfl⟩ <;> rcases hg with rfl | ⟨e, rfl⟩ <;> simp

theorem LinkOp.entryHealth (i : Nat) (s : State) : LinkOp i s (entryHealth i s) := by
  obtain ⟨f, g, h, hf, hg⟩ := entryHealth_cases i s
  have op1 : LinkOp i s (f s) := by
    rcases hf with rfl | ⟨d, rfl⟩
    · exact .refl i s
    · exact .modLink ..
  have op2 : LinkOp i (f s) (g (f s)) := by
    rcases hg with rfl | ⟨d, rfl⟩
    · exact .refl ..
    · exact .modLink ..
  rw [h]
  exact op1.trans op2

theorem link_modLink_unrated {f : Link → Link} (hf : ∀ l, (f l).unrated = l.unrated) (i j : Nat) (s : State) :
    ((modLink i f s).link j).unrated = (s.link j).unrated := by
  rw [link_modLink]
  split
  · next h => rw [hf, h.1]
  · rfl

@[simp] theorem link_entryHealth (i j : Nat) (s : State) : ((entryHealth i s).link j).unrated = (s.link j).unrated := by
  obtain ⟨f, g, h, hf, hg⟩ := entryHealth_cases i s
  have step1 (t : State) : ((f t).link j).unrated = (t.link j).unrated := by
    rcases hf with rfl | ⟨d, rfl⟩
    · rfl
    · exact link_modLink_unrated (goStale_unrated t d) ..
  have step2 (t : State) : ((g t).link j).unrated = (t.link j).unrated := by
    rcases hg with rfl | ⟨d, rfl⟩
    · rfl
    · exact link_modLink_unrated (goLost_unrated t d) ..
  rw [h, step2, step1]

/-! ### Requests to the controller (R26) -/

/-- What the gate keeps of a link: whether a request is outstanding, and those held. -/
def LinkAux.gated (a : LinkAux) (outstanding : Bool) (held after : List CtlReq) : LinkAux :=
  { a with outstanding := outstanding, held := held, afterKill := after }

theorem LinkOp.sendLink (i : Nat) (r : CtlReq) (s : State) : LinkOp i s (sendLink i r s) := by
  unfold Machine.sendLink
  split
  · exact .modAux ..
  · split
    · exact .modAux ..
    · exact (LinkOp.modAux i (fun a => { a with outstanding := true }) s).trans (.of_links rfl)

/-- A request of a link changes the controller's queue and the gate. -/
theorem sendLink_unlinked (i : Nat) (r : CtlReq) (s : State) :
    (sendLink i r s).unlinked = { s.unlinked with ctl.queue := (sendLink i r s).ctl.queue } := by
  rw [sendLink_frame]
  rfl

theorem link_sendLink {i : Nat} (r : CtlReq) {s : State} (hi : i < s.sup.links.length) :
    ∃ a b c, (sendLink i r s).link i = { s.link i with aux := (s.link i).aux.gated a b c } := by
  unfold sendLink
  split
  · exact ⟨_, _, _, link_modAux_self hi _⟩
  · split
    · exact ⟨_, _, _, link_modAux_self hi _⟩
    · exact ⟨_, _, _, (link_modAux_self hi fun a => { a with outstanding := true } :)⟩

/-- A request that the gate lets through at once. -/
def Link.open (l : Link) : Prop := l.aux.outstanding = false ∧ l.aux.killWait = []

theorem sendLink_open {i : Nat} {r : CtlReq} {s : State} (h : (s.link i).open) :
    sendLink i r s = pushRequest r (modAux i (fun a => { a with outstanding := true }) s) := sendLink_sent h.2 h.1

/-! ### CONTROL requests (R85) -/

theorem mem_placeBy {α : Type} {same : α → Bool} {r : α} {l : List α} (_ : same r = true) : r ∈ placeBy same r l := by
  unfold placeBy
  split
  · next h =>
    obtain ⟨x, hx, hsame⟩ := List.any_eq_true.1 h
    exact List.mem_map.2 ⟨x, hx, if_pos hsame⟩
  · exact List.mem_append_right _ List.mem_cons_self

/-- A CONTROL request of a link with a definition stands in the CONTROL class. -/
theorem queueControl_eq {i : Nat} {d : LinkDef} {s : State} (hd : s.linkDef i = some d) (kind : ControlKind) (o n : Bool) :
    queueControl i kind o n s =
      { s with ul.controlQ := placeBy (fun x => x.link = i) (controlReq s i d kind o n) s.ul.controlQ } := by
  rw [queueControl, hd]
  rfl

theorem mem_queueControl {i : Nat} {d : LinkDef} {s : State} (hd : s.linkDef i = some d) (kind : ControlKind) (o n : Bool) :
    controlReq s i d kind o n ∈ (queueControl i kind o n s).ul.controlQ := by
  rw [queueControl_eq hd]
  exact mem_placeBy (decide_eq_true rfl)

/-- A CONTROL request changes the CONTROL class alone. -/
theorem queueControl_frame (i : Nat) (kind : ControlKind) (o n : Bool) (s : State) :
    queueControl i kind o n s = { s with ul.controlQ := (queueControl i kind o n s).ul.controlQ } := by
  unfold queueControl
  split <;> rfl

theorem queueForSequence_frame (i : Nat) (kind : ControlKind) (s : State) :
    queueForSequence i kind s = { s with ul.controlQ := (queueForSequence i kind s).ul.controlQ } := queueControl_frame ..

@[simp] theorem queueForSequence_link (i j : Nat) (kind : ControlKind) (s : State) :
    (queueForSequence i kind s).link j = s.link j := by
  rw [queueForSequence_frame]
  rfl

theorem mem_queueForSequence {i : Nat} {d : LinkDef} {s : State} (hd : s.linkDef i = some d) (kind : ControlKind) :
    controlReq s i d kind (s.linkRec i).seqOut (s.linkRec i).seqIn ∈ (queueForSequence i kind s).ul.controlQ :=
  mem_queueControl hd ..

/-! ### The order of a link (R62) -/

/-- No order, nothing to complete. -/
theorem completeLinkOrder_none {i : Nat} {l : Link} {k : ResultCode} {s : State} (ho : l.aux.order = none) :
    completeLinkOrder i l k s = s := by
  unfold completeLinkOrder
  rw [ho]

section
variable {i : Nat} {l : Link} {o : LinkOrder} (k : ResultCode) {s : State} (ho : l.aux.order = some o)
include ho

theorem completeLinkOrder_unlinked : (completeLinkOrder i l k s).unlinked = { s.unlinked with
    mem := (doneOrder .supervisor o.tag (linkResults o l s) k (some i) s).mem
    disp := { s.disp with service := s.disp.service.filter (· ≠ o.tag.cell) }, openCount := s.openCount + 24 } := by
  rw [completeLinkOrder_eq k ho, modLink_unlinked, doneOrder_frame]
  rfl

theorem LinkOp.completeLinkOrder : LinkOp i s (completeLinkOrder i l k s) := by
  rw [completeLinkOrder_eq k ho]
  refine LinkOp.trans (.of_links ?_) (.modLink ..)
  rw [doneOrder_frame]

theorem link_completeLinkOrder (hi : i < s.sup.links.length) :
    (completeLinkOrder i l k s).link i = (s.link i).unordered := by
  rw [completeLinkOrder_eq k ho, link_modLink, doneOrder_frame, if_pos ⟨rfl, hi⟩]
  rfl

theorem completeLinkOrder_ends (hm : Memory.wf s.mem) (hi : i < 96) : OrderEnds o.tag 4 k i s (completeLinkOrder i l k s) := by
  have h := doneOrder_ends (g := o.tag) (o := .supervisor) (code := k) (x := some i) hm (linkResults_fit o l s)
  rw [Option.getD_some, Nat.mod_eq_of_lt (by omega)] at h
  have hu := completeLinkOrder_unlinked (i := i) (s := s) k ho
  have hmem : (Machine.completeLinkOrder i l k s).mem = _ := (congrArg State.mem hu :)
  have hdisp : (Machine.completeLinkOrder i l k s).disp = _ := (congrArg State.disp hu :)
  have hnow : (Machine.completeLinkOrder i l k s).now = s.now := (congrArg State.now hu :)
  have hnow' : (doneOrder .supervisor o.tag (linkResults o l s) k (some i) s).now = s.now := by rw [doneOrder_frame]; rfl
  obtain ⟨hshows, htime, houtside, hservice⟩ := h
  rw [hnow'] at htime
  unfold OrderEnds
  rw [hmem, hdisp, hnow]
  exact ⟨hshows, htime, houtside, rfl⟩

/-- Completing the order makes its ORDER entry and no LINK entry. -/
theorem completeLinkOrder_reports : (completeLinkOrder i l k s).mail.reports =
    s.mail.reports ++ [(.supervisor, orderReport o.tag k 4 s)] := by
  rw [completeLinkOrder_eq k ho, modLink_reports, doneOrder_frame]
  have hnone (x : LinkRec) (t : State) : linkEntries i x { x with orderCell := none } t = [] := by
    simp [linkEntries, LinkRec.value, LinkRec.health, LinkRec.flags]
  exact (congrArg _ (hnone ..)).trans (List.append_nil _)

end

/-- The results of a sequence's order lie apart. -/
theorem sequenceResults_apart (c : Nat) (l : Link) (n : Nat) : Apart (sequenceResults c l n) := by
  unfold Apart sequenceResults
  split <;> split <;> simp [leBytes_length, roleBlock_length]

theorem parkResults_apart (c : Nat) (l : Link) : Apart (parkResults c l) := by simp [Apart, parkResults, leBytes_length]

/-- The attempts that an order of a sequence reports. -/
theorem completeLinkOrder_attempts {i : Nat} {l : Link} {o : LinkOrder} {k : ResultCode} {s : State} (ho : l.aux.order = some o)
    (hk : o.kind ≠ .park) (hm : Memory.wf s.mem) :
    resultByte (completeLinkOrder i l k s).mem o.tag.cell 1 = l.aux.attempts % 256 := by
  have hmem : (completeLinkOrder i l k s).mem = (doneOrder .supervisor o.tag (linkResults o l s) k (some i) s).mem :=
    (congrArg State.mem (completeLinkOrder_unlinked (i := i) (s := s) k ho) :)
  rw [hmem]
  have hres : linkResults o l s = sequenceResults s.openCount l (l.endHold s).aux.framesHeld := if_neg hk
  rw [hres]
  have hattempts : (1, leBytes l.aux.attempts 1) ∈ sequenceResults s.openCount l (l.endHold s).aux.framesHeld :=
    List.mem_append_left _ (List.mem_append_left _ (.tail _ (.head _)))
  exact doneOrder_byte hm (sequenceResults_apart ..) hattempts

end Sys2Proof.Machine
end

section
/-! PROOFS. Chapter 4: orders taken and refused, holds, and the sequences that ask for entries (R61 to R63, R69, R70, R74). -/

namespace Sys2Proof.Machine

/-! ### Orders refused and taken (R61, R62) -/

/-- A refused link order ends REFUSED with its code, and a refused parameter with its offset. -/
theorem refuseAs_ends {o : LinkOrder} {s : State} (x : ResultCode × Option Nat) (hm : Memory.wf s.mem) (hi : o.link < 96)
    (hk : o.kind ≠ .park) (hcode : ∀ off, x.2 = some off → x.1 = .badParameter ∧ off < 256) :
    OrderEnds o.tag 5 x.1 o.link s (refuseAs o x s) ∧
      (∀ off, x.2 = some off → resultByte (refuseAs o x s).mem o.tag.cell 0 = off) ∧
      refuseAs o x s = { s with
        mem := (refuseAs o x s).mem, disp := { s.disp with service := (refuseAs o x s).disp.service }
        mail := { s.mail with reports := (refuseAs o x s).mail.reports } } := by
  have hends (res : Results) (code : ResultCode) (hfit : ∀ y ∈ res, y.1 + y.2.length ≤ 64) :
      OrderEnds o.tag 5 code o.link s (refuseOrder .supervisor o.tag res code (some o.link) s) := by
    have h := completeOrder_ends .supervisor o.tag res code (some o.link) stRefused hm (by decide) hfit
    rwa [Option.getD_some, Nat.mod_eq_of_lt (by omega)] at h
  obtain ⟨code, off⟩ := x
  cases off with
  | none =>
    have heq : refuseAs o (code, none) s = refuseOrder .supervisor o.tag [(0, leBytes 0 1), (1, leBytes 0 1), (4, leBytes 0 4)]
        code (some o.link) s := by rw [refuseAs, refuseLinkOrder, if_neg hk]
    rw [heq]
    exact ⟨hends _ code (by simp [leBytes_length]), nofun, by rw [refuseOrder_frame]⟩
  | some off =>
    obtain ⟨rfl, hoff⟩ : code = .badParameter ∧ off < 256 := hcode off rfl
    have heq : refuseAs o (.badParameter, some off) s =
        refuseOrder .supervisor o.tag [(0, leBytes off 1)] .badParameter (some o.link) s := rfl
    rw [heq]
    refine ⟨hends _ _ (by simp [leBytes_length]), fun k hk => ?_, by rw [refuseOrder_frame]⟩
    obtain rfl := Option.some.inj hk
    have hbyte := doneOrder_byte (o := .supervisor) (g := o.tag) (code := .badParameter) (x := some o.link) (off := 0) (v := off)
      (res := [(0, leBytes off 1)]) hm (List.pairwise_singleton ..) List.mem_cons_self
    have hresult (st : Nat) := completeOrder_result .supervisor o.tag [(0, leBytes off 1)] .badParameter (some o.link) st hm 0
    exact (hresult stRefused).trans ((hresult stDone).symm.trans (hbyte.trans (Nat.mod_eq_of_lt hoff)))

/-- A link with a new order in service. -/
def Link.ordered (s : State) (o : LinkOrder) (l : Link) : Link :=
  { vis := { l.vis with orderCell := some o.tag.cell }
    aux := { l.aux with
      order := some o, attempts := 0, framesHeld := 0, holdFrame := s.tb.frames, answerOut := none, answerIn := none } }

theorem takeLinkOrder_eq (o : LinkOrder) (s : State) :
    takeLinkOrder o s = beginWork o.tag (modLink o.link (Link.ordered s o) s) := rfl

theorem takeLinkOrder_unlinked (o : LinkOrder) (s : State) :
    (takeLinkOrder o s).unlinked = { s.unlinked with mem := Memory.write s.mem (cellBase o.tag.cell) 3 } := by
  have h := modLink_unlinked o.link (Link.ordered s o) s
  have hmem : (modLink o.link (Link.ordered s o) s).mem = s.mem := mem_of_unlinked h
  calc (takeLinkOrder o s).unlinked
      = { (modLink o.link (Link.ordered s o) s).unlinked with
          mem := Memory.write (modLink o.link (Link.ordered s o) s).mem (cellBase o.tag.cell) 3 } := rfl
    _ = _ := by rw [h, hmem]

theorem link_takeLinkOrder {o : LinkOrder} {s : State} (hi : o.link < s.sup.links.length) :
    (takeLinkOrder o s).link o.link = (s.link o.link).ordered s o := by
  rw [takeLinkOrder_eq, beginWork_link, link_modLink_self hi]

theorem LinkOp.takeLinkOrder (o : LinkOrder) (s : State) : LinkOp o.link s (takeLinkOrder o s) :=
  (LinkOp.modLink o.link (Link.ordered s o) s).trans (.of_links rfl)

/-- The state byte of a taken order. -/
theorem orderWorks_of_mem {g : OrderTag} {s t : State} (hm : Memory.wf s.mem)
    (h : t.mem = Memory.write s.mem (cellBase g.cell) 3) : OrderWorks g s t := fun a => by rw [h, Memory.read_write hm]

/-! ### Asking for entries (R63, R69) -/

theorem queuePlanning_frame (r : PlanningReq) (s : State) : queuePlanning r s = { s with
    eng.queue := (queuePlanning r s).eng.queue, eng.standby := (queuePlanning r s).eng.standby } := by
  unfold queuePlanning
  split <;> rfl

theorem queuePlanning_placed (r : PlanningReq) (s : State) :
    ((queuePlanning r s).eng.queue = s.eng.queue ++ [.planning r] ∧ (queuePlanning r s).eng.standby = s.eng.standby) ∨
      ((queuePlanning r s).eng.queue = s.eng.queue ∧ (queuePlanning r s).eng.standby = s.eng.standby ++ [r]) := by
  unfold queuePlanning
  split
  · exact .inl ⟨rfl, rfl⟩
  · exact .inr ⟨rfl, rfl⟩

/-- A planning request of an order, for the roles without a code. -/
def LinkOrder.planning (o : LinkOrder) (i seq : Nat) (roles : List Role) : PlanningReq :=
  { retune := o.kind = .retune, link := i, cell := o.tag.cell, seq := seq, search := o.toSearch roles, given := o.given roles }

section
variable {i : Nat} {o : LinkOrder} {roles : List Role} {s : State}

theorem seekEntries_given (h : o.toSearch roles = []) : seekEntries i o roles s =
    sendLink i (.insert false i (s.link i).aux.seq
      ((o.given roles).filterMap fun c => (s.rolePlan i c.1).map fun p => (p, c.2))) s := if_pos h

theorem seekEntries_searched (h : o.toSearch roles ≠ []) : seekEntries i o roles s =
    queuePlanning (o.planning i ((modAux i (fun a => { a with planOut := true }) s).link i).aux.seq roles)
      (modAux i (fun a => { a with planOut := true }) s) := if_neg h

theorem LinkOp.seekEntries : LinkOp i s (seekEntries i o roles s) := by
  by_cases h : o.toSearch roles = []
  · rw [seekEntries_given h]
    exact .sendLink ..
  · rw [seekEntries_searched h, queuePlanning_frame]
    exact (LinkOp.modAux i (fun a => { a with planOut := true }) s).trans (.of_links rfl)

/-- Entries are asked for by a request to the controller or to the plan engine. -/
theorem seekEntries_unlinked : (seekEntries i o roles s).unlinked = { s.unlinked with
    ctl.queue := (seekEntries i o roles s).ctl.queue
    eng := { s.eng with queue := (seekEntries i o roles s).eng.queue, standby := (seekEntries i o roles s).eng.standby } } := by
  by_cases h : o.toSearch roles = []
  · rw [seekEntries_given h]
    have heng : (sendLink i (.insert false i (s.link i).aux.seq
      ((o.given roles).filterMap fun c => (s.rolePlan i c.1).map fun p => (p, c.2))) s).eng = s.eng := by
      rw [sendLink_frame]
    rw [heng, sendLink_unlinked]
    rfl
  · rw [seekEntries_searched h, queuePlanning_frame]
    rfl

theorem link_seekEntries (hi : i < s.sup.links.length) : ∃ p a b c,
    (seekEntries i o roles s).link i = { s.link i with aux := { (s.link i).aux.gated a b c with planOut := p } } := by
  by_cases h : o.toSearch roles = []
  · rw [seekEntries_given h]
    obtain ⟨a, b, c, hlink⟩ := link_sendLink (.insert false i (s.link i).aux.seq
      ((o.given roles).filterMap fun c => (s.rolePlan i c.1).map fun p => (p, c.2))) hi
    exact ⟨(s.link i).aux.planOut, a, b, c, hlink⟩
  · rw [seekEntries_searched h, queuePlanning_frame]
    exact ⟨true, _, _, _, (link_modAux_self hi fun a => { a with planOut := true } :)⟩

@[simp] theorem seekEntries_mem : (seekEntries i o roles s).mem = s.mem := (congrArg State.mem seekEntries_unlinked :)

@[simp] theorem seekEntries_reports : (seekEntries i o roles s).mail.reports = s.mail.reports := by
  by_cases h : o.toSearch roles = []
  · rw [seekEntries_given h, sendLink_frame]
  · rw [seekEntries_searched h, queuePlanning_frame]
    rfl

end

/-- The entries of an order's sequence have been asked for: by one INSERT when every role has a code, else by one planning request
for the roles without. -/
structure EntriesSought (i seq : Nat) (o : LinkOrder) (roles : List Role) (s t : State) : Prop where
  given : o.toSearch roles = [] → (s.link i).open → t.eng = s.eng ∧ t.ctl.queue = s.ctl.queue ++
    [.insert false i seq ((o.given roles).filterMap fun c => (s.rolePlan i c.1).map fun p => (p, c.2))]
  searched : o.toSearch roles ≠ [] → t.ctl.queue = s.ctl.queue ∧ ∃ q : PlanningReq,
    q.retune = decide (o.kind = .retune) ∧ q.link = i ∧ q.cell = o.tag.cell ∧ q.search = o.toSearch roles ∧ q.given = o.given roles ∧
    ((t.eng.queue = s.eng.queue ++ [.planning q] ∧ t.eng.standby = s.eng.standby) ∨
      (t.eng.queue = s.eng.queue ∧ t.eng.standby = s.eng.standby ++ [q]))
  rest : t.unlinked = { s.unlinked with
    mem := t.mem, ctl.queue := t.ctl.queue, eng := { s.eng with queue := t.eng.queue, standby := t.eng.standby } }

theorem entriesSought_seekEntries (i : Nat) (o : LinkOrder) (roles : List Role) (s : State) :
    EntriesSought i (s.link i).aux.seq o roles s (seekEntries i o roles s) := by
  refine ⟨fun h hopen => ?_, fun h => ?_, ?_⟩
  · rw [seekEntries_given h, sendLink_open hopen]
    exact ⟨rfl, rfl⟩
  · rw [seekEntries_searched h]
    refine ⟨?_, _, rfl, rfl, rfl, rfl, rfl, queuePlanning_placed ..⟩
    rw [queuePlanning_frame]
    rfl
  · rw [seekEntries_mem]
    exact seekEntries_unlinked

/-- They were asked for after a change of the link and of memory. -/
theorem EntriesSought.of_unlinked {i seq : Nat} {o : LinkOrder} {roles : List Role} {m : List Host.Cell} {s u t : State}
    (h : EntriesSought i seq o roles u t) (hu : u.unlinked = ({ s with mem := m } : State).unlinked)
    (hopen : (s.link i).open → (u.link i).open) : EntriesSought i seq o roles s t := by
  have heng : u.eng = s.eng := (eng_of_unlinked hu :)
  have hctl : u.ctl = s.ctl := (ctl_of_unlinked hu :)
  have hplan (r : Role) : u.rolePlan i r = s.rolePlan i r := rolePlan_of_unlinked hu i r
  obtain ⟨hgiven, hsearched, hrest⟩ := h
  simp only [heng, hctl, hplan] at hgiven hsearched
  refine ⟨fun hs ho => hgiven hs (hopen ho), hsearched, ?_⟩
  rw [hrest, hu, heng]
  rfl

end Sys2Proof.Machine
end

section
/-! PROOFS. O33: ENABLE_LINK refused, or its sequence begun (R61, R63, TABLE 4-5). -/

namespace Sys2Proof.Machine

theorem mem_bothRoles (r : Role) : r ∈ bothRoles := by
  cases r
  · exact List.mem_cons_self
  · exact List.mem_cons_of_mem _ List.mem_cons_self

theorem givesUndeclared_iff (o : LinkOrder) (d : LinkDef) :
    givesUndeclared o d = true ↔ ∃ r, (o.code r).isSome = true ∧ d.role r = none := by
  simp [givesUndeclared, List.any_eq_true, mem_bothRoles]

theorem next_finishLink {s t u : State} (h : t = u) :
    (Host.Outcome.next (finishLink s t) : Host.Outcome State Fault Refusal) = .next (finishLink s u) := by rw [h]

/-- A link order that its step refuses. -/
theorem refused_of_step {c : Instr} {s : State} {o : LinkOrder} {rest : List LinkOrder} {x : ResultCode × Option Nat}
    (hm : Memory.wf s.mem) (hi : o.link < 96) (hk : o.kind ≠ .park)
    (hcode : ∀ off, x.2 = some off → x.1 = .badParameter ∧ off < 256)
    (hstep : exec c s = .next (finishLink s (refuseAs o x { s with mail.linkOrders := rest }))) :
    ∃ t, exec c s = .next (finishLink s t) ∧ OrderEnds o.tag 5 x.1 o.link s t ∧
      (∀ k, x.2 = some k → resultByte t.mem o.tag.cell 0 = k) ∧
      t = { s with
        mem := t.mem, disp := { s.disp with service := t.disp.service }
        mail := { s.mail with linkOrders := rest, reports := t.mail.reports } } :=
  ⟨_, hstep, refuseAs_ends (s := { s with mail.linkOrders := rest }) x hm hi hk hcode⟩

/-- A link at the beginning of an enable's sequence. -/
def Link.enabling (o : LinkOrder) (d : LinkDef) (l : Link) : Link :=
  let m := l.startSequence .enable .inserting d.outRole.isSome d.inRole.isSome
  { vis := { m.vis with
      state := if o.toSearch d.declared ≠ [] then .planning else .tuning
      retuneNeeded := if l.vis.state = .faulted then false else m.vis.retuneNeeded }
    aux := { m.aux with began := l.vis.state, permitKept := false } }

section
variable {s : State} {o : LinkOrder} {rest : List LinkOrder}

theorem beginEnable_eq {d : LinkDef} (hd : s.linkDef o.link = some d) : beginEnable o s =
    seekEntries o.link o d.declared (modLink o.link (Link.enabling o d) (takeLinkOrder o s)) := by
  have hdef : (takeLinkOrder o s).linkDef o.link = some d :=
    (linkDef_of_unlinked (s := { s with mem := _ }) (takeLinkOrder_unlinked o s) o.link).trans hd
  unfold beginEnable
  dsimp only
  rw [hdef]
  rfl

theorem enableLinkStep_refused {x : ResultCode × Option Nat} (hq : s.mail.linkOrders = o :: rest) (hk : o.kind = .enable)
    (hx : enableRefusal o s = some x) : enableLinkStep s = refuseAs o x { s with mail.linkOrders := rest } := by
  have hx' : enableRefusal o { s with mail.linkOrders := rest } = some x := hx
  simp only [enableLinkStep, hq, if_pos hk, hx']

theorem enableLinkStep_begun (hq : s.mail.linkOrders = o :: rest) (hk : o.kind = .enable)
    (hx : enableRefusal o s = none) : enableLinkStep s = beginEnable o { s with mail.linkOrders := rest } := by
  have hx' : enableRefusal o { s with mail.linkOrders := rest } = none := hx
  simp only [enableLinkStep, hq, if_pos hk, hx']

/-! ### The tests of ENABLE_LINK -/

theorem enableRefusal_killed (h : s.kc.asserted = true) : enableRefusal o s = some (.killed, none) := if_pos h

theorem enableRefusal_parameter {d : LinkDef} (hd : s.linkDef o.link = some d) (hka : s.kc.asserted = false)
    (hg : givesUndeclared o d = true) : enableRefusal o s = some (.badParameter, some 1) := by
  simp [enableRefusal, hka, hd, hg]

section
variable (hka : s.kc.asserted = false) (hg : (s.linkDef o.link).any (givesUndeclared o) = false)
include hka hg

theorem enableRefusal_busy (hb : (s.link o.link).aux.order.isSome = true ∨ s.adopt.barred.contains o.link = true) :
    enableRefusal o s = some (.busy, none) := by
  unfold enableRefusal
  rw [if_neg (by simp [hka]), if_neg (by simp [hg]), if_pos (by rwa [Bool.or_eq_true])]

/-- The test of the state comes last. -/
theorem enableRefusal_state (ho : (s.link o.link).aux.order = none) (hb : s.adopt.barred.contains o.link = false) :
    enableRefusal o s =
      if (s.link o.link).vis.state ∈ [LinkState.planning, .tuning, .retuning, .holding, .killed] then some (.busy, none)
      else if (s.link o.link).vis.state ∈ [LinkState.vacant, .learning, .active] then some (.wrongState, none)
      else none := by
  unfold enableRefusal State.linkRec
  rw [if_neg (by simp [hka]), if_neg (by simp [hg]), ho, hb, if_neg (by decide)]
  cases (s.link o.link).vis.state <;> rfl

end

end

/-! ### The sequence that ENABLE_LINK begins -/

/-- What an ENABLE_LINK that is taken leaves. -/
structure EnableBegun (o : LinkOrder) (d : LinkDef) (s t : State) : Prop where
  op : LinkOp o.link s t
  works : OrderWorks o.tag s t
  link : ∃ p a b c, t.link o.link =
    { ((s.link o.link).ordered s o).enabling o d with
      aux := { (((s.link o.link).ordered s o).enabling o d).aux.gated a b c with planOut := p } }
  sought : EntriesSought o.link ((s.link o.link).aux.seq + 1) o d.declared s t

theorem enableBegun_beginEnable {o : LinkOrder} {d : LinkDef} {s : State} (hm : Memory.wf s.mem)
    (hi : o.link < s.sup.links.length) (hd : s.linkDef o.link = some d) : EnableBegun o d s (beginEnable o s) := by
  obtain ⟨u, hu⟩ : ∃ u, u = modLink o.link (Link.enabling o d) (takeLinkOrder o s) := ⟨_, rfl⟩
  have hop : LinkOp o.link s u := by
    rw [hu]
    exact (LinkOp.takeLinkOrder o s).trans (.modLink ..)
  have hunlinked : u.unlinked = ({ s with mem := Memory.write s.mem (cellBase o.tag.cell) 3 } : State).unlinked := by
    rw [hu, modLink_unlinked, takeLinkOrder_unlinked]
    rfl
  have hlink : u.link o.link = ((s.link o.link).ordered s o).enabling o d := by
    rw [hu, link_modLink_self ((LinkOp.takeLinkOrder o s).lt hi), link_takeLinkOrder hi]
  have hsought := entriesSought_seekEntries o.link o d.declared u
  rw [beginEnable_eq hd, ← hu]
  refine ⟨hop.trans .seekEntries, orderWorks_of_mem hm (seekEntries_mem.trans (mem_of_unlinked hunlinked)), ?_, ?_⟩
  · rw [← hlink]
    exact link_seekEntries (hop.lt hi)
  · have hseq : (u.link o.link).aux.seq = (s.link o.link).aux.seq + 1 := by rw [hlink]; rfl
    rw [hseq] at hsought
    refine hsought.of_unlinked hunlinked fun h => ?_
    rw [hlink]
    exact h

/-- Settles O33. -/
theorem enableLinkSteps : Obligations.EnableLinkSteps := by
  refine ⟨fun s o rest hm hq hk hi hd => ?undefined, fun s o rest d hm hq hk hi hlen hd => ?defined⟩
  case undefined =>
    have hrefused (code : ResultCode) (hx : enableRefusal o s = some (code, none)) :=
      refused_of_step (c := .enableLink) (x := (code, none)) (rest := rest) hm hi (by simp [hk]) nofun
        (next_finishLink (enableLinkStep_refused hq hk hx))
    refine ⟨fun hka => ?_, fun hka ho hb hv => ?_⟩
    · obtain ⟨t, hstep, hends, -, ht⟩ := hrefused .killed (enableRefusal_killed hka)
      exact ⟨t, hstep, hends, ht⟩
    · have hx : enableRefusal o s = some (.wrongState, none) := by
        rw [enableRefusal_state hka (by simp [hd]) ho hb, show (s.link o.link).vis.state = .vacant from hv]
        rfl
      obtain ⟨t, hstep, hends, -, ht⟩ := hrefused .wrongState hx
      exact ⟨t, hstep, hends, ht⟩
  case defined =>
    have hrefused (x : ResultCode × Option Nat) (hcode : ∀ off, x.2 = some off → x.1 = .badParameter ∧ off < 256)
        (hx : enableRefusal o s = some x) :=
      refused_of_step (c := .enableLink) (x := x) (rest := rest) hm hi (by simp [hk]) hcode
        (next_finishLink (enableLinkStep_refused hq hk hx))
    have hgiven (hg : givesUndeclared o d = false) : (s.linkDef o.link).any (givesUndeclared o) = false := by rw [hd]; exact hg
    refine ⟨givesUndeclared_iff o d, fun hka => hrefused (_, _) nofun (enableRefusal_killed hka), fun hka hg => ?parameter,
      fun hka hg hbusy => ?busy, fun hka hg ho hb hst => ?busyState, fun hka hg ho hb hst => ?wrongState,
      fun hka hg ho hb hst hout hwait => ?begun⟩
    case parameter =>
      refine hrefused (_, _) (fun off hoff => ?_) (enableRefusal_parameter hd hka hg)
      obtain rfl := Option.some.inj hoff
      exact ⟨rfl, by decide⟩
    case busy => exact hrefused (_, _) nofun (enableRefusal_busy hka (hgiven hg) hbusy)
    case busyState => exact hrefused (_, _) nofun ((enableRefusal_state hka (hgiven hg) ho hb).trans (if_pos hst))
    case wrongState =>
      refine hrefused (_, _) nofun ((enableRefusal_state hka (hgiven hg) ho hb).trans ?_)
      rw [if_neg (fun h => ?_), if_pos hst]
      simp only [List.mem_cons, List.not_mem_nil, or_false] at h hst
      rcases hst with hst | hst | hst <;> simp [hst] at h
    case begun =>
      have hnone : enableRefusal o s = none := by
        rw [enableRefusal_state hka (hgiven hg) ho hb]
        simp only [List.mem_cons, List.not_mem_nil, or_false] at hst
        rcases hst with hst | hst <;> simp [hst]
      have h := enableBegun_beginEnable (s := { s with mail.linkOrders := rest }) hm hlen hd
      rw [← enableLinkStep_begun hq hk hnone] at h
      obtain ⟨p, a, b, c, hlink⟩ := h.link
      refine ⟨enableLinkStep s, rfl, h.works, h.op.others, ?_⟩
      rw [State.linkRec, hlink]
      refine ⟨rfl, rfl, rfl, rfl, rfl, rfl, rfl, rfl, ?_, fun hs => ⟨if_pos hs, ?_⟩,
        fun hs => ⟨if_neg (not_not.2 hs), h.sought.given hs ⟨hout, hwait⟩⟩, onlyLinks_iff.2 h.sought.rest⟩
      · show (if (s.link o.link).vis.state = .faulted then false else (s.link o.link).vis.retuneNeeded) = _
        by_cases hf : (s.link o.link).vis.state = .faulted <;> simp [hf]
      · obtain ⟨hqueue, q, hr, hq⟩ := h.sought.searched hs
        exact ⟨hqueue, q, by simpa [hk] using hr, hq⟩

end Sys2Proof.Machine
end

section
/-! PROOFS. Chapter 4: retunes, failovers and holds that begin and end (R69 to R74). -/

namespace Sys2Proof.Machine

/-! ### The end of a hold -/

theorem endHold_eq (s : State) (l : Link) : ∃ h a b c, l.endHold s =
    { vis := { l.vis with hold := none, holdStart := h }
      aux := { l.aux with framesHeld := a, holdAt := b, holdTimer := c } } := by
  unfold Link.endHold
  split
  · next h =>
    refine ⟨l.vis.holdStart, l.aux.framesHeld, l.aux.holdAt, l.aux.holdTimer, ?_⟩
    rw [← h]
  · exact ⟨_, _, _, _, rfl⟩

@[simp] theorem endHold_state (s : State) (l : Link) : (l.endHold s).vis.state = l.vis.state := by
  obtain ⟨h, a, b, c, hl⟩ := endHold_eq s l
  rw [hl]

/-! ### A retune that proceeds (R69) -/

/-- A link at the beginning of a retune's sequence. -/
def Link.retuning (s : State) (o : LinkOrder) (kept : Bool) (l : Link) : Link :=
  let m := (l.endHold s).startSequence .retune .inserting o.roleOut o.roleIn
  let began : LinkState := if l.vis.state = .faulted then .faulted else .active
  { vis := { m.vis with state := .retuning, retuneNeeded := if began = .faulted then false else m.vis.retuneNeeded }
    aux := { m.aux with began := began, permitKept := kept } }

/-- What the beginning of a retune's sequence says of its link. -/
structure Link.Retuning (o : LinkOrder) (kept : Bool) (l m : Link) : Prop where
  state : m.vis.state = .retuning
  seqKind : m.vis.seqKind = .retune
  phase : m.vis.phase = .inserting
  seqOut : m.vis.seqOut = o.roleOut
  seqIn : m.vis.seqIn = o.roleIn
  hold : m.vis.hold = none
  cell : m.vis.orderCell = l.vis.orderCell
  order : m.aux.order = l.aux.order
  permit : m.aux.permitKept = kept
  began : m.aux.began = if l.vis.state = .faulted then .faulted else .active
  needed : m.vis.retuneNeeded = (l.vis.retuneNeeded && decide (l.vis.state ≠ .faulted))

theorem retuning_spec (s : State) (o : LinkOrder) (kept : Bool) (l : Link) : l.Retuning o kept (l.retuning s o kept) := by
  obtain ⟨h, a, b, c, hl⟩ := endHold_eq s l
  unfold Link.retuning
  rw [hl]
  refine ⟨rfl, rfl, rfl, rfl, rfl, rfl, rfl, rfl, rfl, rfl, ?_⟩
  by_cases hf : l.vis.state = .faulted <;> simp [hf, Link.startSequence]

theorem retuning_gate (s : State) (o : LinkOrder) (kept : Bool) (l : Link) :
    (l.retuning s o kept).aux.seq = l.aux.seq + 1 ∧ (l.open → (l.retuning s o kept).open) := by
  obtain ⟨h, a, b, c, hl⟩ := endHold_eq s l
  unfold Link.retuning
  rw [hl]
  exact ⟨rfl, id⟩

/-- A retune that has proceeded. -/
structure RetuneBegun (i : Nat) (o : LinkOrder) (kept : Bool) (s t : State) : Prop where
  op : LinkOp i s t
  link : (s.link i).Retuning o kept (t.link i)
  sought : EntriesSought i ((s.link i).aux.seq + 1) o (bothRoles.filter o.names) s t
  mem : t.mem = s.mem
  reports : s.mail.reports <+: t.mail.reports

theorem proceedRetune_eq {i : Nat} {o : LinkOrder} {s : State} (kept : Bool) (ho : (s.link i).aux.order = some o) :
    proceedRetune i kept s = seekEntries i o (bothRoles.filter o.names) (modLink i (Link.retuning s o kept) s) := by
  unfold proceedRetune
  dsimp only
  rw [ho]
  rfl

theorem modLink_reports_prefix (i : Nat) (f : Link → Link) (s : State) :
    s.mail.reports <+: (modLink i f s).mail.reports := ⟨_, (modLink_reports i f s).symm⟩

theorem retuneBegun_proceedRetune {i : Nat} {o : LinkOrder} {s : State} (kept : Bool) (hi : i < s.sup.links.length)
    (ho : (s.link i).aux.order = some o) : RetuneBegun i o kept s (proceedRetune i kept s) := by
  have hop : LinkOp i s (modLink i (Link.retuning s o kept) s) := .modLink ..
  have hlink := link_modLink_self hi (Link.retuning s o kept)
  have hunlinked := modLink_unlinked i (Link.retuning s o kept) s
  have hreports := modLink_reports_prefix i (Link.retuning s o kept) s
  rw [proceedRetune_eq kept ho]
  generalize modLink i (Link.retuning s o kept) s = u at hop hlink hunlinked hreports
  obtain ⟨hseq, hopen⟩ := retuning_gate s o kept (s.link i)
  have hsought := entriesSought_seekEntries i o (bothRoles.filter o.names) u
  rw [hlink, hseq] at hsought
  refine ⟨hop.trans .seekEntries, ?_, hsought.of_unlinked (m := s.mem) hunlinked fun h => ?_,
    seekEntries_mem.trans (mem_of_unlinked hunlinked), by rwa [seekEntries_reports]⟩
  · obtain ⟨p, a, b, c, ht⟩ := link_seekEntries (o := o) (roles := bothRoles.filter o.names) (hop.lt hi)
    rw [ht, hlink]
    obtain ⟨h1, h2, h3, h4, h5, h6, h7, h8, h9, h10, h11⟩ := retuning_spec s o kept (s.link i)
    exact ⟨h1, h2, h3, h4, h5, h6, h7, h8, h9, h10, h11⟩
  · rw [hlink]
    exact hopen h

/-! ### A failover that proceeds (R74) -/

/-- A link at the beginning of a failover's sequence. -/
def Link.failing (s : State) (roles : List Role) (kept : Bool) (l : Link) : Link :=
  let m := (l.endHold s).startSequence .failover .inserting (roles.contains .outbound) (roles.contains .inbound)
  { vis := { m.vis with state := .retuning }, aux := { m.aux with began := .active, permitKept := kept } }

theorem proceedFailover_eq (i : Nat) (kept : Bool) (s : State) : proceedFailover i kept s =
    sendLink i (.take i ((modLink i (Link.failing s (failingRoles s i) kept) s).link i).aux.seq
        ((failingRoles s i).filterMap fun r => (modLink i (Link.failing s (failingRoles s i) kept) s).rolePlan i r))
      (modLink i (Link.failing s (failingRoles s i) kept) s) := rfl

/-- A failover that has proceeded. -/
structure FailoverBegun (i : Nat) (kept : Bool) (s t : State) : Prop where
  op : LinkOp i s t
  state : (t.linkRec i).state = .retuning
  seqKind : (t.linkRec i).seqKind = .failover
  phase : (t.linkRec i).phase = .inserting
  hold : (t.linkRec i).hold = none
  roles : ∀ r, (t.linkRec i).inSequence r = true ↔ r ∈ failingRoles s i
  permit : (t.link i).aux.permitKept = kept
  sent : (s.link i).open → t.ctl = { s.ctl with queue := s.ctl.queue ++
    [.take i ((s.link i).aux.seq + 1) ((failingRoles s i).filterMap fun r => s.rolePlan i r)] }
  rest : t.unlinked = { s.unlinked with ctl.queue := t.ctl.queue }
  reports : s.mail.reports <+: t.mail.reports

theorem failoverBegun_proceedFailover {i : Nat} {s : State} (kept : Bool) (hi : i < s.sup.links.length) :
    FailoverBegun i kept s (proceedFailover i kept s) := by
  have hop : LinkOp i s (modLink i (Link.failing s (failingRoles s i) kept) s) := .modLink ..
  have hlink := link_modLink_self hi (Link.failing s (failingRoles s i) kept)
  have hunlinked := modLink_unlinked i (Link.failing s (failingRoles s i) kept) s
  have hreports := modLink_reports_prefix i (Link.failing s (failingRoles s i) kept) s
  rw [proceedFailover_eq]
  generalize modLink i (Link.failing s (failingRoles s i) kept) s = u at hop hlink hunlinked hreports
  obtain ⟨h, a, b, c, hl⟩ := endHold_eq s (s.link i)
  unfold Link.failing at hlink
  rw [hl] at hlink
  have hctl : u.ctl = s.ctl := ctl_of_unlinked hunlinked
  have hplan (r : Role) : u.rolePlan i r = s.rolePlan i r := rolePlan_of_unlinked hunlinked i r
  have hseq : (u.link i).aux.seq = (s.link i).aux.seq + 1 := by rw [hlink]; rfl
  simp only [hplan, hseq]
  generalize hr : CtlReq.take i ((s.link i).aux.seq + 1) ((failingRoles s i).filterMap fun r => s.rolePlan i r) = r
  obtain ⟨a', b', c', ht⟩ := link_sendLink r (hop.lt hi)
  have hvis : (sendLink i r u).linkRec i = (u.link i).vis := by rw [State.linkRec, ht]
  refine ⟨hop.trans (.sendLink ..), ?_, ?_, ?_, ?_, ?_, ?_, fun hopen => ?_, ?_, ?_⟩
  · rw [hvis, hlink]
  · rw [hvis, hlink]; rfl
  · rw [hvis, hlink]; rfl
  · rw [hvis, hlink]; rfl
  · intro r
    rw [hvis, hlink]
    cases r <;> exact List.contains_iff_mem
  · rw [ht, hlink]; rfl
  · have hopen' : (u.link i).open := by rw [hlink]; exact hopen
    rw [sendLink_open hopen', ← hctl, hr]
    rfl
  · rw [sendLink_unlinked, hunlinked]
  · rw [sendLink_frame]
    exact hreports

/-! ### A hold that begins (R70) -/

/-- A link that goes HOLDING. -/
def Link.holding (s : State) (reason : HoldReason) (limit : Nat) (l : Link) : Link :=
  let m := (l.endHold s).endSequence
  { vis := { m.vis with state := .holding, hold := some reason, holdStart := some s.now }
    aux := { m.aux with holdAt := some s.tb.elapsed, holdTimer := limit ≠ 0, holdFrame := s.tb.frames } }

theorem beginHold_eq (i : Nat) (reason : HoldReason) (s : State) : beginHold i reason s =
    entryHealth i (modLink i (Link.holding s reason (((s.linkDef i).map (·.holdS)).getD 0)) s) := by
  unfold beginHold
  cases s.linkDef i <;> rfl

@[simp] theorem beginHold_unlinked (i : Nat) (reason : HoldReason) (s : State) :
    (beginHold i reason s).unlinked = s.unlinked := by rw [beginHold_eq, entryHealth_unlinked, modLink_unlinked]

/-- A hold that has begun. -/
structure HoldBegun (i : Nat) (reason : HoldReason) (s t : State) : Prop where
  op : LinkOp i s t
  state : (t.linkRec i).state = .holding
  hold : (t.linkRec i).hold = some reason
  start : (t.linkRec i).holdStart = some s.now
  seqKind : (t.linkRec i).seqKind = .noSequence
  cell : (t.linkRec i).orderCell = (s.linkRec i).orderCell
  unlinked : t.unlinked = s.unlinked

theorem holdBegun_beginHold {i : Nat} (reason : HoldReason) {s : State} (hi : i < s.sup.links.length) :
    HoldBegun i reason s (beginHold i reason s) := by
  have hun := beginHold_unlinked i reason s
  rw [beginHold_eq] at hun ⊢
  generalize ((s.linkDef i).map (·.holdS)).getD 0 = limit at hun ⊢
  have hop : LinkOp i s (modLink i (Link.holding s reason limit) s) := .modLink ..
  have hlink := link_modLink_self hi (Link.holding s reason limit)
  generalize modLink i (Link.holding s reason limit) s = u at hun hop hlink
  obtain ⟨h, a, b, c, hl⟩ := endHold_eq s (s.link i)
  unfold Link.holding at hlink
  rw [hl] at hlink
  have ht := link_entryHealth i i u
  refine ⟨hop.trans (.entryHealth ..), (state_of_unrated ht).trans ?_, (hold_of_unrated ht).trans ?_,
    (holdStart_of_unrated ht).trans ?_, (seqKind_of_unrated ht).trans ?_, (orderCell_of_unrated ht).trans ?_, hun⟩
  all_goals rw [hlink]
  · rfl
  · rfl

/-! ### Evaluations of failover (R71, R73) -/

theorem linkOnProgramme_eq {i : Nat} {d : LinkDef} {s : State} (hd : s.linkDef i = some d) :
    s.linkOnProgramme i = s.onProgramme d.camera := by
  unfold State.linkOnProgramme
  rw [hd]

/-- A failover that an evaluation begins or holds. -/
def FailoverDue (s : State) (i : Nat) : Prop :=
  (s.link i).vis.state = .active ∧ (s.link i).aux.order = none ∧ s.kc.asserted = false ∧ failoverWanted s i = true ∧
    (s.link i).aux.retryAt = none

theorem evaluateFailover_idle {i : Nat} {s : State} (h : ¬FailoverDue s i) : evaluateFailover i s = s := by
  unfold evaluateFailover
  dsimp only
  refine if_neg fun hw => h ?_
  simpa [FailoverDue, and_assoc] using hw

section
variable {i : Nat} {s : State} (h : FailoverDue s i)
include h

theorem evaluateFailover_due : evaluateFailover i s =
    if s.linkOnProgramme i then beginHold i .failover s else proceedFailover i false s := by
  unfold evaluateFailover
  dsimp only
  refine if_pos ?_
  simpa [FailoverDue, and_assoc] using h

theorem evaluateFailover_holds (hp : s.linkOnProgramme i = true) : evaluateFailover i s = beginHold i .failover s :=
  (evaluateFailover_due h).trans (if_pos hp)

theorem evaluateFailover_proceeds (hp : s.linkOnProgramme i = false) : evaluateFailover i s = proceedFailover i false s :=
  (evaluateFailover_due h).trans (if_neg (by rw [hp]; exact Bool.false_ne_true))

end

/-- A FAILOVER hold with no role failing. -/
def HoldOver (s : State) (i : Nat) : Prop :=
  (s.link i).vis.state = .holding ∧ (s.link i).vis.hold = some .failover ∧ failoverWanted s i = false

theorem recheckHold_idle {i : Nat} {s : State} (h : ¬HoldOver s i) : recheckHold i s = s := by
  unfold recheckHold
  dsimp only
  refine if_neg fun hw => h ?_
  simpa [HoldOver, and_assoc] using hw

/-- A hold that is over: ACTIVE, and failover evaluated. -/
theorem recheckHold_over {i : Nat} {s : State} (h : HoldOver s i) (hi : i < s.sup.links.length) :
    ∃ t, recheckHold i s = evaluateFailover i t ∧ LinkOp i s t ∧ (t.linkRec i).state = .active ∧ (t.linkRec i).hold = none ∧
      t.unlinked = s.unlinked := by
  have heq : recheckHold i s = evaluateFailover i (entryHealth i (modLink i (fun l =>
      { l.endHold s with vis := { (l.endHold s).vis with state := .active } }) s)) := by
    unfold recheckHold
    dsimp only
    refine if_pos ?_
    simpa [HoldOver, and_assoc] using h
  refine ⟨_, heq, (LinkOp.modLink ..).trans (.entryHealth ..), ?_, ?_, by rw [entryHealth_unlinked, modLink_unlinked]⟩
  · refine (state_of_unrated (link_entryHealth ..)).trans ?_
    rw [link_modLink_self hi]
  · refine (hold_of_unrated (link_entryHealth ..)).trans ?_
    obtain ⟨h, a, b, c, hl⟩ := endHold_eq s (s.link i)
    rw [link_modLink_self hi, hl]

end Sys2Proof.Machine
end

section
/-! PROOFS. O34: RETUNE_LINK refused, held on programme, or its sequence begun (R61, R69, R70, TABLE 4-5). -/

namespace Sys2Proof.Machine

theorem badRoleSet_iff (o : LinkOrder) (d : LinkDef) : badRoleSet o d = true ↔
    (o.roleOut = false ∧ o.roleIn = false) ∨ ∃ r, o.names r = true ∧ d.role r = none := by
  simp [badRoleSet, List.any_eq_true, mem_bothRoles]

/-- A forced retune from FAILED names every declared role that holds an entry which is not on the air. -/
theorem namesFailedRoles_iff {s : State} {o : LinkOrder} {d : LinkDef} (hd : s.linkDef o.link = some d) :
    namesFailedRoles o s = true ↔ ∀ r, (d.role r).isSome = true → o.names r = false → ∀ e ∈ entriesOf s o.link, e.role = r →
      e.state ≠ .reserved ∧ e.state ≠ .silent := by
  have hdeclared (r : Role) : r ∈ d.declared ↔ (d.role r).isSome = true := by simp [LinkDef.declared, mem_bothRoles]
  unfold namesFailedRoles
  rw [hd]
  simp only [List.all_eq_true, hdeclared, Bool.or_eq_true, Bool.and_eq_true, decide_eq_true_eq]
  refine forall₂_congr fun r _ => ⟨fun h hn e he hr => ?_, fun h => ?_⟩
  · rcases h with h | h
    · rw [hn] at h
      cases h
    · exact (h e he).resolve_left fun h => h hr
  · by_cases hn : o.names r = true
    · exact .inl hn
    · exact .inr fun e he => (em (e.role = r)).elim (fun hr => .inr (h (Bool.eq_false_of_not_eq_true hn) e he hr)) .inl

section
variable {s : State} {o : LinkOrder} {rest : List LinkOrder}

theorem retuneLinkStep_refused {x : ResultCode × Option Nat} (hq : s.mail.linkOrders = o :: rest) (hk : o.kind = .retune)
    (hx : retuneRefusal o s = some x) : retuneLinkStep s = refuseAs o x { s with mail.linkOrders := rest } := by
  have hx' : retuneRefusal o { s with mail.linkOrders := rest } = some x := hx
  simp only [retuneLinkStep, hq, if_pos hk, hx']

/-- A RETUNE_LINK that is taken. -/
def beginRetune (o : LinkOrder) (s : State) : State :=
  if (s.linkRec o.link).state = .active ∧ o.force = false ∧ s.linkOnProgramme o.link = true then
    beginHold o.link .order (takeLinkOrder o s)
  else proceedRetune o.link o.force (takeLinkOrder o s)

theorem takeLinkOrder_linkOnProgramme (o : LinkOrder) (s : State) (i : Nat) :
    (takeLinkOrder o s).linkOnProgramme i = s.linkOnProgramme i :=
  (linkOnProgramme_of_unlinked (s := { s with mem := Memory.write s.mem (cellBase o.tag.cell) 3 })
    (takeLinkOrder_unlinked o s) i :)

theorem retuneLinkStep_begun (hq : s.mail.linkOrders = o :: rest) (hk : o.kind = .retune)
    (hx : retuneRefusal o s = none) : retuneLinkStep s = beginRetune o { s with mail.linkOrders := rest } := by
  have hx' : retuneRefusal o { s with mail.linkOrders := rest } = none := hx
  simp only [retuneLinkStep, hq, if_pos hk, hx', beginRetune, takeLinkOrder_linkOnProgramme]
  refine if_congr ?_ rfl rfl
  simp [and_assoc]

/-! ### The tests of RETUNE_LINK -/

theorem retuneRefusal_killed (h : s.kc.asserted = true) : retuneRefusal o s = some (.killed, none) := if_pos h

section
variable (hka : s.kc.asserted = false)
include hka

/-- Without a definition the tests that read it pass. -/
theorem retuneRefusal_undefined (hd : s.linkDef o.link = none) (ho : (s.link o.link).aux.order = none)
    (hv : (s.linkRec o.link).state = .vacant) : retuneRefusal o s = some (.wrongState, none) := by
  simp [retuneRefusal, hka, hd, ho, hv]

variable {d : LinkDef} (hd : s.linkDef o.link = some d)
include hd

theorem retuneRefusal_notTunable (ht : d.outRole = none) : retuneRefusal o s = some (.notTunable, none) := by
  simp [retuneRefusal, hka, hd, ht]

variable (ht : d.outRole.isSome = true)
include ht

theorem retuneRefusal_roleSet (hb : badRoleSet o d = true) : retuneRefusal o s = some (.badParameter, some 1) := by
  simp [retuneRefusal, hka, hd, Option.isSome_iff_ne_none.1 ht, hb]

variable (hb : badRoleSet o d = false)
include hb

theorem retuneRefusal_codes (hg : givesUndeclared o d = true) : retuneRefusal o s = some (.badParameter, some 2) := by
  simp [retuneRefusal, hka, hd, Option.isSome_iff_ne_none.1 ht, hb, hg]

variable (hg : givesUndeclared o d = false)
include hg

theorem retuneRefusal_busy (ho : (s.link o.link).aux.order.isSome = true) : retuneRefusal o s = some (.busy, none) := by
  simp [retuneRefusal, hka, hd, Option.isSome_iff_ne_none.1 ht, hb, hg, ho]

/-- The test of the state comes last. -/
theorem retuneRefusal_state (ho : (s.link o.link).aux.order = none) : retuneRefusal o s =
    match (s.link o.link).vis.state with
    | .active => none
    | .holding =>
      if o.force = true ∧ (s.link o.link).vis.hold = some .failover then none else some (.busy, none)
    | .faulted => if o.force = true ∧ namesFailedRoles o s = true then none else some (.wrongState, none)
    | .vacant => some (.wrongState, none)
    | .parked => some (.wrongState, none)
    | .learning => some (.wrongState, none)
    | _ => some (.busy, none) := by
  simp only [retuneRefusal, hka, hd, Option.any_some, Option.isNone_eq_false_iff.2 ht, hb, hg, ho, State.linkRec,
    Option.isSome_none, Bool.false_eq_true, if_false]
  cases (s.link o.link).vis.state
  case holding => exact if_congr ((Bool.and_eq_true_iff).trans (and_congr_right' decide_eq_true_iff)) rfl rfl
  case faulted => exact if_congr (by simp) rfl rfl
  all_goals rfl

end

end

/-! ### A RETUNE_LINK that is taken -/

section
variable {s : State} {o : LinkOrder}

/-- A RETUNE_LINK that is taken and proceeds. -/
structure RetuneTaken (o : LinkOrder) (s t : State) : Prop where
  op : LinkOp o.link s t
  works : OrderWorks o.tag s t
  link : ((s.link o.link).ordered s o).Retuning o o.force (t.link o.link)
  sought : EntriesSought o.link ((s.link o.link).aux.seq + 1) o (bothRoles.filter o.names) s t

theorem retuneTaken_proceedRetune (hm : Memory.wf s.mem) (hi : o.link < s.sup.links.length) :
    RetuneTaken o s (proceedRetune o.link o.force (takeLinkOrder o s)) := by
  have hop := LinkOp.takeLinkOrder o s
  have hunlinked : (takeLinkOrder o s).unlinked = ({ s with mem := Memory.write s.mem (cellBase o.tag.cell) 3 } : State).unlinked :=
    takeLinkOrder_unlinked o s
  have hlink := link_takeLinkOrder hi
  generalize takeLinkOrder o s = u at hop hunlinked hlink
  have h := retuneBegun_proceedRetune o.force (hop.lt hi) (show (u.link o.link).aux.order = some o by rw [hlink]; rfl)
  refine ⟨hop.trans h.op, orderWorks_of_mem hm (h.mem.trans (mem_of_unlinked hunlinked)), hlink ▸ h.link, ?_⟩
  have hseq : (u.link o.link).aux.seq = (s.link o.link).aux.seq := by rw [hlink]; rfl
  rw [← hseq]
  refine h.sought.of_unlinked hunlinked fun hopen => ?_
  rw [hlink]
  exact hopen

end

/-- Settles O34. -/
theorem retuneLinkSteps : Obligations.RetuneLinkSteps := by
  refine ⟨fun s o rest hm hq hk hi hd => ?undefined, fun s o rest d hm hq hk hi hlen hd => ?defined⟩
  case undefined =>
    have hrefused (code : ResultCode) (hx : retuneRefusal o s = some (code, none)) :=
      refused_of_step (c := .retuneLink) (x := (code, none)) (rest := rest) hm hi (by simp [hk]) nofun
        (next_finishLink (retuneLinkStep_refused hq hk hx))
    refine ⟨fun hka => ?_, fun hka ho hv => ?_⟩
    · obtain ⟨t, hstep, hends, -, ht⟩ := hrefused .killed (retuneRefusal_killed hka)
      exact ⟨t, hstep, hends, ht⟩
    · obtain ⟨t, hstep, hends, -, ht⟩ := hrefused .wrongState (retuneRefusal_undefined hka hd ho hv)
      exact ⟨t, hstep, hends, ht⟩
  case defined =>
    intro l refused roles passed coversFailed
    have hrefused (off : Option Nat) (code : ResultCode) (hcode : ∀ n, off = some n → code = .badParameter ∧ n < 256)
        (hx : retuneRefusal o s = some (code, off)) : refused off code :=
      refused_of_step (c := .retuneLink) (rest := rest) (x := (code, off)) hm hi (by simp [hk]) hcode
        (next_finishLink (retuneLinkStep_refused hq hk hx))
    have hoffset (k : Nat) (hk : k < 256) (n : Nat) (h : some k = some n) : ResultCode.badParameter = .badParameter ∧ n < 256 :=
      ⟨rfl, Option.some.inj h ▸ hk⟩
    have hstate (h : passed) := retuneRefusal_state h.1 hd h.2.1 h.2.2.1 h.2.2.2.1 h.2.2.2.2
    have hcovers : namesFailedRoles o s = true ↔ coversFailed := namesFailedRoles_iff hd
    refine ⟨badRoleSet_iff o d, givesUndeclared_iff o d, fun hka => hrefused _ _ nofun (retuneRefusal_killed hka),
      fun hka ht => hrefused _ _ nofun (retuneRefusal_notTunable hka hd ht),
      fun hka ht hb => hrefused _ _ (hoffset 1 (by decide)) (retuneRefusal_roleSet hka hd ht hb),
      fun hka ht hb hg => hrefused _ _ (hoffset 2 (by decide)) (retuneRefusal_codes hka hd ht hb hg),
      fun hka ht hb hg ho => hrefused _ _ nofun (retuneRefusal_busy hka hd ht hb hg ho),
      fun h hst => hrefused _ _ nofun ((hstate h).trans ?wrongState), fun h hst => hrefused _ _ nofun ((hstate h).trans ?busy),
      fun h hst hno => hrefused _ _ nofun ((hstate h).trans ?holding),
      fun h hst hno => hrefused _ _ nofun ((hstate h).trans ?faulted), fun h hst hf hp => ?held, fun h hgo hout hwait => ?begun⟩
    case wrongState =>
      simp only [List.mem_cons, List.not_mem_nil, or_false] at hst
      rcases hst with hst | hst | hst <;> rw [hst]
    case busy =>
      simp only [List.mem_cons, List.not_mem_nil, or_false] at hst
      rcases hst with hst | hst | hst | hst <;> rw [hst]
    case holding =>
      rw [hst]
      exact if_neg hno
    case faulted =>
      rw [hst]
      exact if_neg fun h => hno ⟨h.1, hcovers.1 h.2⟩
    case held =>
      have hnone : retuneRefusal o s = none := (hstate h).trans (by rw [hst])
      have hstep := retuneLinkStep_begun hq hk hnone
      rw [beginRetune, if_pos ⟨hst, hf, (linkOnProgramme_eq (s := { s with mail.linkOrders := rest }) hd).trans hp⟩] at hstep
      have hop := LinkOp.takeLinkOrder o { s with mail.linkOrders := rest }
      have hunlinked := takeLinkOrder_unlinked o { s with mail.linkOrders := rest }
      have hlink := link_takeLinkOrder (o := o) (s := { s with mail.linkOrders := rest }) hlen
      generalize takeLinkOrder o { s with mail.linkOrders := rest } = u at hstep hop hunlinked hlink
      have hold := holdBegun_beginHold .order (hop.lt hlen)
      rw [← hstep] at hold
      have hmem : (retuneLinkStep s).mem = Memory.write s.mem (cellBase o.tag.cell) 3 :=
        (mem_of_unlinked hold.unlinked).trans (congrArg State.mem hunlinked :)
      refine ⟨retuneLinkStep s, rfl, orderWorks_of_mem hm hmem, (hop.trans hold.op).others, hold.state, hold.hold,
        hold.start.trans ?_, hold.seqKind, hold.cell.trans ?_, ?_⟩
      · exact congrArg some (congrArg State.now hunlinked :)
      · rw [State.linkRec, hlink]
        rfl
      · rw [onlyLinks_iff, hold.unlinked, hunlinked, hmem]
        rfl
    case begun =>
      have hnone : retuneRefusal o s = none := by
        rw [hstate h]
        rcases hgo with ⟨hst, -⟩ | ⟨hst, hf, hh⟩ | ⟨hst, hf, hc⟩ <;> rw [hst]
        · exact if_pos ⟨hf, hh⟩
        · exact if_pos ⟨hf, hcovers.2 hc⟩
      have hgo' : ¬(l.vis.state = .active ∧ o.force = false ∧ s.onProgramme d.camera = true) := by
        rintro ⟨hst, hf, hp⟩
        rcases hgo with ⟨-, hf' | hp'⟩ | ⟨-, hf', -⟩ | ⟨-, hf', -⟩
        · exact Bool.false_ne_true (hf.symm.trans hf')
        · exact Bool.false_ne_true (hp'.symm.trans hp)
        · exact Bool.false_ne_true (hf.symm.trans hf')
        · exact Bool.false_ne_true (hf.symm.trans hf')
      have hstep := retuneLinkStep_begun hq hk hnone
      rw [beginRetune, if_neg fun h => hgo' ⟨h.1, h.2.1, (linkOnProgramme_eq (s := { s with mail.linkOrders := rest }) hd).symm.trans h.2.2⟩]
        at hstep
      have ht := retuneTaken_proceedRetune (s := { s with mail.linkOrders := rest }) hm hlen
      rw [← hstep] at ht
      obtain ⟨hop, hworks, hlink, hsought⟩ := ht
      refine ⟨retuneLinkStep s, rfl, hworks, hop.others, hlink.state, hlink.seqKind, hlink.phase, hlink.seqOut, hlink.seqIn,
        hlink.hold, hlink.cell, hlink.order, hlink.permit, hlink.began, hlink.needed, fun hs => hsought.given hs ⟨hout, hwait⟩,
        fun hs => ?_, onlyLinks_iff.2 hsought.rest⟩
      obtain ⟨hqueue, q, hr, hq⟩ := hsought.searched hs
      exact ⟨hqueue, q, by simpa [hk] using hr, hq⟩

end Sys2Proof.Machine
end

section
/-! PROOFS. Chapters 4 and 5: healths, UPDATEs of a link, and the ends of its phases (R26, R62, R65 to R68, R90, R94). -/

namespace Sys2Proof.Machine

/-! ### Healths at a stale timer and at the miss limit (R90, R94) -/

@[simp] theorem setRole_role (l : LinkRec) (r q : Role) (x : RoleRec) :
    (l.setRole r x).role q = if q = r then x else l.role q := by
  cases r <;> cases q <;> rfl

theorem setHealth_role (s : State) (r q : Role) (h : Option Health) (l : Link) :
    ((l.setHealth s r h).vis.role q).health = if q = r then h else (l.vis.role q).health := by
  unfold Link.setHealth
  dsimp only
  by_cases hh : (l.vis.role r).health = h
  · rw [if_pos hh]
    split
    · next hq => rw [hq, hh]
    · rfl
  · rw [if_neg hh]
    dsimp only
    rw [setRole_role]
    split <;> rfl

theorem settle_role (s : State) (r q : Role) (h : Option Health) (l : Link) :
    ((l.settle s r h).vis.role q).health = if q = r then h else (l.vis.role q).health := by
  have hcounts : ((l.settle s r h).vis.role q).health = ((l.setHealth s r h).vis.role q).health := by
    unfold Link.settle Link.setCounts
    rw [setRole_role]
    split
    · next hq => rw [hq]
    · rfl
  rw [hcounts, setHealth_role]

theorem mem_declared (d : LinkDef) (r : Role) : r ∈ d.declared ↔ (d.role r).isSome = true := by
  simp [LinkDef.declared, mem_bothRoles]

theorem declared_nodup (d : LinkDef) : d.declared.Nodup := List.Nodup.filter _ (by decide)

/-- A change of the healths of a list of roles, each by itself, seen at one role. -/
theorem foldl_health {f : Link → Role → Link} {g : Role → Option Health → Option Health}
    (h : ∀ l r q, ((f l r).vis.role q).health = if q = r then g r (l.vis.role r).health else (l.vis.role q).health) :
    ∀ (roles : List Role) (l : Link) (q : Role), roles.Nodup →
      ((roles.foldl f l).vis.role q).health = if q ∈ roles then g q (l.vis.role q).health else (l.vis.role q).health
  | [], l, q, _ => rfl
  | r :: roles, l, q, hn => by
    obtain ⟨hr, hn⟩ := List.nodup_cons.1 hn
    rw [List.foldl_cons, foldl_health h roles _ q hn, h]
    by_cases hq : q = r
    · subst hq
      rw [if_neg hr, if_pos rfl, if_pos List.mem_cons_self]
    · rw [if_neg hq]
      simp only [List.mem_cons, hq, false_or]

/-- A health at the end of the stale time (R90). -/
def stale (h : Option Health) : Option Health := if h = some .good ∨ h = some .degraded then some .stale else h

theorem goStale_health (s : State) (d : LinkDef) (l : Link) (r : Role) : ((l.goStale s d).vis.role r).health =
    if (d.role r).isSome = true then stale (l.vis.role r).health else (l.vis.role r).health := by
  unfold Link.goStale
  rw [foldl_health (g := fun _ h => stale h) (fun l r q => ?_) _ _ _ (declared_nodup d)]
  · simp only [mem_declared]
  · dsimp only [stale]
    split
    · rw [setHealth_role]
    · split
      · next hq => rw [hq]
      · rfl

theorem goLost_health (s : State) (d : LinkDef) (l : Link) (r : Role) : ((l.goLost s d).vis.role r).health =
    if (d.role r).isSome = true then some .lost else (l.vis.role r).health := by
  unfold Link.goLost
  rw [foldl_health (g := fun _ _ => some .lost) (fun l r q => ?_) _ _ _ (declared_nodup d)]
  · simp only [mem_declared]
  · split
    · next h =>
      split
      · next hq => rw [hq, h]
      · rfl
    · rw [settle_role]

theorem rated_iff (l : LinkRec) : l.rated = true ↔ l.state = .active ∨ l.state = .holding := by simp [LinkRec.rated]

theorem entryHealth_unrated_state {i : Nat} {s : State} (h : (s.linkRec i).rated = false) : entryHealth i s = s := by
  unfold entryHealth
  split
  · rfl
  · simp [h]

/-- The healths that an entry into ACTIVE or HOLDING finds. -/
theorem entryHealth_health {i : Nat} {d : LinkDef} {s : State} (hi : i < s.sup.links.length) (hd : s.linkDef i = some d)
    (hr : (s.linkRec i).rated = true) (r : Role) :
    (((entryHealth i s).linkRec i).role r).health =
      if d.role r = none then ((s.linkRec i).role r).health
      else if s.sup.settings.missLimit ≤ (s.linkRec i).misses then some .lost
      else if (s.link i).aux.staleExpired = true then stale ((s.linkRec i).role r).health
      else ((s.linkRec i).role r).health := by
  obtain ⟨u, hu, hop, hset, hlink⟩ : ∃ u : State,
      u = (if (s.linkRec i).rated && (s.link i).aux.staleExpired then modLink i (Link.goStale s d) s else s) ∧
      LinkOp i s u ∧ u.sup.settings = s.sup.settings ∧
      u.link i = if (s.link i).aux.staleExpired = true then (s.link i).goStale s d else s.link i := by
    refine ⟨_, rfl, ?_⟩
    rw [hr, Bool.true_and]
    split
    · exact ⟨.modLink .., settings_of_unlinked (modLink_unlinked ..), link_modLink_self hi _⟩
    · exact ⟨.refl .., rfl, rfl⟩
  have hunrated : (u.link i).unrated = (s.link i).unrated := by
    rw [hlink]
    split
    · exact goStale_unrated ..
    · rfl
  have hrated : (u.linkRec i).rated = true := by
    rw [rated_iff] at hr ⊢
    rw [State.linkRec, state_of_unrated hunrated]
    exact hr
  have hmisses : (u.linkRec i).misses = (s.linkRec i).misses := misses_of_unrated hunrated
  have heq : entryHealth i s =
      if u.sup.settings.missLimit ≤ (u.linkRec i).misses then modLink i (Link.goLost u d) u else u := by
    unfold entryHealth
    rw [hd]
    dsimp only
    rw [← hu, hrated, Bool.true_and]
    exact if_congr decide_eq_true_iff rfl rfl
  have hu' : ((u.linkRec i).role r).health = if d.role r = none then ((s.linkRec i).role r).health
      else if (s.link i).aux.staleExpired = true then stale ((s.linkRec i).role r).health else ((s.linkRec i).role r).health := by
    rw [State.linkRec, hlink]
    split
    · rw [goStale_health]
      cases d.role r <;> rfl
    · split <;> rfl
  rw [heq, hset, hmisses]
  split
  · rw [linkRec_modLink, if_pos ⟨rfl, hop.lt hi⟩, goLost_health]
    cases hrole : d.role r with
    | none => exact hu'.trans (if_pos hrole)
    | some x => rfl
  · rw [hu']

/-- A change of health, and the evaluation it brings (R71, R73). -/
theorem healthChangedFrom_eq (before : Option Health × Option Health) (i : Nat) (s : State) :
    healthChangedFrom before i s =
      if (s.linkRec i).outRec.health = before.1 ∧ (s.linkRec i).inRec.health = before.2 then s
      else if (s.linkRec i).state = .holding then recheckHold i s else evaluateFailover i s := by
  obtain ⟨a, b⟩ := before
  unfold healthChangedFrom healthChanged roleHealths
  exact if_congr Prod.mk_inj rfl rfl

/-! ### An UPDATE of a link (R31) -/

theorem LinkOp.sendUpdate (i : Nat) (c : List CarrierChange) (s : State) : LinkOp i s (sendUpdate i c s) := by
  unfold Machine.sendUpdate
  split
  · exact .refl ..
  · exact .sendLink ..

theorem sendUpdate_unlinked (i : Nat) (c : List CarrierChange) (s : State) :
    (sendUpdate i c s).unlinked = { s.unlinked with ctl.queue := (sendUpdate i c s).ctl.queue } := by
  unfold sendUpdate
  split
  · rfl
  · exact sendLink_unlinked ..

theorem link_sendUpdate {i : Nat} (c : List CarrierChange) {s : State} (hi : i < s.sup.links.length) :
    ∃ x y z, (sendUpdate i c s).link i = { s.link i with aux := (s.link i).aux.gated x y z } := by
  unfold sendUpdate
  split
  · exact ⟨_, _, _, rfl⟩
  · exact link_sendLink _ hi

@[simp] theorem linkRec_sendUpdate (i j : Nat) (c : List CarrierChange) (s : State) :
    (sendUpdate i c s).linkRec j = s.linkRec j := by
  unfold sendUpdate
  split
  · rfl
  · exact linkRec_sendLink ..

@[simp] theorem sendUpdate_reports (i : Nat) (c : List CarrierChange) (s : State) :
    (sendUpdate i c s).mail.reports = s.mail.reports := by
  unfold sendUpdate
  split
  · rfl
  · rw [sendLink_frame]

/-- The UPDATE of some changes; none for none. -/
def updateOf (i seq : Nat) (c : List CarrierChange) : List CtlReq := if c = [] then [] else [.update i seq false c]

theorem sendUpdate_open {i : Nat} {c : List CarrierChange} {s : State} (h : (s.link i).open) :
    (sendUpdate i c s).ctl = { s.ctl with queue := s.ctl.queue ++ updateOf i (s.link i).aux.seq c } := by
  unfold sendUpdate updateOf
  split
  · rw [List.append_nil]
  · rw [sendLink_open h]
    rfl

/-- The changes of some entries or codes, one each. -/
theorem updateOf_map {α : Type} (i seq : Nat) (f : α → CarrierChange) (l : List α) :
    updateOf i seq (l.map f) = if l = [] then [] else [.update i seq false (l.map f)] :=
  if_congr List.map_eq_nil_iff rfl rfl

/-! ### An order of a link completes, if there is one (R62) -/

section
variable (i : Nat) (l : Link) (k : ResultCode) (s : State)

theorem LinkOp.complete : LinkOp i s (Machine.completeLinkOrder i l k s) := by
  cases ho : l.aux.order with
  | none => rw [completeLinkOrder_none ho]; exact .refl ..
  | some o => exact .completeLinkOrder k ho

/-- Completing a link's order alters, of the state without links, the cell, the orders in service and the free bytes. -/
theorem completeLinkOrder_rest : ∃ m sv n, (completeLinkOrder i l k s).unlinked =
    ({ s with mem := m, disp := { s.disp with service := sv }, openCount := n } : State).unlinked := by
  cases ho : l.aux.order with
  | none => exact ⟨s.mem, s.disp.service, s.openCount, by rw [completeLinkOrder_none ho]⟩
  | some o => exact ⟨_, _, _, completeLinkOrder_unlinked k ho⟩

theorem completeLinkOrder_ctl : (completeLinkOrder i l k s).ctl = s.ctl := by
  obtain ⟨m, sv, n, h⟩ := completeLinkOrder_rest i l k s
  exact (ctl_of_unlinked h :)

theorem link_complete (hi : i < s.sup.links.length) : ∃ c o, (completeLinkOrder i l k s).link i =
    { vis := { (s.link i).vis with orderCell := c }, aux := { (s.link i).aux with order := o } } := by
  cases ho : l.aux.order with
  | none => exact ⟨_, _, by rw [completeLinkOrder_none ho]⟩
  | some o => exact ⟨none, none, link_completeLinkOrder k ho hi⟩

end

/-! ### The end of a guard interval (R66) -/

/-- The entries of the sequence's roles other than its new ones. -/
def oldEntries (s : State) (i : Nat) : List CarrierEntry :=
  (entriesOf s i).filter fun e => (s.linkRec i).inSequence e.role && ((s.linkRec i).role e.role).fresh ≠ some e.code

/-- A link at the beginning of SETTLING. -/
def Link.settling (len now : Nat) (l : Link) : Link :=
  { vis := { l.vis with phase := .settling, repeats := 0 }
    aux := { l.aux with guardAt := none, settleLen := len, settleAt := some (now + len) } }

theorem guardEnds_eq (i : Nat) (s : State) : guardEnds i s = queueForSequence i .settlePoll
    (sendUpdate i ((oldEntries s i).map removal)
      (modLink i (Link.settling (largestOf s i ClassDef.settleMs * 768) s.tb.elapsed) s)) := rfl

/-- A guard interval that has ended. -/
structure GuardEnded (i : Nat) (s t : State) : Prop where
  op : LinkOp i s t
  phase : (t.linkRec i).phase = .settling
  repeats : (t.linkRec i).repeats = 0
  state : (t.linkRec i).state = (s.linkRec i).state
  seq : (t.link i).aux.seq = (s.link i).aux.seq
  guardAt : (t.link i).aux.guardAt = none
  settleAt : (t.link i).aux.settleAt = some (s.tb.elapsed + largestOf s i ClassDef.settleMs * 768)
  polled : ∃ x ∈ t.ul.controlQ, x.link = i ∧ x.kind = .settlePoll ∧ x.seq = (s.link i).aux.seq
  sent : (s.link i).open → t.ctl = { s.ctl with
    queue := s.ctl.queue ++ updateOf i (s.link i).aux.seq ((oldEntries s i).map removal) }

theorem guardEnded_guardEnds {i : Nat} {d : LinkDef} {s : State} (hi : i < s.sup.links.length) (hd : s.linkDef i = some d) :
    GuardEnded i s (guardEnds i s) := by
  rw [guardEnds_eq]
  generalize hlen : largestOf s i ClassDef.settleMs * 768 = len
  have hop : LinkOp i s (modLink i (Link.settling len s.tb.elapsed) s) := .modLink ..
  have hlink := link_modLink_self hi (Link.settling len s.tb.elapsed)
  have hunlinked := modLink_unlinked i (Link.settling len s.tb.elapsed) s
  generalize modLink i (Link.settling len s.tb.elapsed) s = u at hop hlink hunlinked
  have hctl : u.ctl = s.ctl := ctl_of_unlinked hunlinked
  have hseq : (u.link i).aux.seq = (s.link i).aux.seq := by rw [hlink]; rfl
  obtain ⟨a, b, c, ht⟩ := link_sendUpdate ((oldEntries s i).map removal) (hop.lt hi)
  have hdef : (sendUpdate i ((oldEntries s i).map removal) u).linkDef i = some d :=
    (linkDef_of_unlinked (s := { u with ctl.queue := _ }) (sendUpdate_unlinked ..) i).trans
      ((linkDef_of_unlinked hunlinked i).trans hd)
  have hopt := LinkOp.sendUpdate i ((oldEntries s i).map removal) u
  have hsent := sendUpdate_open (i := i) (c := (oldEntries s i).map removal) (s := u)
  rw [hseq, hctl] at hsent
  generalize sendUpdate i ((oldEntries s i).map removal) u = v at ht hdef hopt hsent
  have hpoll := mem_queueForSequence hdef .settlePoll
  have hlink' : v.link i = { (s.link i).settling len s.tb.elapsed with
      aux := ((s.link i).settling len s.tb.elapsed).aux.gated a b c } := by rw [ht, hlink]
  have hfinal : (queueForSequence i .settlePoll v).link i = { (s.link i).settling len s.tb.elapsed with
      aux := ((s.link i).settling len s.tb.elapsed).aux.gated a b c } := by rw [queueForSequence_link, hlink']
  refine ⟨(hop.trans hopt).trans (.of_links ?_), ?_, ?_, ?_, ?_, ?_, ?_, ⟨_, hpoll, rfl, rfl, ?_⟩, fun h => ?_⟩
  · rw [queueForSequence_frame]
  · rw [State.linkRec, hfinal]; rfl
  · rw [State.linkRec, hfinal]; rfl
  · rw [State.linkRec, hfinal]; rfl
  · rw [hfinal]; rfl
  · rw [hfinal]; rfl
  · rw [hfinal, hlen]; rfl
  · rw [controlReq, hlink']
    rfl
  · rw [queueForSequence_frame]
    refine hsent ?_
    rw [hlink]
    exact h

/-! ### The link goes FAULTED (R67, R68) -/

/-- The end of an order is seen from any state with the same memory and the same orders in service. -/
theorem orderEnds_of_unlinked {g : OrderTag} {st x : Nat} {k : ResultCode} {s u t : State} (h : OrderEnds g st k x u t)
    (hu : u.unlinked = s.unlinked) : OrderEnds g st k x s t := by
  obtain ⟨hshows, htime, houtside, hservice⟩ := h
  rw [mem_of_unlinked hu] at houtside
  rw [disp_of_unlinked hu] at hservice
  exact ⟨hshows, htime, houtside, hservice⟩

theorem orderEnds_to_unlinked {g : OrderTag} {st x : Nat} {k : ResultCode} {s u t : State} (h : OrderEnds g st k x s u)
    (ht : t.unlinked = u.unlinked) : OrderEnds g st k x s t := by
  unfold OrderEnds
  rw [mem_of_unlinked ht, disp_of_unlinked ht, now_of_unlinked ht]
  exact h

/-- A link that goes FAULTED. -/
def Link.fault (l : Link) : Link :=
  { l.keepNew.endSequence with vis := { l.keepNew.endSequence.vis with state := .faulted } }

theorem faultLink_eq (i : Nat) (s : State) :
    faultLink i s = completeLinkOrder i (s.link i) .faulted (modLink i Link.fault s) := rfl

theorem LinkOp.faultLink (i : Nat) (s : State) : LinkOp i s (faultLink i s) := by
  rw [faultLink_eq]
  exact (LinkOp.modLink ..).trans (.complete ..)

theorem faultLink_ctl (i : Nat) (s : State) : (faultLink i s).ctl = s.ctl := by
  rw [faultLink_eq, completeLinkOrder_ctl]
  exact ctl_of_unlinked (modLink_unlinked ..)

theorem linkRec_faultLink {i : Nat} {s : State} (hi : i < s.sup.links.length) :
    ((faultLink i s).linkRec i).state = .faulted ∧ ((faultLink i s).linkRec i).seqKind = .noSequence := by
  have hop : LinkOp i s (modLink i Link.fault s) := .modLink ..
  obtain ⟨c, o, hlink⟩ := link_complete i (s.link i) .faulted (modLink i Link.fault s) (hop.lt hi)
  rw [faultLink_eq, State.linkRec, hlink, link_modLink_self hi]
  exact ⟨rfl, rfl⟩

theorem faultLink_mem {i : Nat} {s : State} (ho : (s.link i).aux.order = none) : (faultLink i s).mem = s.mem := by
  rw [faultLink_eq, completeLinkOrder_none ho]
  exact mem_of_unlinked (modLink_unlinked ..)

/-- The order of a link that goes FAULTED ends. -/
theorem faultLink_ends {i : Nat} {o : LinkOrder} {s : State} (hm : Memory.wf s.mem) (hi : i < 96) (hlen : i < s.sup.links.length)
    (ho : (s.link i).aux.order = some o) :
    OrderEnds o.tag 4 .faulted i s (faultLink i s) ∧ ((faultLink i s).linkRec i).orderCell = none := by
  have hu := modLink_unlinked i Link.fault s
  have hop : LinkOp i s (modLink i Link.fault s) := .modLink ..
  rw [faultLink_eq]
  refine ⟨orderEnds_of_unlinked (completeLinkOrder_ends .faulted ho ?_ hi) hu, ?_⟩
  · rw [mem_of_unlinked hu]
    exact hm
  · rw [State.linkRec, link_completeLinkOrder .faulted ho (hop.lt hlen)]
    rfl

/-! ### The sequence is given up, and the link is where it began (TABLE 4-7) -/

/-- The link back in the state its sequence began from, its order completed; on an entry into ACTIVE its healths looked at. -/
def returned (f : Link → Link) (i : Nat) (k : ResultCode) (s : State) : State :=
  let t := completeLinkOrder i (s.link i) k (modLink i (fun l => (f l).backToStart) s)
  if (s.link i).aux.began = .active then entryHealth i t else t

theorem returnWith_eq (f : Link → Link) (i : Nat) (k : ResultCode) (s : State) : returnWith f i k s =
    if (s.link i).aux.began = .active then evaluateFailover i (returned f i k s) else returned f i k s := by
  unfold returnWith returned enterActive
  dsimp only
  split <;> rfl

section
variable (f : Link → Link) (i : Nat) (k : ResultCode) (s : State)

theorem returned_unlinked : (returned f i k s).unlinked =
    (completeLinkOrder i (s.link i) k (modLink i (fun l => (f l).backToStart) s)).unlinked := by
  unfold returned
  dsimp only
  split
  · exact entryHealth_unlinked ..
  · rfl

theorem LinkOp.returned : LinkOp i s (Machine.returned f i k s) := by
  unfold Machine.returned
  dsimp only
  have hop : LinkOp i s (Machine.completeLinkOrder i (s.link i) k (Machine.modLink i (fun l => (f l).backToStart) s)) :=
    (LinkOp.modLink ..).trans (.complete ..)
  split
  · exact hop.trans (.entryHealth ..)
  · exact hop

variable {f i s} (hi : i < s.sup.links.length)
include hi

theorem link_returned : ∃ c o, ((returned f i k s).link i).unrated =
    Link.unrated { vis := { (f (s.link i)).backToStart.vis with orderCell := c }
                   aux := { (f (s.link i)).backToStart.aux with order := o } } := by
  have hop : LinkOp i s (modLink i (fun l => (f l).backToStart) s) := .modLink ..
  obtain ⟨c, o, hlink⟩ := link_complete i (s.link i) k (modLink i (fun l => (f l).backToStart) s) (hop.lt hi)
  rw [link_modLink_self hi] at hlink
  refine ⟨c, o, ?_⟩
  rw [← hlink]
  unfold returned
  dsimp only
  split
  · exact link_entryHealth ..
  · rfl

/-- With an order in service. -/
theorem returned_ends {o : LinkOrder} (hm : Memory.wf s.mem) (hi96 : i < 96) (ho : (s.link i).aux.order = some o) :
    OrderEnds o.tag 4 k i s (returned f i k s) ∧ ((returned f i k s).linkRec i).orderCell = none := by
  have hu := modLink_unlinked i (fun l => (f l).backToStart) s
  have hop : LinkOp i s (modLink i (fun l => (f l).backToStart) s) := .modLink ..
  have hm' : Memory.wf (modLink i (fun l => (f l).backToStart) s).mem := by
    rw [mem_of_unlinked hu]
    exact hm
  refine ⟨orderEnds_to_unlinked (orderEnds_of_unlinked (completeLinkOrder_ends k ho hm' hi96) hu) (returned_unlinked ..), ?_⟩
  have hcell : ((completeLinkOrder i (s.link i) k (modLink i (fun l => (f l).backToStart) s)).link i).vis.orderCell = none := by
    rw [link_completeLinkOrder k ho (hop.lt hi)]
    rfl
  unfold returned State.linkRec
  dsimp only
  split
  · rw [orderCell_of_unrated (link_entryHealth ..), hcell]
  · exact hcell

end

/-! ### Removing the new entries, and holding again (R65, R72) -/

theorem removeNew_eq (i : Nat) (s : State) : removeNew i s =
    sendUpdate i ((s.linkRec i).newCodes.map fun c => { role := c.1, code := c.2, change := .remove }) s := rfl

/-- Back in HOLDING, before the health found there is looked at. -/
theorem holdAgain_eq (i : Nat) (s : State) : holdAgain i s =
    if (s.linkRec i).seqKind = .failover then
      let t := beginHold i .failover (removeNew i s)
      if (t.linkRec i).outRec.health = (s.linkRec i).outRec.health ∧ (t.linkRec i).inRec.health = (s.linkRec i).inRec.health then t
      else recheckHold i t
    else beginHold i .order (removeNew i s) := by
  unfold holdAgain roleHealths
  by_cases h : (s.linkRec i).seqKind = .failover
  · simp only [h, if_true]
    simp only [decide_true, Bool.true_and, decide_eq_true_eq, ne_eq, Prod.mk_inj, ite_not]
  · simp [h]

end Sys2Proof.Machine
end

section
/-! PROOFS. O38: the timers of a link (R66, R67, R71, R73, R74, R90, R94). -/

namespace Sys2Proof.Machine

theorem units_second : Config.unitsPerSecond = 768000 := rfl

/-! ### Which roles fail (R73) -/

theorem mem_failingRoles {s : State} {i : Nat} {d : LinkDef} (hd : s.linkDef i = some d) (r : Role) :
    r ∈ failingRoles s i ↔ d.auto = true ∧ d.outRole.isSome = true ∧ (d.role r).isSome = true ∧
      (((s.link i).vis.role r).health = some .lost ∨ (((s.link i).vis.role r).health = some .degraded ∧
        ∃ n, (s.link i).degradedAt r = some n ∧ n + d.delayS * 768000 ≤ s.tb.elapsed)) := by
  have hrole : failingRole s d (s.link i) r = true ↔ (((s.link i).vis.role r).health = some .lost ∨
      (((s.link i).vis.role r).health = some .degraded ∧
        ∃ n, (s.link i).degradedAt r = some n ∧ n + d.delayS * 768000 ≤ s.tb.elapsed)) := by
    rw [← units_second]
    unfold failingRole
    cases hh : ((s.link i).vis.role r).health with
    | none => simp
    | some h => cases h <;> simp [Option.any_eq_true]
  unfold failingRoles
  rw [hd]
  by_cases hf : d.failsOver = true
  · have hf' := hf
    simp only [LinkDef.failsOver, Bool.and_eq_true] at hf'
    simp [hf, hf', mem_declared, hrole]
  · have hf' : ¬(d.auto = true ∧ d.outRole.isSome = true) := by
      simpa only [LinkDef.failsOver, Bool.and_eq_true] using hf
    simp only [if_neg hf, List.not_mem_nil, false_iff]
    exact fun h => hf' ⟨h.1, h.2.1⟩

theorem failoverWanted_iff (s : State) (i : Nat) : failoverWanted s i = true ↔ ∃ r, r ∈ failingRoles s i := by
  unfold failoverWanted
  rw [decide_eq_true_iff]
  rw [ne_eq, List.eq_nil_iff_forall_not_mem, not_forall_not]

/-! ### Timers that are due -/

theorem due_iff {s : State} (hr : s.part = .running) (t : Option Nat) :
    s.due t = true ↔ ∃ n, t = some n ∧ n ≤ s.tb.elapsed := by
  simp [State.due, State.running, hr, Option.any_eq_true, State.reached]

/-! ### A hold limit that has passed (R71) -/

theorem holdLimitPassed_of {s : State} {i n : Nat} {d : LinkDef} (hd : s.linkDef i = some d)
    (ht : (s.link i).aux.holdTimer = true) (ha : (s.link i).aux.holdAt = some n) (hn : n + d.holdS * 768000 ≤ s.tb.elapsed) :
    holdLimitPassed s i = true := by
  unfold holdLimitPassed
  rw [hd]
  dsimp only
  rw [← units_second] at hn
  rw [ht, ha, Option.any_some, Bool.true_and, State.reached, decide_eq_true_iff]
  exact hn

theorem holdLimitExpiryStep_expires {s : State} {i : Nat} (hr : s.part = .running) (hst : (s.linkRec i).state = .holding)
    (hp : holdLimitPassed s i = true) : holdLimitExpiryStep i s = holdExpires i s := by
  unfold holdLimitExpiryStep State.running
  rw [hr, hst, hp]
  rfl

/-- HOLD_EXPIRED has been reported. -/
theorem mem_holdExpired (i : Nat) (s : State) :
    (.supervisor, holdExpiredReport i s) ∈ (report .supervisor (holdExpiredReport i s) s).mail.reports :=
  List.mem_append_right _ List.mem_cons_self

/-- The retune of an order that has been held to its limit. -/
theorem holdExpires_order {s : State} {i : Nat} {o : LinkOrder} (hi : i < s.sup.links.length)
    (hh : (s.linkRec i).hold = some .order) (ho : (s.link i).aux.order = some o) :
    RetuneBegun i o true (report .supervisor (holdExpiredReport i s) s) (holdExpires i s) := by
  have h := retuneBegun_proceedRetune (i := i) (o := o) (s := report .supervisor (holdExpiredReport i s) s) true hi ho
  have heq : holdExpires i s = proceedRetune i true (report .supervisor (holdExpiredReport i s) s) := by
    have hh' : ((report .supervisor (holdExpiredReport i s) s).linkRec i).hold = some .order := hh
    unfold holdExpires proceedFromHold
    rw [hh']
  rwa [heq]

/-- The TAKE of a failover that has been held to its limit. -/
theorem holdExpires_failover {s : State} {i : Nat} (hi : i < s.sup.links.length)
    (hh : (s.linkRec i).hold = some .failover) (hw : failoverWanted s i = true) :
    FailoverBegun i true (report .supervisor (holdExpiredReport i s) s) (holdExpires i s) := by
  have h := failoverBegun_proceedFailover (i := i) (s := report .supervisor (holdExpiredReport i s) s) true hi
  have heq : holdExpires i s = proceedFailover i true (report .supervisor (holdExpiredReport i s) s) := by
    have hh' : ((report .supervisor (holdExpiredReport i s) s).linkRec i).hold = some .failover := hh
    have hw' : failoverWanted (report .supervisor (holdExpiredReport i s) s) i = true := hw
    unfold holdExpires proceedFromHold
    rw [hh']
    exact if_pos hw'
  rwa [heq]

/-! ### The repeated TUNE (R67) -/

/-- The TUNE once more, the settle limit running again. -/
def repeatTune (i : Nat) (s : State) : State :=
  queueForSequence i .tune (modLink i (fun l =>
    { vis := { l.vis with repeats := 1 }, aux := { l.aux with settleAt := l.aux.settleAt.map (· + l.aux.settleLen) } }) s)

theorem settleLimitExpiryStep_eq {s : State} {i : Nat} (hdue : s.due (s.link i).aux.settleAt = true)
    (hp : (s.linkRec i).phase = .settling) : settleLimitExpiryStep i s =
      if (s.linkRec i).repeats = 0 then repeatTune i s else faultLink i (withdrawPoll i s) := by
  unfold settleLimitExpiryStep repeatTune
  rw [hdue, hp]
  rfl

theorem repeatTune_spec {s : State} {i : Nat} {d : LinkDef} (hi : i < s.sup.links.length) (hd : s.linkDef i = some d) :
    LinkOp i s (repeatTune i s) ∧
      (repeatTune i s).link i =
        { vis := { s.linkRec i with repeats := 1 }
          aux := { (s.link i).aux with settleAt := (s.link i).aux.settleAt.map (· + (s.link i).aux.settleLen) } } ∧
      ∃ x ∈ (repeatTune i s).ul.controlQ, x.link = i ∧ x.kind = .tune ∧ x.seq = ((repeatTune i s).link i).aux.seq := by
  have hunlinked := modLink_unlinked i (fun l =>
    { vis := { l.vis with repeats := 1 }, aux := { l.aux with settleAt := l.aux.settleAt.map (· + l.aux.settleLen) } }) s
  have hlink := link_modLink_self hi fun l =>
    { vis := { l.vis with repeats := 1 }, aux := { l.aux with settleAt := l.aux.settleAt.map (· + l.aux.settleLen) } }
  have hop := LinkOp.modLink i (fun l =>
    { vis := { l.vis with repeats := 1 }, aux := { l.aux with settleAt := l.aux.settleAt.map (· + l.aux.settleLen) } }) s
  unfold repeatTune
  generalize modLink i (fun l => { vis := { l.vis with repeats := 1 }
                                   aux := { l.aux with settleAt := l.aux.settleAt.map (· + l.aux.settleLen) } }) s = u
    at hunlinked hlink hop
  refine ⟨hop.trans (.of_links ?_), ?_, _, mem_queueForSequence ((linkDef_of_unlinked hunlinked i).trans hd) .tune, rfl, rfl, ?_⟩
  · rw [queueForSequence_frame]
  · rw [queueForSequence_link, hlink]
    rfl
  · rw [queueForSequence_link]
    rfl

/-! ### The retry of a failover (R74) -/

theorem failoverRetryExpiryStep_clear {s : State} {i : Nat} (hdue : s.due (s.link i).aux.retryAt = true)
    (hka : s.kc.asserted = false) (hi : i < s.sup.links.length) :
    let t := modAux i (fun a => { a with retryAt := none }) s
    failoverRetryExpiryStep i s =
      if (s.linkRec i).state = .active ∧ (s.link i).aux.order = none then
        if failoverWanted s i then evaluateFailover i t
        else modLink i (fun l => { l with vis := { l.vis with block := .clear } }) t
      else t := by
  intro t
  have hlink : t.link i = { s.link i with aux := { (s.link i).aux with retryAt := none } } := link_modAux_self hi _
  have hwanted : failoverWanted t i = failoverWanted s i := by
    have hroles : failingRoles t i = failingRoles s i := by
      have hrole (d : LinkDef) : failingRole t d (t.link i) = failingRole s d (s.link i) := by
        rw [hlink]
        funext r
        cases r <;> rfl
      have hdef : t.linkDef i = s.linkDef i := rfl
      unfold failingRoles
      rw [hdef]
      simp only [hrole]
    unfold failoverWanted
    rw [hroles]
  unfold failoverRetryExpiryStep
  rw [hdue, hka]
  dsimp only
  rw [if_pos (show (true && !false) = true from rfl), show modAux i (fun a => { a with retryAt := none }) s = t from rfl, hlink,
    hwanted]
  exact if_congr (by simp [State.linkRec]) rfl rfl

/-- Settles O38. -/
theorem linkTimers : Obligations.LinkTimers := by
  refine ⟨fun s i d hi hd => ?evaluations, fun s i d h96 hi hd hrun => ?timers⟩
  case evaluations =>
    have hprog := linkOnProgramme_eq hd
    refine ⟨evaluateFailover_idle, fun hw hp => ?_, fun hw hp hout hwait => ?_, recheckHold_idle, fun h => ?_,
      failoverWanted_iff s i, mem_failingRoles hd⟩
    · intro t
      have h := holdBegun_beginHold .failover hi
      rw [← evaluateFailover_holds hw (hprog.trans hp)] at h
      exact ⟨h.op.others, h.state, h.hold, h.start, h.seqKind, onlyLinks_iff.2 h.unlinked⟩
    · intro t
      have h := failoverBegun_proceedFailover false hi
      rw [← evaluateFailover_proceeds hw (hprog.trans hp)] at h
      have hsent := h.sent ⟨hout, hwait⟩
      refine ⟨h.op.others, h.state, h.seqKind, h.phase, h.permit, h.roles, hsent, ?_⟩
      rw [onlyLinks_iff, h.rest, hsent]
      rfl
    · obtain ⟨t, heq, hop, hst, hh, hu⟩ := recheckHold_over h hi
      exact ⟨t, heq, hop.others, hst, hh, onlyLinks_iff.2 hu⟩
  case timers =>
    intro l due queued
    have hdue (t : Option Nat) (h : due t) : s.due t = true := (due_iff hrun t).2 h
    refine ⟨fun ht hp hw => ?poll, fun ht hp => ?guard, fun ht hp hr => ?again, fun ht hp hr => ?faulted,
      fun o n hst hh ho htimer hat hn => ?heldOrder, fun n hst hh htimer hat hn hw hout hwait => ?heldFailover,
      fun r n hat hn => ?delay, fun ht => ?retry, fun n hat hn hex => ?staleness⟩
    case poll =>
      have heq : settlePollTimerExpiryStep i s = queueForSequence i .settlePoll (modAux i (fun a => { a with pollAt := none }) s) := by
        have hp' : ((modAux i (fun a => { a with pollAt := none }) s).linkRec i).phase = .settling := by
          rw [linkRec_modAux]
          exact hp
        have hw' : controlWaiting (modAux i (fun a => { a with pollAt := none }) s) i = false := hw
        unfold settlePollTimerExpiryStep
        rw [hdue _ ht, if_pos rfl]
        dsimp only
        rw [hp', hw']
        rfl
      refine ⟨settlePollTimerExpiryStep i s, rfl, ?_⟩
      rw [heq]
      have hop := LinkOp.modAux i (fun a => { a with pollAt := none }) s
      have hpoll := mem_queueForSequence (s := modAux i (fun a => { a with pollAt := none }) s) hd .settlePoll
      refine ⟨(hop.trans (.of_links ?_)).others, ⟨_, hpoll, rfl, rfl, ?_⟩, ?_, ?_⟩
      · rw [queueForSequence_frame]
      · rw [queueForSequence_link]
        rfl
      · rw [queueForSequence_link, link_modAux_self hi]
      · rw [queueForSequence_frame]
        rfl
    case guard =>
      have heq : guardExpiryStep i s = guardEnds i s := by
        have hp' : (s.linkRec i).phase = .guarding := hp
        unfold guardExpiryStep
        rw [hdue _ ht, hp']
        rfl
      have h := guardEnded_guardEnds hi hd
      rw [← heq] at h
      obtain ⟨x, hx, hlink, hkind, hseq⟩ := h.polled
      refine ⟨guardExpiryStep i s, rfl, h.op.others, h.phase, h.repeats, h.state, ⟨x, hx, hlink, hkind, hseq.trans h.seq.symm⟩,
        fun hout hwait => ?_, h.settleAt⟩
      rw [h.sent ⟨hout, hwait⟩, updateOf_map]
      rfl
    case again =>
      have heq := (settleLimitExpiryStep_eq (hdue _ ht) hp).trans (if_pos hr)
      obtain ⟨hop, hlink, hqueued⟩ := repeatTune_spec hi hd
      rw [← heq] at hop hlink hqueued
      refine ⟨settleLimitExpiryStep i s, rfl, hop.others, ?_, ?_, hqueued, ?_⟩
      · rw [State.linkRec, hlink]
        exact hp
      · rw [State.linkRec, hlink]
      · rw [hlink]
    case faulted =>
      have heq := (settleLimitExpiryStep_eq (hdue _ ht) hp).trans (if_neg hr)
      obtain ⟨hst, hseq⟩ := linkRec_faultLink (i := i) (s := withdrawPoll i s) hi
      refine ⟨settleLimitExpiryStep i s, rfl, ?_⟩
      rw [heq]
      exact ⟨(LinkOp.faultLink i (withdrawPoll i s)).others, hst, hseq, faultLink_ctl i (withdrawPoll i s)⟩
    case heldOrder =>
      have heq := holdLimitExpiryStep_expires hrun hst (holdLimitPassed_of hd htimer hat hn)
      have h := holdExpires_order hi hh ho
      rw [← heq] at h
      exact ⟨_, holdExpiredReport i s, rfl, h.op.others, h.link.state, h.link.seqKind, h.link.hold, h.link.permit,
        h.reports.subset (mem_holdExpired i s), rfl, rfl⟩
    case heldFailover =>
      have heq := holdLimitExpiryStep_expires hrun hst (holdLimitPassed_of hd htimer hat hn)
      have h := holdExpires_failover hi hh hw
      rw [← heq] at h
      exact ⟨_, holdExpiredReport i s, rfl, h.op.others, h.state, h.seqKind, h.phase, h.hold, h.permit,
        h.reports.subset (mem_holdExpired i s), rfl, rfl, h.sent ⟨hout, hwait⟩⟩
    case delay =>
      have hdue' : s.due (((s.link i).degradedAt r).map (· + d.delayS * Config.unitsPerSecond)) = true :=
        hdue _ ⟨_, congrArg (Option.map _) hat, by rwa [units_second]⟩
      refine next_finishLink ?_
      unfold failoverDelayExpiryStep
      rw [hd]
      exact if_pos hdue'
    case retry =>
      intro stopped
      have hstep (hka : s.kc.asserted = false) := failoverRetryExpiryStep_clear (hdue _ ht) hka hi
      refine ⟨fun hka => next_finishLink ?_, fun hka hno => next_finishLink ?_, fun hka hst ho hw => next_finishLink ?_,
        fun hka hst ho hw => ?_⟩
      · unfold failoverRetryExpiryStep
        rw [hka]
        exact if_neg (by simp)
      · rw [hstep hka, if_neg]
        · rfl
        · rintro ⟨hst, ho⟩
          rcases hno with h | h
          · exact h hst
          · rw [show l.aux.order = none from ho] at h
            cases h
      · rw [hstep hka, if_pos ⟨hst, ho⟩, if_pos hw]
        rfl
      · have heq := (hstep hka).trans ((if_pos ⟨hst, ho⟩).trans (if_neg (by rw [hw]; exact Bool.false_ne_true)))
        have hop := LinkOp.modAux i (fun a => { a with retryAt := none }) s
        refine ⟨failoverRetryExpiryStep i s, rfl, ?_⟩
        rw [heq]
        refine ⟨(hop.trans (.modLink ..)).others, ?_, onlyLinks_iff.2 ?_⟩
        · rw [link_modLink_self (hop.lt hi), link_modAux_self hi]
        · rw [modLink_unlinked, modAux_unlinked]
    case staleness =>
      intro rated after
      have hstep : staleTimerExpiryStep i s = healthChangedFrom (roleHealths s i) i
          (entryHealth i (modAux i (fun a => { a with staleExpired := true }) s)) := by
        have hdue' : s.due ((s.link i).aux.staleFrom.map (· + staleTime s)) = true :=
          hdue _ ⟨_, congrArg (Option.map _) hat, hn⟩
        unfold staleTimerExpiryStep
        rw [hdue', hex]
        rfl
      have hop := LinkOp.modAux i (fun a => { a with staleExpired := true }) s
      have hlink := link_modAux_self hi fun a => { a with staleExpired := true }
      have hrec : (modAux i (fun a => { a with staleExpired := true }) s).linkRec i = s.linkRec i := linkRec_modAux ..
      have hrated : (s.linkRec i).rated = true ↔ rated := rated_iff _
      refine ⟨fun hr => next_finishLink ?_, fun hr => ?_⟩
      · have hidle := entryHealth_unrated_state (i := i) (s := modAux i (fun a => { a with staleExpired := true }) s)
          (by rw [hrec]; exact Bool.eq_false_of_not_eq_true fun h => hr (hrated.1 h))
        rw [hstep, hidle, healthChangedFrom_eq, hrec, if_pos ⟨rfl, rfl⟩]
        rfl
      · have hhealth := entryHealth_health (hop.lt hi) (d := d) hd (by rw [hrec]; exact hrated.2 hr)
        have hun := link_entryHealth i i (modAux i (fun a => { a with staleExpired := true }) s)
        have hall := entryHealth_unlinked i (modAux i (fun a => { a with staleExpired := true }) s)
        have hopt := LinkOp.entryHealth i (modAux i (fun a => { a with staleExpired := true }) s)
        rw [hrec, hlink] at hhealth
        rw [hlink] at hun
        generalize entryHealth i (modAux i (fun a => { a with staleExpired := true }) s) = t at hstep hhealth hun hall hopt
        have hafter (r : Role) : ((t.linkRec i).role r).health = after r := hhealth r
        have hstate : (t.linkRec i).state = l.vis.state := (state_of_unrated hun :)
        have hfinal : staleTimerExpiryStep i s =
            if after .outbound = l.vis.outRec.health ∧ after .inbound = l.vis.inRec.health then t
            else if l.vis.state = .holding then recheckHold i t else evaluateFailover i t := by
          rw [hstep, healthChangedFrom_eq, hstate, ← hafter, ← hafter]
          rfl
        exact ⟨t, next_finishLink hfinal, (hop.trans hopt).others, hstate, (hold_of_unrated hun :),
          (congrArg (fun x => x.aux.staleExpired) hun :), hafter, onlyLinks_iff.2 (hall.trans (modAux_unlinked ..))⟩

end Sys2Proof.Machine
end

section
/-! PROOFS. O37: the outcomes of a link's CONTROL transactions (R65 to R68, R72, R73, R75, R83). -/

namespace Sys2Proof.Machine

/-! ### The outcome that is taken -/

section
variable {s : State} {x : ControlOutcome} {rest : List ControlOutcome}

/-- The oldest outcome, of the link's present sequence. -/
theorem takeOutcome_current {kind : ControlKind} {p : ControlResult → Bool} (f : ControlOutcome → State → State)
    (hq : s.mail.controlOutcomes = x :: rest) (hseq : x.seq = (s.link x.link).aux.seq) (hk : x.kind = kind)
    (hp : p x.result = true) : takeOutcome kind p f s = f x { s with mail.controlOutcomes := rest } := by
  have hcurrent : current { s with mail.controlOutcomes := rest } x.link x.seq = true := decide_eq_true hseq.symm
  unfold takeOutcome
  rw [hq]
  dsimp only
  rw [hcurrent, hp, hk]
  simp

end

/-! ### The guard interval begins (R66) -/

theorem units_milli : Config.unitsPerMs = 768 := rfl

/-- A link at the beginning of its guard interval. -/
def Link.guarding (due : Nat) (l : Link) : Link :=
  { vis := { l.vis with phase := .guarding }, aux := { l.aux with guardAt := some due } }

theorem goGuard_eq (i : Nat) (s : State) : goGuard i s =
    if largestOf s i ClassDef.guardMs = 0 then
      guardEnds i (modLink i (Link.guarding (s.tb.elapsed + largestOf s i ClassDef.guardMs * 768)) s)
    else modLink i (Link.guarding (s.tb.elapsed + largestOf s i ClassDef.guardMs * 768)) s := by
  have hzero : largestOf s i ClassDef.guardMs * Config.unitsPerMs = 0 ↔ largestOf s i ClassDef.guardMs = 0 := by
    simp [units_milli]
  unfold goGuard
  exact if_congr hzero rfl rfl

/-- The largest field of the sequence's classes depends on the roles, the definition and the rules. -/
theorem largestOf_congr {s u : State} {i : Nat} (f : ClassDef → Nat) (hctl : u.ctl = s.ctl) (hd : u.linkDef i = s.linkDef i)
    (hroles : (u.linkRec i).inSequence = (s.linkRec i).inSequence) : largestOf u i f = largestOf s i f := by
  unfold largestOf
  dsimp only
  rw [hroles, hd, hctl]

/-- A guard interval of 0 ends at once, as the interval of the link that it found. -/
theorem guardEnded_at_once {s : State} {i due : Nat} {d : LinkDef} (hi : i < s.sup.links.length) (hd : s.linkDef i = some d) :
    GuardEnded i s (guardEnds i (modLink i (Link.guarding due) s)) := by
  have hop := LinkOp.modLink i (Link.guarding due) s
  have hlink := link_modLink_self hi (Link.guarding due)
  have hu := modLink_unlinked i (Link.guarding due) s
  generalize modLink i (Link.guarding due) s = u at hop hlink hu
  have h := guardEnded_guardEnds (hop.lt hi) ((linkDef_of_unlinked hu i).trans hd)
  have hrec : u.linkRec i = { s.linkRec i with phase := .guarding } := by rw [State.linkRec, hlink]; rfl
  have hlargest : largestOf u i ClassDef.settleMs = largestOf s i ClassDef.settleMs :=
    largestOf_congr _ (ctl_of_unlinked hu) (linkDef_of_unlinked hu i) (by rw [hrec]; funext r; cases r <;> rfl)
  have hold : oldEntries u i = oldEntries s i := by
    unfold oldEntries
    rw [entriesOf_of_unlinked hu, hrec]
    refine List.filter_congr fun e _ => ?_
    cases e.role <;> rfl
  obtain ⟨hop', hphase, hrepeats, hstate, hseq, hguard, hsettle, hpolled, hsent⟩ := h
  rw [hrec] at hstate
  rw [hlink] at hseq hpolled hsent
  rw [hlargest, congrArg Timebase.elapsed (tb_of_unlinked hu)] at hsettle
  rw [hold, ctl_of_unlinked hu] at hsent
  exact ⟨hop.trans hop', hphase, hrepeats, hstate, hseq, hguard, hsettle, hpolled, hsent⟩

/-! ### Settle polls after a repeated TUNE (R67) -/

theorem resumePolls_spec {s : State} {i : Nat} (hi : i < s.sup.links.length) :
    LinkOp i s (resumePolls i s) ∧
      (resumePolls i s).link i = { s.link i with aux := { (s.link i).aux with
        pollAt := if (s.link i).aux.pollAt.isSome || pollOutstanding s i then (s.link i).aux.pollAt
          else some (s.tb.elapsed + 7680) } } ∧
      resumePolls i s = { s with sup := (resumePolls i s).sup } := by
  unfold resumePolls
  split
  · exact ⟨.refl .., rfl, rfl⟩
  · refine ⟨.modAux .., ?_, rfl⟩
    rw [startPollTimer, link_modAux_self hi]
    rfl

/-! ### The end of a PARK (R75) -/

theorem evaluateFailover_inactive {s : State} {i : Nat} (h : (s.linkRec i).state ≠ .active) : evaluateFailover i s = s :=
  evaluateFailover_idle fun hdue => h hdue.1

/-- The evaluation at the end of an order, on an ACTIVE link. -/
theorem evaluateFailover_if {s : State} {i : Nat} {st : LinkState} (h : (s.linkRec i).state = st) :
    evaluateFailover i s = if st = .active then evaluateFailover i s else s := by
  split
  · rfl
  · next hst => exact evaluateFailover_inactive (h ▸ hst)

section
variable {s : State} {i : Nat} {o : LinkOrder} (ho : (s.link i).aux.order = some o) (hk : o.kind = .park)
include ho hk

theorem tryCompletePark_completes (hp : (s.link i).aux.purges = 0) (hmute : (s.link i).aux.parkMute ≠ .waiting) :
    tryCompletePark i s = evaluateFailover i
      (completeLinkOrder i (s.link i) (if (s.link i).aux.parkMute = .failed then .timeout else .ok) s) := by
  unfold tryCompletePark
  dsimp only
  rw [ho]
  dsimp only
  rw [hk, hp]
  exact if_pos (by simpa using hmute)

/-- What a PARK reports of the entries removed and of its MUTE. -/
theorem completeLinkOrder_park_bytes (k : ResultCode) (hm : Memory.wf s.mem) (hmute : (s.link i).aux.parkMute ≠ .waiting) :
    resultByte (completeLinkOrder i (s.link i) k s).mem o.tag.cell 1 = (s.link i).aux.parkRemoved % 256 ∧
      resultByte (completeLinkOrder i (s.link i) k s).mem o.tag.cell 2 = (s.link i).aux.parkMute.toNat % 256 := by
  have hmem : (completeLinkOrder i (s.link i) k s).mem =
      (doneOrder .supervisor o.tag (linkResults o (s.link i) s) k (some i) s).mem :=
    (congrArg State.mem (completeLinkOrder_unlinked (i := i) (s := s) k ho) :)
  have hres : linkResults o (s.link i) s = parkResults s.openCount (s.link i) := if_pos hk
  rw [hmem, hres]
  refine ⟨doneOrder_byte hm (parkResults_apart ..) (.tail _ (.head _)), doneOrder_byte hm (parkResults_apart ..) ?_⟩
  unfold parkResults
  rw [if_neg hmute]
  exact .tail _ (.tail _ (.head _))

end

/-! ### The sequence given up after its TUNE (R65, R74) -/

/-- The changes that remove the new codes of a sequence. -/
def LinkRec.gone (l : LinkRec) : List CarrierChange :=
  l.newCodes.map fun c => { role := c.1, code := c.2, change := .remove }

/-- The new entries of a sequence have been removed. -/
theorem removeNew_spec {s : State} {i : Nat} (hi : i < s.sup.links.length) :
    LinkOp i s (removeNew i s) ∧ (removeNew i s).unlinked = { s.unlinked with ctl.queue := (removeNew i s).ctl.queue } ∧
      (∃ a b c, (removeNew i s).link i = { s.link i with aux := (s.link i).aux.gated a b c }) ∧
      ((s.link i).open → (removeNew i s).ctl = { s.ctl with
        queue := s.ctl.queue ++ updateOf i (s.link i).aux.seq (s.linkRec i).gone }) := by
  rw [removeNew_eq]
  exact ⟨.sendUpdate .., sendUpdate_unlinked .., link_sendUpdate _ hi, sendUpdate_open⟩

/-- The sequence is given up, its new entries removed; f is what else becomes of the link. -/
structure GivenUp (f : Link → Link) (i : Nat) (s t : State) : Prop where
  op : LinkOp i s t
  link : ∃ c o x y z, (t.link i).unrated =
    Link.unrated { vis := { (f { s.link i with aux := (s.link i).aux.gated x y z }).backToStart.vis with orderCell := c }
                   aux := { (f { s.link i with aux := (s.link i).aux.gated x y z }).backToStart.aux with order := o } }
  removed : (s.link i).open → t.ctl = { s.ctl with
    queue := s.ctl.queue ++ updateOf i (s.link i).aux.seq (s.linkRec i).gone }

theorem givenUp_returned (f : Link → Link) (k : ResultCode) {s : State} {i : Nat} (hi : i < s.sup.links.length) :
    GivenUp f i s (returned f i k (removeNew i s)) := by
  obtain ⟨hop, hrest, ⟨x, y, z, hlink⟩, hsent⟩ := removeNew_spec hi
  generalize removeNew i s = u at hop hrest hlink hsent
  obtain ⟨c, o, ht⟩ := link_returned (f := f) k (hop.lt hi)
  rw [hlink] at ht
  refine ⟨hop.trans (.returned ..), ⟨c, o, x, y, z, ht⟩, fun h => ?_⟩
  rw [ctl_of_unlinked (returned_unlinked ..), completeLinkOrder_ctl, ctl_of_unlinked (modLink_unlinked ..), hsent h]

end Sys2Proof.Machine
end

section
/-! PROOFS. O37: each outcome of a CONTROL transaction, from the rules before. -/

namespace Sys2Proof.Machine

section
variable {s : State} {i : Nat}

theorem returned_mem (f : Link → Link) (k : ResultCode) (ho : (s.link i).aux.order = none) : (returned f i k s).mem = s.mem := by
  rw [mem_of_unlinked (returned_unlinked ..), completeLinkOrder_none ho]
  exact mem_of_unlinked (modLink_unlinked ..)

/-- A failover that ends with its block: the retry timer runs, so no evaluation acts. -/
theorem returnBlocked_eq (b : FailoverBlock) (k : ResultCode) (hi : i < s.sup.links.length) :
    returnBlocked b i k s = returned (Link.blockFailover s b) i k s ∧
      ((returned (Link.blockFailover s b) i k s).link i).aux.retryAt =
        some (s.tb.elapsed + s.sup.settings.periodMs * 768) := by
  obtain ⟨c, o, hlink⟩ := link_returned (f := Link.blockFailover s b) k hi
  have hretry : ((returned (Link.blockFailover s b) i k s).link i).aux.retryAt =
      some (s.tb.elapsed + s.sup.settings.periodMs * Config.unitsPerMs) := (congrArg (fun x => x.aux.retryAt) hlink :)
  refine ⟨?_, by rw [hretry, units_milli]⟩
  unfold returnBlocked
  rw [returnWith_eq]
  have hidle : evaluateFailover i (returned (Link.blockFailover s b) i k s) = returned (Link.blockFailover s b) i k s := by
    refine evaluateFailover_idle fun ⟨_, _, _, _, hnone⟩ => ?_
    rw [hretry] at hnone
    cases hnone
  split
  · exact hidle
  · rfl

/-- A sequence given up leaves the state it began from. -/
theorem GivenUp.state {t : State} {f : Link → Link} (h : GivenUp f i s t) (hf : ∀ l, (f l).aux.began = l.aux.began) :
    (t.linkRec i).state = (s.link i).aux.began ∧ (t.linkRec i).seqKind = .noSequence := by
  obtain ⟨c, o, x, y, z, hlink⟩ := h.link
  exact ⟨(state_of_unrated hlink).trans (hf _), (seqKind_of_unrated hlink :)⟩

/-! ### Back in HOLDING (R72) -/

/-- A hold that begins after the new entries of the sequence have been removed. -/
structure HeldAgain (i : Nat) (reason : HoldReason) (s t : State) : Prop where
  op : LinkOp i s t
  state : (t.linkRec i).state = .holding
  hold : (t.linkRec i).hold = some reason
  start : (t.linkRec i).holdStart = some s.now
  seqKind : (t.linkRec i).seqKind = .noSequence
  cell : (t.linkRec i).orderCell = (s.linkRec i).orderCell
  removed : (s.link i).open → t.ctl = { s.ctl with
    queue := s.ctl.queue ++ updateOf i (s.link i).aux.seq (s.linkRec i).gone }
  rest : t.unlinked = { s.unlinked with ctl.queue := t.ctl.queue }

theorem heldAgain_beginHold (reason : HoldReason) (hi : i < s.sup.links.length) :
    HeldAgain i reason s (beginHold i reason (removeNew i s)) := by
  obtain ⟨hop, hrest, ⟨x, y, z, hlink⟩, hsent⟩ := removeNew_spec hi
  generalize removeNew i s = u at hop hrest hlink hsent
  have h := holdBegun_beginHold reason (hop.lt hi)
  have hnow : u.now = s.now := (congrArg State.now hrest :)
  have hctl := ctl_of_unlinked h.unlinked
  refine ⟨hop.trans h.op, h.state, h.hold, h.start.trans (congrArg some hnow), h.seqKind, h.cell.trans ?_,
    fun ho => hctl.trans (hsent ho), ?_⟩
  · rw [State.linkRec, hlink]
    rfl
  · rw [h.unlinked, hctl]
    exact hrest

end

/-! ### A TUNE that fails (R65, R74, R149) -/

section
variable {s : State} {i : Nat}

/-- For the order of an enable or a retune. -/
theorem tuneFails_order {o : LinkOrder} (hm : Memory.wf s.mem) (h96 : i < 96) (hi : i < s.sup.links.length)
    (hk : (s.linkRec i).seqKind = .enable ∨ (s.linkRec i).seqKind = .retune) (ho : (s.link i).aux.order = some o) :
    ∃ t, tuneFails i s = (if (s.link i).aux.began = .active then evaluateFailover i t else t) ∧ GivenUp id i s t ∧
      OrderEnds o.tag 4 .timeout i s t ∧ (t.linkRec i).orderCell = none := by
  obtain ⟨hop, hrest, ⟨a, b, c, hlink⟩, -⟩ := removeNew_spec hi
  have hgiven := givenUp_returned id .timeout hi
  have hmem : (removeNew i s).mem = s.mem := (congrArg State.mem hrest :)
  have hdisp : (removeNew i s).disp = s.disp := (congrArg State.disp hrest :)
  have hstep : tuneFails i s = returnWith id i .timeout (removeNew i s) := by
    unfold tuneFails returnToStart
    rcases hk with hk | hk <;> rw [hk]
  generalize removeNew i s = u at *
  have hbegan : (u.link i).aux.began = (s.link i).aux.began := by rw [hlink]; rfl
  obtain ⟨hends, hcell⟩ := returned_ends (f := id) .timeout (hop.lt hi) (hmem.symm ▸ hm) h96 (show (u.link i).aux.order = some o by
    rw [hlink]
    exact ho)
  refine ⟨_, hstep.trans ((returnWith_eq ..).trans (by rw [hbegan])), hgiven, ?_, hcell⟩
  unfold OrderEnds at hends ⊢
  rwa [hmem, hdisp] at hends

/-- For a failover. -/
theorem tuneFails_failover (hi : i < s.sup.links.length) (hk : (s.linkRec i).seqKind = .failover)
    (ho : (s.link i).aux.order = none) : ∃ u, GivenUp (Link.blockFailover u .timeout) i s (tuneFails i s) ∧
      ((tuneFails i s).linkRec i).block = .timeout ∧
      ((tuneFails i s).link i).aux.retryAt = some (s.tb.elapsed + s.sup.settings.periodMs * 768) ∧
      (tuneFails i s).mem = s.mem := by
  obtain ⟨hop, hrest, ⟨a, b, c, hlink⟩, -⟩ := removeNew_spec hi
  have hgiven := givenUp_returned (Link.blockFailover (removeNew i s) .timeout) .timeout hi
  have hmem : (removeNew i s).mem = s.mem := (congrArg State.mem hrest :)
  have htb : (removeNew i s).tb = s.tb := (congrArg State.tb hrest :)
  have hset : (removeNew i s).sup.settings = s.sup.settings := (congrArg (fun t => t.sup.settings) hrest :)
  have hstep : tuneFails i s = returnBlocked .timeout i .timeout (removeNew i s) := by
    unfold tuneFails
    rw [hk]
  obtain ⟨heq, hretry⟩ := returnBlocked_eq (s := removeNew i s) .timeout .timeout (hop.lt hi)
  rw [hstep, heq]
  refine ⟨_, hgiven, ?_, by rw [hretry, htb, hset], (returned_mem _ _ (by rw [hlink]; exact ho)).trans hmem⟩
  obtain ⟨c, o, x, y, z, hlink⟩ := hgiven.link
  exact (congrArg (fun x => x.vis.block) hlink :)

theorem tuneFails_restore (hk : (s.linkRec i).seqKind = .restore) : tuneFails i s = faultLink i s := by
  unfold tuneFails
  rw [hk]

end

/-! ### The UNMUTE is acknowledged (R68) -/

/-- The LIVE UPDATE leaves the record as it was. -/
theorem sendLink_spec {s : State} {i : Nat} (r : CtlReq) (h : (s.link i).open) :
    (sendLink i r s).linkRec i = s.linkRec i ∧ (sendLink i r s).ctl = { s.ctl with queue := s.ctl.queue ++ [r] } ∧
      sendLink i r s = { s with ctl := (sendLink i r s).ctl, sup := (sendLink i r s).sup } := by
  refine ⟨linkRec_sendLink .., ?_, ?_⟩
  · rw [sendLink_open h]
    rfl
  · rw [sendLink_open h]
    rfl

/-! ### The MUTE of a PARK has ended (R75) -/

/-- The end of a PARK whose PURGE is answered and whose MUTE has ended. -/
theorem parkEnds {s : State} {i : Nat} {o : LinkOrder} (hm : Memory.wf s.mem) (h96 : i < 96) (hi : i < s.sup.links.length)
    (ho : (s.link i).aux.order = some o) (hk : o.kind = .park) (hp : (s.link i).aux.purges = 0)
    (hmute : (s.link i).aux.parkMute ≠ .waiting) :
    ∃ t, tryCompletePark i s = (if (s.linkRec i).state = .active then evaluateFailover i t else t) ∧ LinkOp i s t ∧
      OrderEnds o.tag 4 (if (s.link i).aux.parkMute = .failed then .timeout else .ok) i s t ∧
      resultByte t.mem o.tag.cell 1 = (s.link i).aux.parkRemoved % 256 ∧
      resultByte t.mem o.tag.cell 2 = (s.link i).aux.parkMute.toNat % 256 ∧
      (t.linkRec i).state = (s.linkRec i).state ∧ (t.linkRec i).orderCell = none ∧
      t.unlinked = { s.unlinked with mem := t.mem, disp := t.disp, openCount := t.openCount } := by
  have hstep := tryCompletePark_completes ho hk hp hmute
  generalize (if (s.link i).aux.parkMute = .failed then ResultCode.timeout else .ok) = code at hstep ⊢
  have hlink := link_completeLinkOrder code ho hi
  have hstate : ((completeLinkOrder i (s.link i) code s).linkRec i).state = (s.linkRec i).state := by
    rw [State.linkRec, hlink]
    rfl
  obtain ⟨hremoved, hbyte⟩ := completeLinkOrder_park_bytes ho hk code hm hmute
  refine ⟨completeLinkOrder i (s.link i) code s, hstep.trans (evaluateFailover_if hstate), .completeLinkOrder code ho,
    completeLinkOrder_ends code ho hm h96, hremoved, hbyte, hstate, ?_, ?_⟩
  · rw [State.linkRec, hlink]
    rfl
  · have h := completeLinkOrder_unlinked (i := i) (s := s) code ho
    have hmem : (completeLinkOrder i (s.link i) code s).mem = _ := (congrArg State.mem h :)
    have hdisp : (completeLinkOrder i (s.link i) code s).disp = _ := (congrArg State.disp h :)
    have hopen : (completeLinkOrder i (s.link i) code s).openCount = _ := (congrArg State.openCount h :)
    rw [h, hmem, hdisp, hopen]

/-- Settles O37. -/
theorem controlOutcomes : Obligations.ControlOutcomes := by
  refine ⟨fun s x rest d hm hq h96 hi hd hseq => ?transactions, fun s x rest o hm hq h96 hi hk => ?mute⟩
  case transactions =>
    intro i l g removed
    obtain ⟨u, hu⟩ : ∃ u, u = ({ s with mail.controlOutcomes := rest } : State) := ⟨_, rfl⟩
    have hlen : i < u.sup.links.length := by rw [hu]; exact hi
    have htaken {kind : ControlKind} {p : ControlResult → Bool} (f : ControlOutcome → State → State) (hk : x.kind = kind)
        (hp : p x.result = true) : takeOutcome kind p f s = f x u := hu ▸ takeOutcome_current f hq hseq hk hp
    have hrec : u.linkRec i = l.vis := by rw [hu]; rfl
    have hlink : u.link i = l := by rw [hu]; rfl
    have hctl : u.ctl = s.ctl := by rw [hu]
    have hopen (hout : l.aux.outstanding = false) (hwait : l.aux.killWait = []) : (u.link i).open := by
      rw [hlink]
      exact ⟨hout, hwait⟩
    have hremoved (t : State) (h : t.ctl = { u.ctl with queue := u.ctl.queue ++ updateOf i (u.link i).aux.seq (u.linkRec i).gone }) :
        removed t := by
      rw [LinkRec.gone, updateOf_map, hlink, hrec, hctl, show l.aux.seq = x.seq from hseq.symm] at h
      exact h
    refine ⟨fun hk hr hp hg => ?guard, fun hk hr hp hg hout hwait => ?noGuard, fun hk hr hp hout hwait => ?failed,
      fun hk hr hp => ?withheld, fun hk hr hp => next_finishLink ?byKill, fun hk hr hp hout hwait => ?live,
      fun o hk hr hp ho hpark => ?unmuteFailed, fun hk hr hp ho => ?restoreFailed, fun p hk hr => next_finishLink ?nothing,
      fun hk hp => ?poll, fun c p hk hp hc => ?resumed⟩
    case guard =>
      have hstep : tuneAckStep s = modLink i (Link.guarding (s.tb.elapsed + g * 768)) u := by
        rw [tuneAckStep, htaken _ hk (by rw [hr]; rfl)]
        rw [hrec, hp]
        subst hu
        exact (goGuard_eq ..).trans (if_neg (Nat.pos_iff_ne_zero.1 hg))
      refine ⟨tuneAckStep s, rfl, ?_⟩
      rw [hstep]
      refine ⟨?_, ?_, ?_, ?_, onlyLinks_iff.2 ((modLink_unlinked ..).trans (congrArg _ hu))⟩
      · subst hu
        exact (LinkOp.modLink i _ { s with mail.controlOutcomes := rest }).others
      · rw [linkRec_modLink, if_pos ⟨rfl, hlen⟩]
        rfl
      · rw [linkRec_modLink, if_pos ⟨rfl, hlen⟩, hlink]
        rfl
      · rw [link_modLink_self hlen]
        rfl
    case noGuard =>
      intro old
      have hstep : tuneAckStep s = guardEnds i (modLink i (Link.guarding (s.tb.elapsed + g * 768)) u) := by
        rw [tuneAckStep, htaken _ hk (by rw [hr]; rfl)]
        rw [hrec, hp]
        subst hu
        exact (goGuard_eq ..).trans (if_pos hg)
      have h := guardEnded_at_once (due := s.tb.elapsed + g * 768) (s := u) (d := d) hlen (by rw [hu]; exact hd)
      rw [← hstep] at h
      subst hu
      obtain ⟨q, hqmem, hqlink, hqkind, hqseq⟩ := h.polled
      refine ⟨tuneAckStep s, rfl, h.op.others, h.phase, h.repeats, h.state, h.guardAt, h.settleAt,
        ⟨q, hqmem, hqlink, hqkind, hqseq.trans hseq.symm⟩, ?_⟩
      rw [h.sent ⟨hout, hwait⟩, updateOf_map, hseq]
      rfl
    case failed =>
      have hstep : tuneFailedStep s = tuneFails i u := by
        rw [tuneFailedStep, htaken _ hk (by rw [hr]; rfl)]
        rw [hrec, hp]
      refine ⟨fun o hkind ho hpark => ?order, fun hkind hbegan ho => ?failover, fun hkind ho => ?restore⟩
      case order =>
        obtain ⟨t, heq, hgiven, hends, hcell⟩ := tuneFails_order (s := u) (o := o) (by rw [hu]; exact hm) h96 hlen
          (by rw [hrec]; exact hkind) (by rw [hlink]; exact ho)
        obtain ⟨hst, hnone⟩ := hgiven.state fun _ => rfl
        rw [hlink] at heq hst
        refine ⟨t, next_finishLink (hstep.trans heq), ?_, hst, hnone, hcell, ?_, hremoved t (hgiven.removed (hopen hout hwait))⟩
        · subst hu
          exact hgiven.op.others
        · subst hu
          exact hends
      case failover =>
        obtain ⟨v, hgiven, hblock, hretry, hmem⟩ := tuneFails_failover hlen (by rw [hrec]; exact hkind) (by rw [hlink]; exact ho)
        rw [← hstep] at hgiven hblock hretry hmem
        obtain ⟨hst, hnone⟩ := hgiven.state fun _ => rfl
        rw [hlink, hbegan] at hst
        have hrem := hremoved _ (hgiven.removed (hopen hout hwait))
        subst hu
        exact ⟨tuneFailedStep s, rfl, hgiven.op.others, hst, hnone, hblock, hretry, hmem, hrem⟩
      case restore =>
        have heq := hstep.trans (tuneFails_restore (by rw [hrec]; exact hkind))
        obtain ⟨hst, hnone⟩ := linkRec_faultLink hlen
        have hop := LinkOp.faultLink i u
        have hmem := faultLink_mem (s := u) (i := i) (by rw [hlink]; exact ho)
        have hkept := faultLink_ctl i u
        rw [← heq] at hst hnone hop hmem hkept
        subst hu
        exact ⟨tuneFailedStep s, rfl, hop.others, hst, hnone, hmem, hkept⟩
    case withheld =>
      intro held
      have hstep : tuneWithheldStep s = holdAgain i u := by
        rw [tuneWithheldStep, htaken _ hk (by rw [hr]; rfl)]
        rw [hrec, hp]
        exact if_pos hr
      have hheld {reason : HoldReason} {t : State} (h : HeldAgain i reason u t) : held t reason := by
        have hrem (hout : l.aux.outstanding = false) (hwait : l.aux.killWait = []) := hremoved t (h.removed (hopen hout hwait))
        subst hu
        exact ⟨h.op.others, h.state, h.hold, h.start, h.seqKind, hrem, onlyLinks_iff.2 h.rest⟩
      refine ⟨fun hkind => ⟨tuneWithheldStep s, rfl, hheld ?_⟩,
        fun hkind => ⟨_, hheld (heldAgain_beginHold .failover hlen), next_finishLink ?_⟩⟩
      · rw [hstep, holdAgain_eq, if_neg (by rw [hrec, show l.vis.seqKind = .retune from hkind]; decide)]
        exact heldAgain_beginHold .order hlen
      · rw [hstep, holdAgain_eq, if_pos (by rw [hrec]; exact hkind), hrec]
    case byKill =>
      rw [tuneWithheldStep, htaken _ hk (by rw [hr]; rfl)]
      rw [hrec, hp, hr]
      exact hu
    case live =>
      have hstep : unmuteAckStep s = sendLink i (.update i x.seq true
          (l.vis.newCodes.map fun c => { role := c.1, code := c.2, change := .become .live })) u := by
        rw [unmuteAckStep, htaken _ hk (by rw [hr]; rfl)]
        rw [hrec]
        exact if_pos hp
      obtain ⟨hr', hctl', hrest⟩ := sendLink_spec (.update i x.seq true
        (l.vis.newCodes.map fun c => { role := c.1, code := c.2, change := .become .live })) (hopen hout hwait)
      have hop := LinkOp.sendLink i (.update i x.seq true
        (l.vis.newCodes.map fun c => { role := c.1, code := c.2, change := .become .live })) u
      rw [← hstep] at hr' hctl' hrest hop
      subst hu
      exact ⟨unmuteAckStep s, rfl, hop.others, hr', hctl', hrest⟩
    case unmuteFailed =>
      have hstep : unmuteFailedStep s = faultLink i u := by
        rw [unmuteFailedStep, htaken _ hk (by rw [hr]; rfl)]
        rw [hrec]
        exact if_pos hp
      obtain ⟨hst, hnone⟩ := linkRec_faultLink hlen
      have hop := LinkOp.faultLink i u
      have hkept := faultLink_ctl i u
      obtain ⟨hends, hcell⟩ := faultLink_ends (s := u) (o := o) (by rw [hu]; exact hm) h96 hlen (by rw [hlink]; exact ho)
      rw [← hstep] at hst hnone hop hends hcell hkept
      subst hu
      exact ⟨unmuteFailedStep s, rfl, hop.others, hst, hnone, hcell, hends, hkept⟩
    case restoreFailed =>
      have hstep : unmuteFailedStep s = faultLink i u := by
        rw [unmuteFailedStep, htaken _ hk (by rw [hr]; rfl)]
        rw [hrec]
        exact if_pos hp
      obtain ⟨hst, hnone⟩ := linkRec_faultLink hlen
      have hop := LinkOp.faultLink i u
      have hkept := faultLink_ctl i u
      have hmem := faultLink_mem (s := u) (i := i) (by rw [hlink]; exact ho)
      rw [← hstep] at hst hnone hop hmem hkept
      subst hu
      exact ⟨unmuteFailedStep s, rfl, hop.others, hst, hnone, hmem, hkept⟩
    case nothing =>
      rw [unmuteWithheldStep, htaken _ hk (by rw [hr]; rfl)]
      exact hu
    case poll =>
      have hstep : settlePollOutcomeStep s = startPollTimer i u := by
        rw [settlePollOutcomeStep, htaken _ hk rfl]
        rw [hrec]
        exact if_pos hp
      refine ⟨settlePollOutcomeStep s, rfl, ?_⟩
      rw [hstep]
      subst hu
      refine ⟨(LinkOp.modAux ..).others, ?_, rfl⟩
      rw [startPollTimer, link_modAux_self hlen]
      rfl
    case resumed =>
      have hstep : ∃ t, exec c s = .next (finishLink s t) ∧ t = resumePolls i u := by
        simp only [List.mem_cons, Prod.mk.injEq, List.not_mem_nil, or_false] at hc
        rcases hc with ⟨rfl, hr⟩ | ⟨rfl, hr⟩ | ⟨rfl, hr⟩
        · refine ⟨tuneAckStep s, rfl, ?_⟩
          rw [tuneAckStep, htaken _ hk (by rw [hr]; rfl)]
          rw [hrec, hp]
        · refine ⟨tuneFailedStep s, rfl, ?_⟩
          rw [tuneFailedStep, htaken _ hk (by rw [hr]; rfl)]
          rw [hrec, hp]
        · refine ⟨tuneWithheldStep s, rfl, ?_⟩
          rw [tuneWithheldStep, htaken _ hk (by rw [hr]; rfl)]
          rw [hrec, hp]
      obtain ⟨t, hexec, rfl⟩ := hstep
      obtain ⟨hop, htlink, hframe⟩ := resumePolls_spec hlen
      subst hu
      exact ⟨_, hexec, hop.others, htlink, hframe⟩
  case mute =>
    intro i l hseq hmute hp ho hpark
    obtain ⟨u, hu⟩ : ∃ u, u = modAux i (fun a => { a with parkMute := if x.result = .acked then .answered else .failed })
      { s with mail.controlOutcomes := rest } := ⟨_, rfl⟩
    have hstep : parkMuteOutcomeStep s = tryCompletePark i u := by
      have ha : ({ s with mail.controlOutcomes := rest } : State).link x.link = l := rfl
      rw [hu]
      unfold parkMuteOutcomeStep
      rw [hq]
      dsimp only
      rw [if_pos hk, ha, hmute, hseq]
      simp
      rfl
    have hlink : u.link i = { l with aux := { l.aux with parkMute := if x.result = .acked then .answered else .failed } } := by
      rw [hu, link_modAux_self (by exact hi)]
      rfl
    have hop : LinkOp i { s with mail.controlOutcomes := rest } u := by
      rw [hu]
      exact .modAux ..
    have hlen : i < u.sup.links.length := hop.lt hi
    have hwaits : (u.link i).aux.parkMute ≠ .waiting := by
      rw [hlink]
      dsimp only
      split <;> decide
    obtain ⟨t, heq, hopt, hends, -, hbyte, hst, hcell, hrest⟩ := parkEnds (s := u) (i := i) (o := o) (by rw [hu]; exact hm) h96 hlen
      (by rw [hlink]; exact ho) hpark (by rw [hlink]; exact hp) hwaits
    have hrec : (u.linkRec i).state = l.vis.state := by rw [State.linkRec, hlink]
    have hctl : t.ctl = u.ctl := (congrArg State.ctl hrest :)
    rw [hrec] at heq hst
    rw [hlink] at hends hbyte
    refine ⟨t, next_finishLink (hstep.trans heq), (hop.trans hopt).others, ?_, ?_, hcell, hst, hctl.trans (by rw [hu]; rfl)⟩
    · have hcode : (if (if x.result = .acked then ParkMute.answered else .failed) = .failed then ResultCode.timeout else .ok) =
          if x.result = .acked then .ok else .timeout := by split <;> simp_all
      rw [show _ = _ from hcode] at hends
      subst hu
      exact hends
    · rw [hbyte]
      dsimp only
      split <;> rfl

end Sys2Proof.Machine
end

section
/-! PROOFS. Chapters 4 and 5: what a step on one link leaves of everything else, and one link among all that a step takes. -/

namespace Sys2Proof.Machine

/-! ### A step on one link -/

/-- The state without what a step on a link alters: its links, the requests that wait for the controller, the plan engine and the
line, and what a change of a link brings. -/
def State.still (s : State) : State :=
  { s.unlinked with ctl.queue := [], ul.controlQ := [], eng := { s.eng with queue := [], standby := [] } }

theorem still_of_unlinked {s t : State} (h : t.unlinked = s.unlinked) : t.still = s.still := (congrArg State.still h :)

section
variable {s t : State} (h : t.still = s.still)
include h

theorem mem_of_still : t.mem = s.mem := (congrArg State.mem h :)
theorem kc_of_still : t.kc = s.kc := (congrArg State.kc h :)
theorem tb_of_still : t.tb = s.tb := (congrArg State.tb h :)
theorem tally_of_still : t.tally = s.tally := (congrArg State.tally h :)
theorem router_of_still : t.router = s.router := (congrArg State.router h :)
theorem adopt_of_still : t.adopt = s.adopt := (congrArg State.adopt h :)
theorem rules_of_still : t.ctl.rules = s.ctl.rules := (congrArg (fun u => u.ctl.rules) h :)
theorem table_of_still : t.ctl.table = s.ctl.table := (congrArg (fun u => u.ctl.table) h :)
theorem reserve_of_still : t.ctl.reserve = s.ctl.reserve := (congrArg (fun u => u.ctl.reserve) h :)
theorem now_of_still : t.now = s.now := (congrArg State.now h :)
theorem settings_of_still : t.sup.settings = s.sup.settings := (congrArg (fun u => u.sup.settings) h :)
theorem defs_of_still : t.sup.defs = s.sup.defs := (congrArg (fun u => u.sup.defs) h :)
theorem linkDef_of_still (i : Nat) : t.linkDef i = s.linkDef i := (congrArg (fun u => u.linkDef i) h :)

end

/-- A step on link i: every other link is as before, the rest is still, and reports are only added. -/
structure LinkStep (i : Nat) (s t : State) : Prop where
  op : LinkOp i s t
  still : t.still = s.still
  reports : s.mail.reports <+: t.mail.reports

namespace LinkStep

theorem refl (i : Nat) (s : State) : LinkStep i s s := ⟨.refl i s, rfl, List.prefix_rfl⟩

theorem trans {i : Nat} {s t u : State} (h : LinkStep i s t) (h' : LinkStep i t u) : LinkStep i s u :=
  ⟨h.op.trans h'.op, h'.still.trans h.still, h.reports.trans h'.reports⟩

/-- A change of requests alone. -/
theorem of_frame {i : Nat} {s t : State} (hlinks : t.sup.links = s.sup.links) (hstill : t.still = s.still)
    (hreports : t.mail.reports = s.mail.reports) : LinkStep i s t := ⟨.of_links hlinks, hstill, hreports ▸ List.prefix_rfl⟩

theorem ite {i : Nat} {s t u : State} {p : Prop} [Decidable p] (ht : LinkStep i s t) (hu : LinkStep i s u) :
    LinkStep i s (if p then t else u) := by
  split
  · exact ht
  · exact hu

theorem modLink (i : Nat) (f : Link → Link) (s : State) : LinkStep i s (modLink i f s) :=
  ⟨.modLink .., still_of_unlinked (modLink_unlinked ..), modLink_reports_prefix ..⟩

theorem modAux (i : Nat) (f : LinkAux → LinkAux) (s : State) : LinkStep i s (modAux i f s) :=
  ⟨.modAux .., rfl, List.prefix_rfl⟩

theorem report (i : Nat) (o : Owner) (r : JReport) (s : State) : LinkStep i s (report o r s) :=
  ⟨.of_links rfl, rfl, List.prefix_append ..⟩

theorem sendLink (i : Nat) (r : CtlReq) (s : State) : LinkStep i s (sendLink i r s) :=
  ⟨.sendLink .., (congrArg State.still (sendLink_unlinked i r s) :), by rw [sendLink_frame]⟩

theorem sendUpdate (i : Nat) (c : List CarrierChange) (s : State) : LinkStep i s (sendUpdate i c s) :=
  ⟨.sendUpdate .., (congrArg State.still (sendUpdate_unlinked i c s) :), by rw [sendUpdate_reports]⟩

theorem queueForSequence (i : Nat) (k : ControlKind) (s : State) : LinkStep i s (queueForSequence i k s) := by
  rw [queueForSequence_frame]
  exact .of_frame rfl rfl rfl

theorem entryHealth (i : Nat) (s : State) : LinkStep i s (entryHealth i s) := by
  obtain ⟨f, g, h, hf, hg⟩ := entryHealth_cases i s
  have hstep1 : LinkStep i s (f s) := by
    rcases hf with rfl | ⟨d, rfl⟩
    · exact .refl i s
    · exact .modLink ..
  have hstep2 : LinkStep i (f s) (g (f s)) := by
    rcases hg with rfl | ⟨d, rfl⟩
    · exact .refl ..
    · exact .modLink ..
  rw [h]
  exact hstep1.trans hstep2

theorem seekEntries (i : Nat) (o : LinkOrder) (roles : List Role) (s : State) : LinkStep i s (seekEntries i o roles s) :=
  ⟨.seekEntries, (congrArg State.still (seekEntries_unlinked (i := i) (o := o) (roles := roles) (s := s)) :),
    by rw [seekEntries_reports]⟩

theorem beginHold (i : Nat) (reason : HoldReason) (s : State) : LinkStep i s (beginHold i reason s) := by
  rw [beginHold_eq]
  exact (modLink ..).trans (entryHealth ..)

theorem proceedRetune (i : Nat) (kept : Bool) (s : State) : LinkStep i s (proceedRetune i kept s) := by
  cases ho : (s.link i).aux.order with
  | none =>
    have heq : Machine.proceedRetune i kept s = s := by
      unfold Machine.proceedRetune
      dsimp only
      rw [ho]
    rw [heq]
    exact .refl ..
  | some o =>
    rw [proceedRetune_eq kept ho]
    exact (modLink ..).trans (seekEntries ..)

theorem proceedFailover (i : Nat) (kept : Bool) (s : State) : LinkStep i s (proceedFailover i kept s) := by
  rw [proceedFailover_eq]
  exact (modLink ..).trans (sendLink ..)

theorem evaluateFailover (i : Nat) (s : State) : LinkStep i s (evaluateFailover i s) := by
  by_cases h : FailoverDue s i
  · rw [evaluateFailover_due h]
    exact .ite (beginHold ..) (proceedFailover ..)
  · rw [evaluateFailover_idle h]
    exact .refl ..

theorem recheckHold (i : Nat) (s : State) : LinkStep i s (recheckHold i s) := by
  unfold Machine.recheckHold
  dsimp only
  exact .ite (((modLink ..).trans (entryHealth ..)).trans (evaluateFailover ..)) (.refl ..)

theorem healthChangedFrom (before : Option Health × Option Health) (i : Nat) (s : State) :
    LinkStep i s (healthChangedFrom before i s) := by
  rw [healthChangedFrom_eq]
  exact .ite (.refl ..) (.ite (recheckHold ..) (evaluateFailover ..))

theorem proceedFromHold (i : Nat) (kept : Bool) (s : State) : LinkStep i s (proceedFromHold i kept s) := by
  unfold Machine.proceedFromHold
  split
  · exact proceedRetune ..
  · exact .ite (proceedFailover ..) (recheckHold ..)
  · exact .refl ..

theorem recheckTally (i : Nat) (s : State) : LinkStep i s (recheckTally i s) := .ite (proceedFromHold ..) (.refl ..)

theorem holdExpires (i : Nat) (s : State) : LinkStep i s (holdExpires i s) := (report ..).trans (proceedFromHold ..)

theorem goUnmuting (i : Nat) (s : State) : LinkStep i s (goUnmuting i s) := (modLink ..).trans (queueForSequence ..)

theorem learn (i : Nat) (d : LinkDef) (c : ChanReport) (s : State) : LinkStep i s (learn i d c s) :=
  .ite (modLink ..) ((modAux ..).trans (sendLink ..))

theorem takeReport (r : Report) (i : Nat) (d : LinkDef) (s : State) : LinkStep i s (takeReport r i d s) := by
  unfold Machine.takeReport
  dsimp only
  refine .ite ((modLink ..).trans (healthChangedFrom ..)) (.ite (.ite ?_ (.ite ?_ ?_)) (.ite ?_ ?_))
  · exact (modLink ..).trans (modLink ..)
  · exact ((modLink ..).trans (modLink ..)).trans (learn ..)
  · exact modLink ..
  · exact (modLink ..).trans (goUnmuting ..)
  · exact modLink ..

theorem missLink (i : Nat) (s : State) : LinkStep i s (missLink i s) :=
  ((modLink ..).trans (entryHealth ..)).trans (healthChangedFrom ..)

end LinkStep

/-! ### One link among many -/

section
variable {f : State → Nat → State} (hf : ∀ s i, LinkStep i s (f s i))
include hf

theorem foldl_still (l : List Nat) (s : State) : (l.foldl f s).still = s.still := by
  induction l generalizing s with
  | nil => rfl
  | cons j l ih => rw [List.foldl_cons, ih, (hf s j).still]

theorem foldl_length (l : List Nat) (s : State) : (l.foldl f s).sup.links.length = s.sup.links.length := by
  induction l generalizing s with
  | nil => rfl
  | cons j l ih => rw [List.foldl_cons, ih, (hf s j).op.length]

theorem foldl_reports (l : List Nat) (s : State) : s.mail.reports <+: (l.foldl f s).mail.reports := by
  induction l generalizing s with
  | nil => exact List.prefix_rfl
  | cons j l ih => exact (hf s j).reports.trans (ih _)

theorem foldl_link_of_not_mem {l : List Nat} {i : Nat} (hi : i ∉ l) (s : State) : (l.foldl f s).link i = s.link i := by
  induction l generalizing s with
  | nil => rfl
  | cons j l ih =>
    obtain ⟨hij, hil⟩ := not_or.1 (mt List.mem_cons.2 hi)
    rw [List.foldl_cons, ih hil, (hf s j).op.others i hij]

/-- What becomes of a link that the steps take in its turn: the step that takes it found it, and all that is still, as they were at
first. -/
theorem foldl_link_of_mem {l : List Nat} {i : Nat} (hl : l.Nodup) (hi : i ∈ l) (s : State) :
    ∃ u, u.still = s.still ∧ u.link i = s.link i ∧ u.sup.links.length = s.sup.links.length ∧
      (l.foldl f s).link i = (f u i).link i ∧ (f u i).mail.reports <+: (l.foldl f s).mail.reports := by
  induction l generalizing s with
  | nil => cases hi
  | cons j l ih =>
    obtain ⟨hjl, hl⟩ := List.nodup_cons.1 hl
    by_cases hij : i = j
    · subst hij
      exact ⟨s, rfl, rfl, rfl, foldl_link_of_not_mem hf hjl _, foldl_reports hf l _⟩
    · obtain ⟨u, hstill, hlink, hlen, hfold, hreports⟩ := ih hl ((List.mem_cons.1 hi).resolve_left hij) (f s j)
      exact ⟨u, hstill.trans (hf s j).still, hlink.trans ((hf s j).op.others i hij), hlen.trans (hf s j).op.length, hfold, hreports⟩

end

/-- The steps that pass over every link but one. -/
theorem foldl_single {f : State → Nat → State} {l : List Nat} {i : Nat} {s : State} (hl : l.Nodup) (hi : i ∈ l)
    (hf : (f s i).still = s.still) (hpass : ∀ u, u.still = s.still → ∀ j, j ≠ i → f u j = u) : l.foldl f s = f s i := by
  have hnone (u : State) (hu : u.still = s.still) : ∀ l : List Nat, i ∉ l → l.foldl f u = u := by
    intro l hl
    induction l with
    | nil => rfl
    | cons j l ih =>
      obtain ⟨hij, hil⟩ := not_or.1 (mt List.mem_cons.2 hl)
      rw [List.foldl_cons, hpass u hu j (Ne.symm hij), ih hil]
  induction l with
  | nil => cases hi
  | cons j l ih =>
    obtain ⟨hjl, hl⟩ := List.nodup_cons.1 hl
    by_cases hij : i = j
    · subst hij
      exact hnone _ hf l hjl
    · rw [List.foldl_cons, hpass s rfl j (Ne.symm hij)]
      exact ih hl ((List.mem_cons.1 hi).resolve_left hij)

/-! ### A change that no entry shows (R60) -/

/-- What of a record is reported or handed on. -/
def LinkRec.shown (l : LinkRec) :
    LinkState × Option Health × Option Health × (Bool × Bool × Bool) × FailoverBlock × Option HoldReason :=
  (l.state, l.outRec.health, l.inRec.health, (l.untracked, l.unsilenceable, l.retuneNeeded), l.block, l.hold)

/-- A change of a link that shows nothing is told to nobody. -/
theorem modLink_silent {i : Nat} {f : Link → Link} {s : State} (h : (f (s.link i)).vis.shown = (s.linkRec i).shown) :
    modLink i f s = { s with sup := { s.sup with links := put s.sup.links i (f (s.link i)) } } := by
  unfold modLink setLink
  dsimp only
  generalize hnew : (f (s.link i)).vis = new at h
  generalize s.linkRec i = old at h
  simp only [LinkRec.shown, Prod.mk_inj] at h
  obtain ⟨hstate, hout, hin, ⟨hu, hs, hr⟩, hblock, hhold⟩ := h
  have hhealth : new.health = old.health := by unfold LinkRec.health; rw [hstate, hout, hin]
  have hvalue : (new.withHealths old.outRec.health old.inRec.health).value = old.value := by
    simp only [LinkRec.value, LinkRec.health, LinkRec.flags, LinkRec.withHealths, hstate, hu, hs, hr, hblock, hhold]
  have hvalue' : (new.withHealths new.outRec.health old.inRec.health).value = old.value := by rw [hout, hvalue]
  have hvalue'' : new.value = old.value := by
    simp only [LinkRec.value, hhealth, LinkRec.flags, hstate, hu, hs, hr, hblock, hhold, hout, hin]
  have hjournal (s : State) : tellJournal i old new s = s := by
    simp only [tellJournal, linkMoves, List.foldl_cons, List.foldl_nil, hvalue, hvalue', hvalue'', if_true]
  have halarm (s : State) : alarmOn old new s = s := by simp [alarmOn, hhealth, hblock]
  have hviews (s : State) : tellViews i old new s = s := by simp [tellViews, hhealth, hstate]
  rw [hjournal, halarm, hviews]

end Sys2Proof.Machine
end

section
/-! PROOFS. O39: the rating of a role, and what a report does to one link (TABLE 5-5, R67, R76, R89, R92). -/

namespace Sys2Proof.Machine

/-! ### The rating of one role (TABLE 5-5) -/

/-- TABLE 5-5: the health that a role takes, or the counts that it keeps on with. -/
def RoleRec.rating (p : Nat) (g : Grade) (x : RoleRec) : Health ⊕ (Nat × Nat) :=
  match x.health, g with
  | some .good, .lost => .inl .lost
  | some .good, .bad => if p ≤ x.badRun + 1 then .inl .degraded else .inr (x.badRun + 1, 0)
  | some .good, .good => .inr (0, x.goodRun)
  | some .degraded, .lost => .inl .lost
  | some .degraded, .bad => .inr (x.badRun, 0)
  | some .degraded, .good => if p ≤ x.goodRun + 1 then .inl .good else .inr (x.badRun, x.goodRun + 1)
  | some .stale, .lost => .inl .lost
  | some .stale, .bad => .inl .degraded
  | _, .good => .inl .good
  | _, _ => .inl .lost

/-- A role's record with a health, its counts at 0. -/
def RoleRec.settle (now : Timestamp) (h : Health) (x : RoleRec) : RoleRec :=
  { (if x.health = some h then x
      else { x with health := some h, degradedSince := if h = .degraded then some now else none }) with
    badRun := 0, goodRun := 0 }

/-- The record of a rated role. -/
def RoleRec.rate (now : Timestamp) (p : Nat) (g : Grade) (x : RoleRec) : RoleRec :=
  match x.rating p g with
  | .inl h => x.settle now h
  | .inr (a, b) => { x with badRun := a, goodRun := b }

theorem rateRole_eq (s : State) (p : Nat) (r : Role) (g : Grade) (l : Link) : rateRole s p r g l =
    match (l.vis.role r).rating p g with
    | .inl h => l.settle s r (some h)
    | .inr (a, b) => l.setCounts r a b := by
  unfold rateRole RoleRec.rating
  dsimp only
  cases (l.vis.role r).health with
  | none => cases g <;> rfl
  | some h =>
    cases h <;> cases g
    case good.bad =>
      dsimp only
      split <;> rfl
    case degraded.good =>
      dsimp only
      split <;> rfl
    all_goals rfl

theorem settle_vis_role (s : State) (r q : Role) (h : Health) (l : Link) : (l.settle s r (some h)).vis.role q =
    if q = r then (l.vis.role r).settle s.now h else l.vis.role q := by
  unfold Link.settle Link.setHealth Link.setCounts RoleRec.settle
  dsimp only
  by_cases hh : (l.vis.role r).health = some h
  · simp only [if_pos hh, setRole_role]
  · simp only [if_neg hh, setRole_role, Option.some.injEq]
    split <;> rfl

theorem setCounts_vis_role (r q : Role) (a b : Nat) (l : Link) : (l.setCounts r a b).vis.role q =
    if q = r then { l.vis.role r with badRun := a, goodRun := b } else l.vis.role q := setRole_role ..

/-- The rating of a role changes its record alone. -/
theorem rateRole_role (s : State) (p : Nat) (r q : Role) (g : Grade) (l : Link) : (rateRole s p r g l).vis.role q =
    if q = r then (l.vis.role r).rate s.now p g else l.vis.role q := by
  rw [rateRole_eq, RoleRec.rate]
  cases (l.vis.role r).rating p g with
  | inl h => exact settle_vis_role ..
  | inr c => exact setCounts_vis_role ..

/-- TABLE 5-5, of the record of one role. -/
structure RoleRec.RatedBy (now : Timestamp) (p : Nat) (g : Grade) (a b : RoleRec) : Prop where
  present : b.present = a.present
  fresh : b.fresh = a.fresh
  lost : g = .lost → b.health = some .lost ∧ b.badRun = 0 ∧ b.goodRun = 0
  good : a.health = some .good →
    (g = .good → b.health = some .good ∧ b.badRun = 0 ∧ b.goodRun = a.goodRun) ∧
    (g = .bad → (p ≤ a.badRun + 1 → b.health = some .degraded ∧ b.badRun = 0 ∧ b.goodRun = 0) ∧
      (a.badRun + 1 < p → b.health = some .good ∧ b.badRun = a.badRun + 1 ∧ b.goodRun = 0))
  degraded : a.health = some .degraded →
    (g = .bad → b.health = some .degraded ∧ b.badRun = a.badRun ∧ b.goodRun = 0) ∧
    (g = .good → (p ≤ a.goodRun + 1 → b.health = some .good ∧ b.badRun = 0 ∧ b.goodRun = 0) ∧
      (a.goodRun + 1 < p → b.health = some .degraded ∧ b.badRun = a.badRun ∧ b.goodRun = a.goodRun + 1))
  unrated : a.health = some .lost ∨ a.health = none →
    (g = .bad → b.health = some .lost ∧ b.badRun = 0 ∧ b.goodRun = 0) ∧
    (g = .good → b.health = some .good ∧ b.badRun = 0 ∧ b.goodRun = 0)
  stale : a.health = some .stale →
    (g = .bad → b.health = some .degraded ∧ b.badRun = 0 ∧ b.goodRun = 0) ∧
    (g = .good → b.health = some .good ∧ b.badRun = 0 ∧ b.goodRun = 0)
  since : b.degradedSince =
    if b.health = some .degraded then (if a.health = some .degraded then a.degradedSince else some now)
    else if a.health = b.health then a.degradedSince else none

theorem settle_health (now : Timestamp) (h : Health) (x : RoleRec) :
    (x.settle now h).health = some h ∧ (x.settle now h).badRun = 0 ∧ (x.settle now h).goodRun = 0 := by
  unfold RoleRec.settle
  split
  · next hh => exact ⟨hh, rfl, rfl⟩
  · exact ⟨rfl, rfl, rfl⟩

theorem ratedBy_rate (now : Timestamp) (p : Nat) (g : Grade) (a : RoleRec) : a.RatedBy now p g (a.rate now p g) := by
  have hs (h : Health) := settle_health now h a
  refine ⟨?present, ?fresh, fun hg => ?lost, fun ha => ⟨fun hg => ?goodGood, fun hg => ⟨fun hp => ?goodBad, fun hp => ?goodKept⟩⟩,
    fun ha => ⟨fun hg => ?degradedBad, fun hg => ⟨fun hp => ?degradedGood, fun hp => ?degradedKept⟩⟩,
    fun ha => ⟨fun hg => ?lostBad, fun hg => ?lostGood⟩, fun ha => ⟨fun hg => ?staleBad, fun hg => ?staleGood⟩, ?since⟩
  case present =>
    unfold RoleRec.rate RoleRec.settle
    split
    · dsimp only
      split <;> rfl
    · rfl
  case fresh =>
    unfold RoleRec.rate RoleRec.settle
    split
    · dsimp only
      split <;> rfl
    · rfl
  case lost =>
    have hr : a.rating p g = .inl .lost := by
      subst hg
      unfold RoleRec.rating
      cases a.health with
      | none => rfl
      | some h => cases h <;> rfl
    rw [RoleRec.rate, hr]
    exact hs .lost
  case goodGood =>
    have hr : a.rating p g = .inr (0, a.goodRun) := by (unfold RoleRec.rating; rw [ha, hg])
    rw [RoleRec.rate, hr]
    exact ⟨ha, rfl, rfl⟩
  case goodBad =>
    have hr : a.rating p g = .inl .degraded := by (unfold RoleRec.rating; rw [ha, hg]); exact if_pos hp
    rw [RoleRec.rate, hr]
    exact hs .degraded
  case goodKept =>
    have hr : a.rating p g = .inr (a.badRun + 1, 0) := by (unfold RoleRec.rating; rw [ha, hg]); exact if_neg (not_le.2 hp)
    rw [RoleRec.rate, hr]
    exact ⟨ha, rfl, rfl⟩
  case degradedBad =>
    have hr : a.rating p g = .inr (a.badRun, 0) := by (unfold RoleRec.rating; rw [ha, hg])
    rw [RoleRec.rate, hr]
    exact ⟨ha, rfl, rfl⟩
  case degradedGood =>
    have hr : a.rating p g = .inl .good := by (unfold RoleRec.rating; rw [ha, hg]); exact if_pos hp
    rw [RoleRec.rate, hr]
    exact hs .good
  case degradedKept =>
    have hr : a.rating p g = .inr (a.badRun, a.goodRun + 1) := by (unfold RoleRec.rating; rw [ha, hg]); exact if_neg (not_le.2 hp)
    rw [RoleRec.rate, hr]
    exact ⟨ha, rfl, rfl⟩
  case lostBad =>
    have hr : a.rating p g = .inl .lost := by rcases ha with ha | ha <;> (unfold RoleRec.rating; rw [ha, hg])
    rw [RoleRec.rate, hr]
    exact hs .lost
  case lostGood =>
    have hr : a.rating p g = .inl .good := by rcases ha with ha | ha <;> (unfold RoleRec.rating; rw [ha, hg])
    rw [RoleRec.rate, hr]
    exact hs .good
  case staleBad =>
    have hr : a.rating p g = .inl .degraded := by (unfold RoleRec.rating; rw [ha, hg])
    rw [RoleRec.rate, hr]
    exact hs .degraded
  case staleGood =>
    have hr : a.rating p g = .inl .good := by (unfold RoleRec.rating; rw [ha, hg])
    rw [RoleRec.rate, hr]
    exact hs .good
  case since =>
    unfold RoleRec.rate
    split
    · next h _ =>
      rw [(hs h).1]
      unfold RoleRec.settle
      by_cases hh : a.health = some h
      · rw [if_pos hh, hh]
        split <;> simp
      · by_cases hd : h = .degraded
        · subst hd
          simp [hh]
        · simp [hh, hd]
    · dsimp only
      split <;> simp

/-- The grade of a report (R92). -/
theorem gradeOf_lost (k : ClassDef) (c : Option Nat) (r : RoleReport) : gradeOf k c r = .lost ↔ r.on = false ∨ r.level = -120 := by
  unfold gradeOf
  by_cases h : (!r.on || r.level = -120) = true
  · rw [if_pos h]
    simpa using h
  · rw [if_neg h]
    have h' : ¬(r.on = false ∨ r.level = -120) := by simpa using h
    simp only [h', iff_false]
    split <;> decide

theorem gradeOf_bad (k : ClassDef) (c : Option Nat) (r : RoleReport) : gradeOf k c r = .bad ↔
    ¬(r.on = false ∨ r.level = -120) ∧ (r.level < k.floor ∨ k.ceiling < r.quality ∨ ∃ n, c = some n ∧ n ≠ r.code) := by
  rw [← gradeOf_lost k c r]
  unfold gradeOf
  split
  · simp
  · have hcode : (r.level < k.floor || k.ceiling < r.quality || c.any (fun c => c ≠ r.code)) = true ↔
        (r.level < k.floor ∨ k.ceiling < r.quality ∨ ∃ n, c = some n ∧ n ≠ r.code) := by
      simp [Option.any_eq_true, or_assoc]
    split
    · next h => simpa using hcode.1 h
    · next h => simpa using mt hcode.2 h

/-! ### The rating of a link (R92, R93) -/

/-- A change of the roles of a list, each by itself, seen at one role. -/
theorem foldl_role {f : Link → Role → Link} {g : Role → RoleRec → RoleRec}
    (h : ∀ l r q, (f l r).vis.role q = if q = r then g r (l.vis.role r) else l.vis.role q) :
    ∀ (roles : List Role) (l : Link) (q : Role), roles.Nodup →
      (roles.foldl f l).vis.role q = if q ∈ roles then g q (l.vis.role q) else l.vis.role q
  | [], l, q, _ => rfl
  | r :: roles, l, q, hn => by
    obtain ⟨hr, hn⟩ := List.nodup_cons.1 hn
    rw [List.foldl_cons, foldl_role h roles _ q hn, h]
    by_cases hq : q = r
    · subst hq
      rw [if_neg hr, if_pos rfl, if_pos List.mem_cons_self]
    · rw [if_neg hq]
      simp only [List.mem_cons, hq, false_or]

/-- What a report makes of a role's record. -/
def RoleRec.reported (s : State) (d : LinkDef) (c : ChanReport) (r : Role) (x : RoleRec) : RoleRec :=
  match d.role r with
  | none => x
  | some e => x.rate s.now s.sup.settings.persistence (gradeOf (s.ctl.rules.cls e.cls) x.present (c.role r))

theorem rateLink_role (s : State) (d : LinkDef) (c : ChanReport) (l : Link) (r : Role) :
    (rateLink s d c l).vis.role r = (l.vis.role r).reported s d c r := by
  unfold rateLink
  rw [foldl_role (g := fun r x => x.reported s d c r) (fun l r q => ?_) _ _ _ (declared_nodup d)]
  · split
    · rfl
    · next h =>
      have hnone : d.role r = none := by simpa [mem_declared] using h
      rw [RoleRec.reported, hnone]
  · unfold RoleRec.reported
    cases d.role r with
    | none =>
      dsimp only
      split
      · next h => rw [h]
      · rfl
    | some e => exact rateRole_role ..

/-! ### A report taken for one link (R67, R76, R89, R91) -/

section
variable (r : Report) {i : Nat} {d : LinkDef} {s : State}

/-- In ACTIVE and HOLDING each role is rated, and a change evaluated. -/
theorem takeReport_rated (h : (s.linkRec i).rated = true) : takeReport r i d s =
    healthChangedFrom (roleHealths s i) i (modLink i (fun l => rateLink s d (r.channel d.chan) (l.visit s)) s) := if_pos h

theorem takeReport_learning (h : (s.linkRec i).state = .learning) : takeReport r i d s =
    if (s.linkRec i).learning = 0 then
      modLink i (fun l => { l with vis := { l.vis with learning := 1 } }) (modLink i (Link.visit s) s)
    else if (s.linkRec i).learning = 1 then
      learn i d (r.channel d.chan)
        (modLink i (fun l => { l with vis := { l.vis with learning := 2 } }) (modLink i (Link.visit s) s))
    else modLink i (Link.visit s) s := by
  unfold takeReport
  dsimp only
  rw [if_neg (by simp [LinkRec.rated, h]), if_pos h]

/-- Elsewhere a visit, and in SETTLING the UNMUTE once every role is settled. -/
theorem takeReport_other (h : (s.linkRec i).state ∉ [LinkState.active, .holding, .learning]) : takeReport r i d s =
    if (s.linkRec i).phase = .settling ∧ settled (s.linkRec i) (r.channel d.chan) = true then
      goUnmuting i (modLink i (Link.visit s) s)
    else modLink i (Link.visit s) s := by
  simp only [List.mem_cons, List.not_mem_nil, or_false, not_or] at h
  obtain ⟨hactive, hholding, hlearning⟩ := h
  unfold takeReport
  dsimp only
  rw [if_neg (by simp [LinkRec.rated, hactive, hholding]), if_neg hlearning]
  exact if_congr (by simp) rfl rfl

theorem settled_iff (l : LinkRec) (c : ChanReport) : settled l c = true ↔
    ∀ x, l.inSequence x = true → (c.role x).settled = true ∧ (l.role x).fresh = some (c.role x).code := by
  simp [settled, mem_bothRoles, imp_iff_or_not, or_comm]

/-- A visit shows nothing. -/
theorem modLink_visit : modLink i (Link.visit s) s =
    { s with sup := { s.sup with links := put s.sup.links i ((s.link i).visit s) } } := modLink_silent rfl

end

end Sys2Proof.Machine
end

section
/-! PROOFS. O39: reports, misses and tally changes at the link supervisor (R67, R71, R76, R89, R91 to R95, TABLE 5-5). -/

namespace Sys2Proof.Machine

/-! ### Evaluations that do nothing -/

/-- A link whose health brings no evaluation: ACTIVE where failover does not apply, or held for its order. -/
def Unmoved (d : LinkDef) (l : LinkRec) : Prop :=
  (l.state = .active ∧ (d.auto = false ∨ d.outRole = none)) ∨ (l.state = .holding ∧ l.hold = some .order)

theorem failoverWanted_of_not_failsOver {s : State} {i : Nat} {d : LinkDef} (hd : s.linkDef i = some d)
    (h : d.auto = false ∨ d.outRole = none) : failoverWanted s i = false := by
  refine Bool.eq_false_of_not_eq_true fun hwanted => ?_
  obtain ⟨r, hr⟩ := (failoverWanted_iff s i).1 hwanted
  obtain ⟨hauto, hout, -⟩ := (mem_failingRoles hd r).1 hr
  rcases h with h | h
  · exact Bool.false_ne_true (h.symm.trans hauto)
  · rw [h] at hout
    cases hout

theorem healthChangedFrom_unmoved {s : State} {i : Nat} {d : LinkDef} (hd : s.linkDef i = some d)
    (h : Unmoved d (s.linkRec i)) (before : Option Health × Option Health) : healthChangedFrom before i s = s := by
  rw [healthChangedFrom_eq]
  split
  · rfl
  · rcases h with ⟨hst, hauto⟩ | ⟨hst, hhold⟩
    · rw [if_neg (by rw [hst]; decide)]
      refine evaluateFailover_idle fun ⟨_, _, _, hwanted, _⟩ => ?_
      exact Bool.false_ne_true ((failoverWanted_of_not_failsOver hd hauto).symm.trans hwanted)
    · rw [if_pos hst]
      refine recheckHold_idle fun ⟨_, hh, _⟩ => ?_
      have hboth := hhold.symm.trans hh
      cases hboth

theorem unmoved_rated {d : LinkDef} {l : LinkRec} (h : Unmoved d l) : l.rated = true :=
  (rated_iff l).2 (h.imp And.left And.left)

/-! ### A report, for the links of its unit -/

/-- What a REPORT does to link j. -/
def reportOne (r : Report) (s : State) (j : Nat) : State :=
  match s.linkDef j with
  | some d => if d.unit = r.unit then takeReport r j d s else s
  | none => s

theorem linkStep_reportOne (r : Report) (s : State) (j : Nat) : LinkStep j s (reportOne r s j) := by
  unfold reportOne
  split
  · exact .ite (.takeReport ..) (.refl ..)
  · exact .refl ..

theorem reportStep_eq {s : State} {r : Report} {rest : List Report} (hq : s.mail.supervisorReports = r :: rest) :
    reportToLinkSupervisorStep s = (List.range 96).foldl (reportOne r) { s with mail.supervisorReports := rest } := by
  unfold reportToLinkSupervisorStep
  rw [hq]
  rfl

theorem reportOne_on {r : Report} {s : State} {i : Nat} {d : LinkDef} (hd : s.linkDef i = some d) (hu : r.unit = d.unit) :
    reportOne r s i = takeReport r i d s := by
  unfold reportOne
  rw [hd]
  exact if_pos hu.symm

theorem reportOne_off {r : Report} {s : State} {j : Nat} (h : ∀ e, s.linkDef j = some e → e.unit ≠ r.unit) :
    reportOne r s j = s := by
  unfold reportOne
  split
  · next d hd => exact if_neg (h d hd)
  · rfl

/-- A report of a unit with one link. -/
theorem reportStep_single {s : State} {r : Report} {rest : List Report} {i : Nat} {d : LinkDef}
    (hq : s.mail.supervisorReports = r :: rest) (hi : i < 96) (hd : s.linkDef i = some d) (hu : r.unit = d.unit)
    (hone : ∀ j e, j ≠ i → s.linkDef j = some e → e.unit ≠ d.unit) :
    reportToLinkSupervisorStep s = takeReport r i d { s with mail.supervisorReports := rest } := by
  rw [reportStep_eq hq, foldl_single (i := i) List.nodup_range (List.mem_range.2 hi) (linkStep_reportOne ..).still]
  · exact reportOne_on hd hu
  · intro v hv j hj
    refine reportOne_off fun e he => ?_
    rw [hu]
    exact hone j e hj ((linkDef_of_still hv j).symm.trans he)

/-! ### One link of the unit -/

section
variable {s v : State}

theorem visit_of_still (h : v.still = s.still) (l : Link) : l.visit v = l.visit s := by
  unfold Link.visit
  rw [now_of_still h, tb_of_still h]

theorem reported_of_still (h : v.still = s.still) (d : LinkDef) (c : ChanReport) (r : Role) (x : RoleRec) :
    x.reported v d c r = x.reported s d c r := by
  unfold RoleRec.reported
  rw [now_of_still h, settings_of_still h, rules_of_still h]

variable {i : Nat} {d : LinkDef} (r : Report)

/-- A rated link after a report, before any evaluation. -/
def rateReport (r : Report) (i : Nat) (d : LinkDef) (s : State) : State :=
  modLink i (fun l => rateLink s d (r.channel d.chan) (l.visit s)) s

theorem takeReport_rated_eq (h : (s.linkRec i).rated = true) :
    takeReport r i d s = healthChangedFrom (roleHealths s i) i (rateReport r i d s) := takeReport_rated r h

/-- What a report makes of a rated link. -/
structure Rated (r : Report) (i : Nat) (d : LinkDef) (s t : State) : Prop where
  unrated : (t.link i).unrated = ((s.link i).visit s).unrated
  role : ∀ x, (t.linkRec i).role x = ((s.linkRec i).role x).reported s d (r.channel d.chan) x

theorem rated_rateReport (hi : i < s.sup.links.length) : Rated r i d s (rateReport r i d s) := by
  have hlink := link_modLink_self hi fun l => rateLink s d (r.channel d.chan) (l.visit s)
  refine ⟨?_, fun x => ?_⟩
  · rw [rateReport, hlink, rateLink_unrated]
  · rw [rateReport, State.linkRec, hlink, rateLink_role]
    cases x <;> rfl

theorem takeReport_unmoved (hi : i < s.sup.links.length) (hd : s.linkDef i = some d) (h : Unmoved d (s.linkRec i)) :
    takeReport r i d s = rateReport r i d s := by
  rw [takeReport_rated_eq r (unmoved_rated h)]
  have hrated := (rated_rateReport r (d := d) hi).unrated
  refine healthChangedFrom_unmoved (s := rateReport r i d s) ((linkDef_of_unlinked (modLink_unlinked ..) i).trans hd) ?_ _
  have hstate : ((rateReport r i d s).linkRec i).state = (s.linkRec i).state := (state_of_unrated hrated :)
  have hhold : ((rateReport r i d s).linkRec i).hold = (s.linkRec i).hold := (hold_of_unrated hrated :)
  unfold Unmoved
  rw [hstate, hhold]
  exact h

/-- A declared role, as TABLE 5-5 rates it on the visited link. -/
theorem reported_eq {x : Role} {e : RoleDef} (he : d.role x = some e) (c : ChanReport) (l : Link) :
    (l.vis.role x).reported s d c x = (rateRole s s.sup.settings.persistence x
      (gradeOf (s.ctl.rules.cls e.cls) (l.vis.role x).present (c.role x)) (l.visit s)).vis.role x := by
  rw [rateRole_role, if_pos rfl, RoleRec.reported, he]
  cases x <;> rfl

theorem takeReport_idle (hst : (s.linkRec i).state ∉ [LinkState.active, .holding, .learning])
    (hp : (s.linkRec i).phase ≠ .settling) : takeReport r i d s = modLink i (Link.visit s) s :=
  (takeReport_other r hst).trans (if_neg fun h => hp h.1)

/-- Every role is settled: UNMUTING, and the UNMUTE. -/
theorem goUnmuting_visited (hi : i < s.sup.links.length) (hd : s.linkDef i = some d) :
    let t := goUnmuting i (modLink i (Link.visit s) s)
    LinkOp i s t ∧ (t.linkRec i).state = (s.linkRec i).state ∧ (t.linkRec i).phase = .unmuting ∧ (t.link i).aux.settleAt = none ∧
      ∃ x ∈ t.ul.controlQ, x.link = i ∧ x.kind = .unmute ∧ x.seq = (s.link i).aux.seq ∧
        x.roleOut = (s.linkRec i).seqOut ∧ x.roleIn = (s.linkRec i).seqIn := by
  intro t
  obtain ⟨u, hu⟩ : ∃ u, u = modLink i (fun l => { vis := { l.vis with phase := .unmuting }
                                                  aux := { l.aux with settleAt := none, pollAt := none } })
      (modLink i (Link.visit s) s) := ⟨_, rfl⟩
  have hop1 := LinkOp.modLink i (Link.visit s) s
  have hop : LinkOp i s u := by
    rw [hu]
    exact hop1.trans (.modLink ..)
  have hlink : u.link i = { vis := { ((s.link i).visit s).vis with phase := .unmuting }
                            aux := { ((s.link i).visit s).aux with settleAt := none, pollAt := none } } := by
    rw [hu, link_modLink_self (hop1.lt hi), link_modLink_self hi]
  have hunlinked : u.unlinked = s.unlinked := by rw [hu, modLink_unlinked, modLink_unlinked]
  have ht : t = queueForSequence i .unmute u := by rw [hu]; rfl
  have htlink : t.link i = u.link i := by rw [ht, queueForSequence_link]
  have hmem := mem_queueForSequence ((linkDef_of_unlinked hunlinked i).trans hd) .unmute
  rw [← ht] at hmem
  refine ⟨hop.trans (.of_links ?_), ?_, ?_, ?_, _, hmem, rfl, rfl, ?_, ?_, ?_⟩
  · rw [ht, queueForSequence_frame]
  · rw [State.linkRec, htlink, hlink]
    rfl
  · rw [State.linkRec, htlink, hlink]
  · rw [htlink, hlink]
  · rw [controlReq, hlink]
    rfl
  · rw [controlReq, State.linkRec, hlink]
    rfl
  · rw [controlReq, State.linkRec, hlink]
    rfl

/-- The LEARN of the roles that are on. -/
def learnOf (i seq : Nat) (d : LinkDef) (c : ChanReport) : CtlReq :=
  .learn i seq d.zone (d.declared.filterMap fun x =>
    if (c.role x).on = true then (d.role x).map fun e => (x, (c.role x).code, e.cls) else none)

/-- A link visited a second time in LEARNING, its LEARN outstanding. -/
def Link.learnSent (s : State) (l : Link) : Link :=
  { vis := { (l.visit s).vis with learning := 2 }
    aux := { (l.visit s).aux with seq := l.aux.seq + 1, outstanding := true } }

/-- The second REPORT with a role on. -/
theorem takeReport_learns (hi : i < s.sup.links.length) (hst : (s.linkRec i).state = .learning)
    (hn : (s.linkRec i).learning = 1) (hon : ∃ x ∈ d.declared, ((r.channel d.chan).role x).on = true)
    (hopen : (s.link i).open) : takeReport r i d s = { s with
      sup := { s.sup with links := put s.sup.links i ((s.link i).learnSent s) }
      ctl.queue := s.ctl.queue ++ [learnOf i ((s.link i).aux.seq + 1) d (r.channel d.chan)] } := by
  obtain ⟨u, hu⟩ : ∃ u, u = modLink i (fun l => { l with vis := { l.vis with learning := 2 } })
      (modLink i (Link.visit s) s) := ⟨_, rfl⟩
  have hvisit : (modLink i (Link.visit s) s).link i = (s.link i).visit s := link_modLink_self hi _
  obtain ⟨l, hl⟩ : ∃ l, l = ({ (s.link i).visit s with vis := { ((s.link i).visit s).vis with learning := 2 } } : Link) := ⟨_, rfl⟩
  have hueq : u = { s with sup := { s.sup with links := put s.sup.links i l } } := by
    rw [hu, modLink_silent rfl, hvisit, modLink_visit]
    dsimp only
    rw [put, put, put, List.set_set, hl]
  have hsome : d.declared.filter (fun x => ((r.channel d.chan).role x).on) ≠ [] := by
    obtain ⟨x, hx, hxon⟩ := hon
    exact List.ne_nil_of_mem (List.mem_filter.2 ⟨hx, hxon⟩)
  have hlen : i < u.sup.links.length := by
    rw [hueq]
    exact hi.trans_eq (List.length_set ..).symm
  have hulink : u.link i = l := by
    rw [hueq]
    exact (put_getD ..).trans (if_pos ⟨rfl, hi⟩)
  have hlink : (modAux i (fun a => { a with seq := a.seq + 1 }) u).link i =
      { u.link i with aux := { (u.link i).aux with seq := (u.link i).aux.seq + 1 } } := link_modAux_self hlen _
  have hopen' : ((modAux i (fun a => { a with seq := a.seq + 1 }) u).link i).open := by
    rw [hlink, hulink, hl]
    exact hopen
  have hroles : (d.declared.filter fun x => ((r.channel d.chan).role x).on).filterMap
      (fun x => (d.role x).map fun e => (x, ((r.channel d.chan).role x).code, e.cls)) =
      d.declared.filterMap fun x => if ((r.channel d.chan).role x).on = true then
        (d.role x).map fun e => (x, ((r.channel d.chan).role x).code, e.cls) else none := List.filterMap_filter ..
  rw [takeReport_learning r hst, if_neg (by rw [hn]; decide), if_pos hn, ← hu, learn]
  dsimp only
  rw [if_neg hsome, sendLink_open hopen', hroles, hlink, hulink, modAux_eq, modAux_eq, hueq]
  dsimp only
  rw [auxAt_put _ hi, auxAt_put _ hi, hl]
  rfl

/-- The second REPORT with no role on. -/
theorem takeReport_parks (hi : i < s.sup.links.length) (hst : (s.linkRec i).state = .learning)
    (hn : (s.linkRec i).learning = 1) (hoff : ∀ x ∈ d.declared, ((r.channel d.chan).role x).on = false) :
    ((takeReport r i d s).linkRec i).state = .parked ∧ ((takeReport r i d s).linkRec i).learning = 0 ∧
      (takeReport r i d s).ctl = s.ctl := by
  have hnone : d.declared.filter (fun x => ((r.channel d.chan).role x).on) = [] := by
    refine List.filter_eq_nil_iff.2 fun x hx => ?_
    rw [hoff x hx]
    exact Bool.false_ne_true
  have hop := (LinkOp.modLink i (Link.visit s) s).trans
    (.modLink i (fun l => { l with vis := { l.vis with learning := 2 } }) _)
  rw [takeReport_learning r hst, if_neg (by rw [hn]; decide), if_pos hn, learn]
  dsimp only
  rw [if_pos hnone, State.linkRec, link_modLink_self (hop.lt hi)]
  refine ⟨rfl, rfl, ?_⟩
  exact ctl_of_unlinked ((modLink_unlinked ..).trans ((modLink_unlinked ..).trans (modLink_unlinked ..)))

end

end Sys2Proof.Machine
end

section
/-! PROOFS. O39: misses and tally changes, and the statement (R71, R89, R94). -/

namespace Sys2Proof.Machine

/-! ### A miss (R89, R94) -/

/-- What a POLL_MISS of unit u does to link j. -/
def missOne (u : Nat) (s : State) (j : Nat) : State := if (s.linkDef j).any (fun d => d.unit = u) then missLink j s else s

theorem missStep_single {s : State} {u i : Nat} {rest : List Nat} {d : LinkDef} (hq : s.mail.missedUnits = u :: rest) (hi : i < 96)
    (hd : s.linkDef i = some d) (hu : d.unit = u) (hone : ∀ j e, j ≠ i → s.linkDef j = some e → e.unit ≠ u) :
    pollMissStep s = missLink i { s with mail.missedUnits := rest } := by
  have hon : missOne u { s with mail.missedUnits := rest } i = missLink i { s with mail.missedUnits := rest } := by
    have hd' : ({ s with mail.missedUnits := rest } : State).linkDef i = some d := hd
    unfold missOne
    rw [hd']
    exact if_pos (decide_eq_true hu)
  have hstep : pollMissStep s = (List.range 96).foldl (missOne u) { s with mail.missedUnits := rest } := by
    unfold pollMissStep
    rw [hq]
    rfl
  rw [hstep, foldl_single (i := i) List.nodup_range (List.mem_range.2 hi)]
  · exact hon
  · rw [hon]
    exact (LinkStep.missLink ..).still
  · intro v hv j hj
    have hdef : v.linkDef j = s.linkDef j := linkDef_of_still hv j
    refine if_neg fun h => ?_
    rw [hdef, Option.any_eq_true] at h
    obtain ⟨e, he, hunit⟩ := h
    exact hone j e hj he (of_decide_eq_true hunit)

/-- A link with one miss more, before any evaluation. -/
def missed (i : Nat) (s : State) : State :=
  entryHealth i (modLink i (fun l => { l with vis := { l.vis with misses := min 255 (l.vis.misses + 1) } }) s)

theorem missLink_eq (i : Nat) (s : State) : missLink i s = healthChangedFrom (roleHealths s i) i (missed i s) := rfl

/-- What a miss makes of a link. -/
structure Missed (i : Nat) (d : LinkDef) (s t : State) : Prop where
  op : LinkOp i s t
  unlinked : t.unlinked = s.unlinked
  state : (t.linkRec i).state = (s.linkRec i).state
  hold : (t.linkRec i).hold = (s.linkRec i).hold
  misses : (t.linkRec i).misses = min 255 ((s.linkRec i).misses + 1)
  health : ∀ r, ((t.linkRec i).role r).health =
    if d.role r = none ∨ ((s.linkRec i).state ≠ .active ∧ (s.linkRec i).state ≠ .holding) then ((s.linkRec i).role r).health
    else if s.sup.settings.missLimit ≤ min 255 ((s.linkRec i).misses + 1) then some .lost
    else if (s.link i).aux.staleExpired = true ∧
      (((s.linkRec i).role r).health = some .good ∨ ((s.linkRec i).role r).health = some .degraded) then some .stale
    else ((s.linkRec i).role r).health

theorem missed_missed {i : Nat} {d : LinkDef} {s : State} (hi : i < s.sup.links.length) (hd : s.linkDef i = some d) :
    Missed i d s (missed i s) := by
  obtain ⟨u, hu⟩ : ∃ u, u = modLink i (fun l => { l with vis := { l.vis with misses := min 255 (l.vis.misses + 1) } }) s := ⟨_, rfl⟩
  have hop : LinkOp i s u := by
    rw [hu]
    exact .modLink ..
  have hlink : u.link i = { s.link i with vis := { s.linkRec i with misses := min 255 ((s.linkRec i).misses + 1) } } := by
    rw [hu, link_modLink_self hi]
    rfl
  have hunlinked : u.unlinked = s.unlinked := by rw [hu, modLink_unlinked]
  have hmissed : missed i s = entryHealth i u := by rw [hu]; rfl
  have hrec : u.linkRec i = { s.linkRec i with misses := min 255 ((s.linkRec i).misses + 1) } := by rw [State.linkRec, hlink]
  have hrole (r : Role) : (u.linkRec i).role r = (s.linkRec i).role r := by rw [hrec]; cases r <;> rfl
  have ht := link_entryHealth i i u
  rw [hlink] at ht
  rw [hmissed]
  refine ⟨hop.trans (.entryHealth ..), (entryHealth_unlinked ..).trans hunlinked, (state_of_unrated ht :), (hold_of_unrated ht :),
    (misses_of_unrated ht :), fun r => ?_⟩
  by_cases hrated : (s.linkRec i).rated = true
  · have hrated' : (u.linkRec i).rated = true := by rw [hrec]; exact hrated
    have hstate : ¬((s.linkRec i).state ≠ .active ∧ (s.linkRec i).state ≠ .holding) := by
      rw [rated_iff] at hrated
      tauto
    rw [entryHealth_health (hop.lt hi) ((linkDef_of_unlinked hunlinked i).trans hd) hrated' r, hrole, settings_of_unlinked hunlinked,
      hrec, hlink]
    simp only [hstate, or_false, stale]
    by_cases hrole : d.role r = none
    · rw [if_pos hrole, if_pos hrole]
    · rw [if_neg hrole, if_neg hrole]
      refine if_congr Iff.rfl rfl ?_
      by_cases hex : (s.link i).aux.staleExpired = true
      · simp only [hex, if_true, true_and]
      · simp only [hex, if_false, false_and, Bool.false_eq_true]
  · have hstate : (s.linkRec i).state ≠ .active ∧ (s.linkRec i).state ≠ .holding := by
      rw [rated_iff] at hrated
      tauto
    rw [entryHealth_unrated_state (by rw [hrec]; exact Bool.eq_false_of_not_eq_true hrated), if_pos (.inr hstate), hrole]

/-! ### A tally change (R71) -/

/-- What a tally change of camera c does to link j. -/
def tallyOne (c : Nat) (s : State) (j : Nat) : State :=
  if (s.linkDef j).any (fun d => d.camera = c) then recheckTally j s else s

theorem tallyStep_single {s : State} {c i : Nat} {rest : List Nat} {d : LinkDef} (hq : s.mail.tallyChanges = c :: rest) (hi : i < 96)
    (hd : s.linkDef i = some d) (hc : d.camera = c) (hone : ∀ j e, j ≠ i → s.linkDef j = some e → e.camera ≠ c) :
    tallyChangeToSupervisorStep s = recheckTally i { s with mail.tallyChanges := rest } := by
  have hon : tallyOne c { s with mail.tallyChanges := rest } i = recheckTally i { s with mail.tallyChanges := rest } := by
    have hd' : ({ s with mail.tallyChanges := rest } : State).linkDef i = some d := hd
    unfold tallyOne
    rw [hd']
    exact if_pos (decide_eq_true hc)
  have hstep : tallyChangeToSupervisorStep s = (List.range 96).foldl (tallyOne c) { s with mail.tallyChanges := rest } := by
    unfold tallyChangeToSupervisorStep
    rw [hq]
    rfl
  rw [hstep, foldl_single (i := i) List.nodup_range (List.mem_range.2 hi)]
  · exact hon
  · rw [hon]
    exact (LinkStep.recheckTally ..).still
  · intro v hv j hj
    have hdef : v.linkDef j = s.linkDef j := linkDef_of_still hv j
    refine if_neg fun h => ?_
    rw [hdef, Option.any_eq_true] at h
    obtain ⟨e, he, hcam⟩ := h
    exact hone j e hj he (of_decide_eq_true hcam)

section
variable {s : State} {i : Nat}

/-- While the camera shows programme, the hold stays. -/
theorem recheckTally_shown (hp : s.linkOnProgramme i = true) : recheckTally i s = s := by
  unfold recheckTally
  rw [hp]
  exact if_neg (by simp)

/-- Once it shows none, the hold ends. -/
theorem recheckTally_unshown (hst : (s.linkRec i).state = .holding) (hp : s.linkOnProgramme i = false) :
    recheckTally i s = proceedFromHold i false s := by
  unfold recheckTally
  rw [hst, hp]
  rfl

theorem proceedFromHold_order (kept : Bool) (hh : (s.linkRec i).hold = some .order) :
    proceedFromHold i kept s = proceedRetune i kept s := by
  unfold proceedFromHold
  rw [hh]

theorem proceedFromHold_failover (kept : Bool) (hh : (s.linkRec i).hold = some .failover) : proceedFromHold i kept s =
    if failoverWanted s i then proceedFailover i kept s else recheckHold i s := by
  unfold proceedFromHold
  rw [hh]

end

/-! ### The statement -/

/-- The reports of a unit with several links. -/
theorem reports_all {s : State} {i : Nat} {d : LinkDef} {r : Report} {rest : List Report} (h96 : i < 96)
    (hi : i < s.sup.links.length) (hd : s.linkDef i = some d) (hq : s.mail.supervisorReports = r :: rest) (hu : r.unit = d.unit) :
    ∃ v, v.still = ({ s with mail.supervisorReports := rest } : State).still ∧ v.link i = s.link i ∧ i < v.sup.links.length ∧
      v.linkDef i = some d ∧ (reportToLinkSupervisorStep s).link i = (takeReport r i d v).link i := by
  obtain ⟨v, hv, hlink, hlen, hfold, -⟩ := foldl_link_of_mem (linkStep_reportOne r) List.nodup_range (List.mem_range.2 h96)
    { s with mail.supervisorReports := rest }
  have hdef : v.linkDef i = some d := (linkDef_of_still hv i).trans hd
  refine ⟨v, hv, hlink, hi.trans_eq hlen.symm, hdef, ?_⟩
  rw [reportStep_eq hq, hfold, reportOne_on hdef hu]

/-- Settles O39. -/
theorem reportsMissesAndTally : Obligations.ReportsMissesAndTally := by
  intro s i d h96 hi hd l visited
  refine ⟨fun r rest hq hu => ?reports, fun r rest hq hu hone => ?single, fun u rest hq hu hone => ?miss,
    fun c rest o hq hc hone hst hh ho => ?order, fun c rest hq hc hone hst hh => ?failover, fun p x g l => ?table, fun k c r =>
      ⟨gradeOf_lost k c r, gradeOf_bad k c r⟩⟩
  case reports =>
    obtain ⟨v, hv, hlink, hlen, hdef, hstep⟩ := reports_all h96 hi hd hq hu
    have hrec : v.linkRec i = l.vis := congrArg Link.vis hlink
    have hvisit (m : Link) : m.visit v = m.visit s := visit_of_still hv m
    have hstill : (reportToLinkSupervisorStep s).still = ({ s with mail.supervisorReports := rest } : State).still := by
      rw [reportStep_eq hq]
      exact foldl_still (linkStep_reportOne r) ..
    refine ⟨reportToLinkSupervisorStep s, rfl, (congrArg (fun t => t.mail.supervisorReports) hstill :), fun j hj => ?others,
      fun hst hp => ?idle, fun hst hn => ?first, fun hun => ?unmoved,
      (mem_of_still hstill :), (kc_of_still hstill :), (tally_of_still hstill :), (router_of_still hstill :),
      (tb_of_still hstill :), (adopt_of_still hstill :), (table_of_still hstill :), (reserve_of_still hstill :)⟩
    case others =>
      rw [reportStep_eq hq]
      by_cases hmem : j ∈ List.range 96
      · obtain ⟨w, hw, hwlink, -, hfold, -⟩ := foldl_link_of_mem (linkStep_reportOne r) List.nodup_range hmem
          { s with mail.supervisorReports := rest }
        rw [hfold, reportOne_off fun e he => hj e ((linkDef_of_still hw j).symm.trans he), hwlink]
        rfl
      · exact foldl_link_of_not_mem (linkStep_reportOne r) hmem _
    case idle =>
      rw [hstep, takeReport_idle r (by rw [hrec]; exact hst) (by rw [hrec]; exact hp), link_modLink_self hlen, hlink, hvisit]
      rfl
    case first =>
      have hop := LinkOp.modLink i (Link.visit v) v
      rw [hstep, takeReport_learning r (by rw [hrec]; exact hst), if_pos (by rw [hrec]; exact hn), link_modLink_self (hop.lt hlen),
        link_modLink_self hlen, hlink, hvisit]
      rfl
    case unmoved =>
      obtain ⟨hun', hrole⟩ := rated_rateReport r (d := d) hlen
      rw [← takeReport_unmoved r hlen hdef (by rw [hrec]; exact hun.imp_left (And.imp_right .inl))] at hun' hrole
      rw [hlink, hvisit, ← hstep] at hun'
      refine ⟨(state_of_unrated hun' :), (hold_of_unrated hun' :), (misses_of_unrated hun' :),
        (congrArg (fun x => x.vis.lastVisit) hun' :), fun x e he => ?_⟩
      have hx : ((reportToLinkSupervisorStep s).linkRec i).role x = _ := (congrArg (fun m => m.vis.role x) hstep).trans (hrole x)
      rw [hx, hrec, reported_of_still hv]
      exact reported_eq he _ _
  case single =>
    have hstep := reportStep_single hq h96 hd hu hone
    obtain ⟨t, ht⟩ : ∃ t, t = ({ s with mail.supervisorReports := rest } : State) := ⟨_, rfl⟩
    rw [← ht] at hstep
    have hrec : t.linkRec i = l.vis := by rw [ht]; rfl
    have hlink : t.link i = l := by rw [ht]; rfl
    have hlen : i < t.sup.links.length := by rw [ht]; exact hi
    have hdef : t.linkDef i = some d := by rw [ht]; exact hd
    refine ⟨fun h => ?only, fun hst hp => ?settling, fun hst => ?rated, fun hst hn hoff => ?parks, fun hst hn hon hout hwait => ?learns⟩
    case only =>
      have hunlinked : (takeReport r i d t).unlinked = t.unlinked := by
        rcases h with ⟨hst, hp⟩ | h
        · rw [takeReport_idle r (by rw [hrec]; exact hst) (by rw [hrec]; exact hp)]
          exact modLink_unlinked ..
        · rw [takeReport_unmoved r hlen hdef (by rw [hrec]; exact h.imp_left (And.imp_right .inl))]
          exact modLink_unlinked ..
      exact ⟨reportToLinkSupervisorStep s, rfl, onlyLinks_iff.2 (by rw [hstep, hunlinked, ht])⟩
    case settling =>
      have hst' : (t.linkRec i).state ∉ [LinkState.active, .holding, .learning] := by
        rw [hrec]
        simp only [List.mem_cons, List.not_mem_nil, or_false] at hst ⊢
        rcases hst with hst | hst | hst <;> rw [hst] <;> decide
      have hp' : (t.linkRec i).phase = .settling := by rw [hrec]; exact hp
      have hother := takeReport_other r (d := d) hst'
      have hall : settled (t.linkRec i) (r.channel d.chan) = true ↔ ∀ x, l.vis.inSequence x = true →
          ((r.channel d.chan).role x).settled = true ∧ (l.vis.role x).fresh = some ((r.channel d.chan).role x).code := by
        rw [hrec]
        exact settled_iff ..
      refine ⟨fun h => ?_, fun h => ?_⟩
      · obtain ⟨hop, hst2, hphase, hsettle, x, hx, hxlink, hkind, hseq, hout, hin⟩ := goUnmuting_visited hlen hdef
        rw [← hother.trans (if_pos ⟨hp', hall.2 h⟩), ← hstep] at hop hst2 hphase hsettle hx
        subst ht
        exact ⟨reportToLinkSupervisorStep s, rfl, hop.others, hst2, hphase, hsettle, x, hx, hxlink, hkind, hseq, hout, hin⟩
      · have hop := LinkOp.modLink i (Link.visit t) t
        have hlink' := link_modLink_self hlen (Link.visit t)
        have hunlinked := modLink_unlinked i (Link.visit t) t
        rw [← hother.trans (if_neg fun hs => h (hall.1 hs.2)), ← hstep] at hop hlink' hunlinked
        subst ht
        exact ⟨reportToLinkSupervisorStep s, rfl, hop.others, hlink', onlyLinks_iff.2 hunlinked⟩
    case rated =>
      have hrated : (t.linkRec i).rated = true := by rw [hrec]; exact (rated_iff _).2 hst
      obtain ⟨hun, hrole⟩ := rated_rateReport r (d := d) hlen
      have hop : LinkOp i t (rateReport r i d t) := .modLink ..
      have hunlinked : (rateReport r i d t).unlinked = t.unlinked := modLink_unlinked ..
      have hreports : (rateReport r i d t).mail.reports =
          t.mail.reports ++ linkEntries i (t.linkRec i) ((rateReport r i d t).linkRec i) t := by
        have hvis : (rateReport r i d t).linkRec i = (rateLink t d (r.channel d.chan) ((t.link i).visit t)).vis :=
          congrArg Link.vis (link_modLink_self hlen _)
        rw [hvis]
        exact modLink_reports ..
      have hstate : ((rateReport r i d t).linkRec i).state = l.vis.state := (state_of_unrated hun).trans (by rw [hlink]; rfl)
      have heq : takeReport r i d t =
          if ((rateReport r i d t).linkRec i).outRec.health = l.vis.outRec.health ∧
              ((rateReport r i d t).linkRec i).inRec.health = l.vis.inRec.health then rateReport r i d t
          else if l.vis.state = .holding then recheckHold i (rateReport r i d t) else evaluateFailover i (rateReport r i d t) := by
        rw [takeReport_rated_eq r hrated, healthChangedFrom_eq, hstate, roleHealths, hrec]
      generalize rateReport r i d t = v at *
      subst ht
      refine ⟨v, next_finishLink (hstep.trans heq), hop.others, hstate, (hold_of_unrated hun :), (misses_of_unrated hun :),
        (congrArg (fun x => x.vis.lastVisit) hun :), (congrArg (fun x => x.aux.staleExpired) hun :), fun x hx => ?_, fun x e he => ?_,
        hreports, onlyLinks_iff.2 hunlinked⟩
      · rw [hrole, RoleRec.reported, hx]
        rfl
      · exact (hrole x).trans (reported_eq he _ _)
    case parks =>
      obtain ⟨hst2, hn2, hctl⟩ := takeReport_parks r (d := d) hlen (by rw [hrec]; exact hst) (by rw [hrec]; exact hn) hoff
      have hop := (LinkStep.takeReport r i d t).op
      rw [← hstep] at hst2 hn2 hctl hop
      subst ht
      exact ⟨reportToLinkSupervisorStep s, rfl, hop.others, hst2, hn2, hctl⟩
    case learns =>
      intro learned
      have heq := hstep.trans (takeReport_learns r (d := d) hlen (by rw [hrec]; exact hst) (by rw [hrec]; exact hn) hon
        (by rw [hlink]; exact ⟨hout, hwait⟩))
      have htlink : (reportToLinkSupervisorStep s).link i = (t.link i).learnSent t := by
        rw [heq]
        exact (put_getD ..).trans (if_pos ⟨rfl, hlen⟩)
      subst ht
      refine ⟨reportToLinkSupervisorStep s, rfl, htlink, ?_, ?_⟩
      · rw [heq]
        rfl
      · rw [htlink, heq]
        rfl
  case miss =>
    intro misses after
    have hstep := missStep_single hq h96 hd hu hone
    have h := missed_missed (s := { s with mail.missedUnits := rest }) hi hd
    have hhealth (x : Role) : (((missed i { s with mail.missedUnits := rest }).linkRec i).role x).health = after x := h.health x
    have heq : pollMissStep s =
        if after .outbound = l.vis.outRec.health ∧ after .inbound = l.vis.inRec.health then missed i { s with mail.missedUnits := rest }
        else if l.vis.state = .holding then recheckHold i (missed i { s with mail.missedUnits := rest })
        else evaluateFailover i (missed i { s with mail.missedUnits := rest }) := by
      rw [hstep, missLink_eq, healthChangedFrom_eq, h.state, ← hhealth, ← hhealth]
      rfl
    exact ⟨_, next_finishLink heq, h.op.others, h.state, h.hold, h.misses, hhealth, onlyLinks_iff.2 h.unlinked⟩
  case order =>
    have hstep := tallyStep_single hq h96 hd hc hone
    have hprog : ({ s with mail.tallyChanges := rest } : State).linkOnProgramme i = s.onProgramme c :=
      hc ▸ linkOnProgramme_eq (s := { s with mail.tallyChanges := rest }) hd
    refine ⟨fun hp => next_finishLink (hstep.trans (recheckTally_shown (hprog.trans hp))), fun hp => ?_⟩
    have h := retuneBegun_proceedRetune (i := i) (o := o) (s := { s with mail.tallyChanges := rest }) false hi ho
    rw [← proceedFromHold_order (s := { s with mail.tallyChanges := rest }) false hh,
      ← recheckTally_unshown (s := { s with mail.tallyChanges := rest }) hst (hprog.trans hp), ← hstep] at h
    exact ⟨_, rfl, h.op.others, h.link.state, h.link.seqKind, h.link.hold, h.link.permit⟩
  case failover =>
    intro taken
    have hstep := tallyStep_single hq h96 hd hc hone
    have hprog : taken.linkOnProgramme i = s.onProgramme c := hc ▸ linkOnProgramme_eq (s := taken) hd
    have hends (hp : s.onProgramme c = false) : tallyChangeToSupervisorStep s =
        if failoverWanted s i then proceedFailover i false taken else recheckHold i taken :=
      hstep.trans ((recheckTally_unshown (s := taken) hst (hprog.trans hp)).trans (proceedFromHold_failover (s := taken) false hh))
    refine ⟨fun hp => next_finishLink (hstep.trans (recheckTally_shown (hprog.trans hp))), fun hp hw hout hwait => ?_,
      fun hp hw => next_finishLink ((hends hp).trans (if_neg (by rw [hw]; exact Bool.false_ne_true)))⟩
    have h := failoverBegun_proceedFailover (i := i) (s := taken) false hi
    rw [← (hends hp).trans (if_pos hw)] at h
    have hsent := h.sent ⟨hout, hwait⟩
    refine ⟨_, rfl, h.op.others, h.state, h.seqKind, h.phase, h.hold, h.permit, h.roles, hsent, ?_⟩
    rw [onlyLinks_iff, h.rest, hsent]
    rfl
  case table =>
    intro a b becomes
    have hb : b = a.rate s.now p g := (rateRole_role ..).trans (if_pos rfl)
    obtain ⟨hpresent, hfresh, hlost, hgood, hdegraded, hunrated, hstale, hsince⟩ := ratedBy_rate s.now p g a
    rw [← hb] at hpresent hfresh hlost hgood hdegraded hunrated hstale hsince
    exact ⟨hpresent, hfresh, hlost, hgood, hdegraded, hunrated, hstale, hsince⟩

end Sys2Proof.Machine
end

section
/-! PROOFS. O45: what accepted definitions make of each link (R71, R77, R90, R98). -/

namespace Sys2Proof.Machine

/-! ### Every step of the adoption is a step on one link -/

theorem LinkStep.adoptLink (old new : Option LinkDef) (i : Nat) (s : State) : LinkStep i s (adoptLink old new i s) := by
  unfold Machine.adoptLink
  dsimp only
  split
  · exact .modLink ..
  · exact .ite (.modLink ..) (.refl ..)
  · refine .ite (.modLink ..) (.ite (.refl ..) (.ite ?_ (.ite (.evaluateFailover ..) (.refl ..))))
    have htally (f : LinkAux → LinkAux) : LinkStep i s (Machine.recheckTally i (Machine.recheckHold i (Machine.modAux i f s))) :=
      ((LinkStep.modAux i f s).trans (.recheckHold ..)).trans (.recheckTally ..)
    exact .ite ((htally _).trans (.holdExpires ..)) (htally _)
  · exact .refl ..

/-- A link's stale timer looked at under the new settings. -/
def restale (changed : Bool) (i : Nat) (s : State) : State :=
  if changed then modAux i (fun a => { a with staleExpired := a.staleFrom.any fun t => s.reached (t + staleTime s) }) s else s

theorem adoptSupervision_eq (changed : Bool) (s : State) (i : Nat) : adoptSupervision changed s i =
    healthChangedFrom (roleHealths s i) i (entryHealth i (restale changed i s)) := rfl

theorem LinkStep.restale (changed : Bool) (i : Nat) (s : State) : LinkStep i s (restale changed i s) := .ite (.modAux ..) (.refl ..)

theorem LinkStep.adoptSupervision (changed : Bool) (s : State) (i : Nat) : LinkStep i s (adoptSupervision changed s i) :=
  ((LinkStep.restale changed i s).trans (.entryHealth ..)).trans (.healthChangedFrom ..)

theorem link_restale {i : Nat} {s : State} (changed : Bool) (hi : i < s.sup.links.length) :
    ∃ e, (restale changed i s).link i = { s.link i with aux := { (s.link i).aux with staleExpired := e } } := by
  unfold restale
  split
  · exact ⟨_, link_modAux_self hi _⟩
  · exact ⟨_, rfl⟩

/-! ### The supervision settings, of a link that they do not move -/

section
variable {i : Nat} {s : State} (changed : Bool) (hi : i < s.sup.links.length)
include hi

theorem adoptSupervision_unrated (h : (s.linkRec i).rated = false) : ∃ e, (adoptSupervision changed s i).link i =
    { s.link i with aux := { (s.link i).aux with staleExpired := e } } := by
  obtain ⟨e, hlink⟩ := link_restale changed hi
  have hrec : (restale changed i s).linkRec i = s.linkRec i := (congrArg Link.vis hlink :)
  refine ⟨e, ?_⟩
  rw [adoptSupervision_eq, entryHealth_unrated_state (by rw [hrec]; exact h), healthChangedFrom_eq, hrec, if_pos ⟨rfl, rfl⟩]
  exact hlink

theorem adoptSupervision_unmoved {d : LinkDef} (hd : s.linkDef i = some d) (h : Unmoved d (s.linkRec i)) :
    ∃ e, ((adoptSupervision changed s i).link i).unrated =
      Link.unrated { s.link i with aux := { (s.link i).aux with staleExpired := e } } := by
  obtain ⟨e, hlink⟩ := link_restale changed hi
  have hun := link_entryHealth i i (restale changed i s)
  rw [hlink] at hun
  have hdef : (entryHealth i (restale changed i s)).linkDef i = some d :=
    (linkDef_of_still ((LinkStep.restale changed i s).trans (.entryHealth ..)).still i).trans hd
  have hstate : ((entryHealth i (restale changed i s)).linkRec i).state = (s.linkRec i).state := (state_of_unrated hun :)
  have hhold : ((entryHealth i (restale changed i s)).linkRec i).hold = (s.linkRec i).hold := (hold_of_unrated hun :)
  refine ⟨e, ?_⟩
  rw [adoptSupervision_eq, healthChangedFrom_unmoved hdef (by unfold Unmoved; rw [hstate, hhold]; exact h)]
  exact hun

end

/-! ### One link under its new definition -/

/-- A held link with another definition: its hold, its camera's tally and its limit are looked at, in this order. -/
theorem adoptLink_holding {i : Nat} {s : State} {a b : LinkDef} (hab : a ≠ b) (hst : (s.linkRec i).state = .holding) : adoptLink (some a) (some b) i s =
    (let t := recheckTally i (recheckHold i (modAux i (fun x => { x with holdTimer := decide (b.holdS ≠ 0) }) s))
     if (t.linkRec i).state = .holding ∧ holdLimitPassed t i = true then holdExpires i t else t) := by
  unfold adoptLink
  dsimp only
  rw [if_neg (by simp [hst]), if_neg hab, if_pos hst]
  exact if_congr (by simp) rfl rfl

section
variable {i : Nat} {s : State} (hi : i < s.sup.links.length)
include hi

theorem adoptLink_added (b : LinkDef) (hst : (s.linkRec i).state = .vacant) :
    (adoptLink none (some b) i s).linkRec i = { s.linkRec i with state := .learning, learning := 0 } := by
  unfold adoptLink
  dsimp only
  rw [if_pos hst, State.linkRec, link_modLink_self hi]
  rfl

theorem adoptLink_removed (a : LinkDef) : (adoptLink (some a) none i s).linkRec i =
    { LinkRec.reset with pending := (s.linkRec i).pending, orderCell := (s.linkRec i).orderCell } := by
  unfold adoptLink
  dsimp only
  rw [State.linkRec, link_modLink_self hi]
  rfl

theorem adoptLink_parked (a b : LinkDef) (hst : (s.linkRec i).state = .parked) : (adoptLink (some a) (some b) i s).linkRec i =
    if a.unit = b.unit ∧ a.chan = b.chan then s.linkRec i else { s.linkRec i with state := .learning, learning := 0 } := by
  unfold adoptLink
  dsimp only
  by_cases h : a.unit = b.unit ∧ a.chan = b.chan
  · rw [if_pos h, if_neg (by simp [h])]
    have hheld : ¬(s.linkRec i).state = .holding := by rw [hst]; decide
    rw [if_neg hheld]
    split
    · rfl
    · split
      · rw [evaluateFailover_inactive (by rw [hst]; decide)]
      · rfl
  · have hmoved : (decide ((s.linkRec i).state = .parked) && (decide (a.unit ≠ b.unit) || decide (a.chan ≠ b.chan))) = true := by
      simp only [hst, decide_true, Bool.true_and, Bool.or_eq_true, decide_eq_true_eq]
      tauto
    rw [if_neg h, if_pos hmoved, State.linkRec, link_modLink_self hi]
    rfl

/-- The timer of a hold under the new limit. -/
def retimed (b : LinkDef) (i : Nat) (s : State) : State := modAux i (fun x => { x with holdTimer := decide (b.holdS ≠ 0) }) s

theorem link_retimed (b : LinkDef) : (retimed b i s).link i =
    { s.link i with aux := { (s.link i).aux with holdTimer := decide (b.holdS ≠ 0) } } := link_modAux_self hi _

theorem holdLimitPassed_retimed {b : LinkDef} (hd : s.linkDef i = some b) : holdLimitPassed (retimed b i s) i = true ↔
    b.holdS ≠ 0 ∧ ∃ n, (s.link i).aux.holdAt = some n ∧ n + b.holdS * 768000 ≤ s.tb.elapsed := by
  have hd' : (retimed b i s).linkDef i = some b := hd
  have htb : (retimed b i s).tb = s.tb := rfl
  unfold holdLimitPassed
  rw [hd', link_retimed hi]
  simp only [Bool.and_eq_true, decide_eq_true_eq, Option.any_eq_true, State.reached, htb, ← units_second]

theorem recheckHold_retimed (b : LinkDef) (hh : (s.linkRec i).hold = some .order) : recheckHold i (retimed b i s) = retimed b i s := by
  refine recheckHold_idle fun ⟨_, h, _⟩ => ?_
  rw [link_retimed hi] at h
  have hboth := hh.symm.trans h
  cases hboth

variable {a b : LinkDef} (hab : a ≠ b) (hst : (s.linkRec i).state = .holding)
include hab hst

section
variable {o : LinkOrder} (hh : (s.linkRec i).hold = some .order) (ho : (s.link i).aux.order = some o)
include hh

/-- The camera shows programme and the limit has not passed: the hold stays. -/
theorem adoptLink_holds (hp : s.linkOnProgramme i = true) (hn : ¬holdLimitPassed (retimed b i s) i = true) :
    adoptLink (some a) (some b) i s = retimed b i s := by
  have hp' : (retimed b i s).linkOnProgramme i = true := hp
  rw [adoptLink_holding hab hst]
  dsimp only
  rw [show modAux i (fun x => { x with holdTimer := decide (b.holdS ≠ 0) }) s = retimed b i s from rfl,
    recheckHold_retimed hi b hh, recheckTally_shown hp', if_neg fun h => hn h.2]

include ho

/-- The camera shows no programme: the retune goes on. -/
theorem adoptLink_retunes (hp : s.linkOnProgramme i = false) :
    RetuneBegun i o false (retimed b i s) (adoptLink (some a) (some b) i s) := by
  have hp' : (retimed b i s).linkOnProgramme i = false := hp
  have hlink := link_retimed hi b
  have hst' : ((retimed b i s).linkRec i).state = .holding := by rw [State.linkRec, hlink]; exact hst
  have hh' : ((retimed b i s).linkRec i).hold = some .order := by rw [State.linkRec, hlink]; exact hh
  have h := retuneBegun_proceedRetune (i := i) (o := o) (s := retimed b i s) false ((LinkOp.modAux ..).lt hi)
    (by rw [hlink]; exact ho)
  have hend : ¬(((proceedRetune i false (retimed b i s)).linkRec i).state = .holding ∧
      holdLimitPassed (proceedRetune i false (retimed b i s)) i = true) := by
    rintro ⟨hstate, -⟩
    have hboth := h.link.state.symm.trans hstate
    cases hboth
  rw [adoptLink_holding hab hst]
  dsimp only
  rw [show modAux i (fun x => { x with holdTimer := decide (b.holdS ≠ 0) }) s = retimed b i s from rfl,
    recheckHold_retimed hi b hh, recheckTally_unshown hst' hp', proceedFromHold_order false hh', if_neg hend]
  exact h

/-- It shows programme and the limit has passed: the hold has expired. -/
theorem adoptLink_expires (hp : s.linkOnProgramme i = true) (hn : holdLimitPassed (retimed b i s) i = true) :
    RetuneBegun i o true (report .supervisor (holdExpiredReport i (retimed b i s)) (retimed b i s))
      (adoptLink (some a) (some b) i s) := by
  have hp' : (retimed b i s).linkOnProgramme i = true := hp
  have hlink := link_retimed hi b
  have hst' : ((retimed b i s).linkRec i).state = .holding := by rw [State.linkRec, hlink]; exact hst
  have h := holdExpires_order (s := retimed b i s) (i := i) (o := o) ((LinkOp.modAux ..).lt hi)
    (by rw [State.linkRec, hlink]; exact hh) (by rw [hlink]; exact ho)
  rw [adoptLink_holding hab hst]
  dsimp only
  rw [show modAux i (fun x => { x with holdTimer := decide (b.holdS ≠ 0) }) s = retimed b i s from rfl,
    recheckHold_retimed hi b hh, recheckTally_shown hp', if_pos ⟨hst', hn⟩]
  exact h

end

/-- A FAILOVER hold of a link that fails over no more is over. -/
theorem adoptLink_released (hd : s.linkDef i = some b) (hh : (s.linkRec i).hold = some .failover) (hf : b.auto = false ∨ b.outRole = none) :
    ((adoptLink (some a) (some b) i s).linkRec i).state = .active ∧ ((adoptLink (some a) (some b) i s).linkRec i).hold = none := by
  have hlink := link_retimed hi b
  have hd' : (retimed b i s).linkDef i = some b := hd
  have hover : HoldOver (retimed b i s) i := by
    refine ⟨?_, ?_, failoverWanted_of_not_failsOver hd' hf⟩
    · rw [hlink]
      exact hst
    · rw [hlink]
      exact hh
  obtain ⟨t, heq, hop, hactive, hnone, hu⟩ := recheckHold_over hover ((LinkOp.modAux ..).lt hi)
  have hidle : evaluateFailover i t = t := by
    refine evaluateFailover_idle fun ⟨_, _, _, hwanted, _⟩ => ?_
    exact Bool.false_ne_true
      ((failoverWanted_of_not_failsOver ((linkDef_of_unlinked hu i).trans hd') hf).symm.trans hwanted)
  have htally : recheckTally i t = t := by
    unfold recheckTally
    rw [hactive]
    exact if_neg (by simp)
  rw [adoptLink_holding hab hst]
  dsimp only
  rw [show modAux i (fun x => { x with holdTimer := decide (b.holdS ≠ 0) }) s = retimed b i s from rfl, heq, hidle, htally,
    if_neg (by rw [hactive]; rintro ⟨h, -⟩; cases h)]
  exact ⟨hactive, hnone⟩

end

end Sys2Proof.Machine
end

section
/-! PROOFS. O45: what accepted definitions make of the unit list, the cameras and the router (R86, R107, R131). -/

namespace Sys2Proof.Machine

/-! ### One record among many -/

/-- A run of steps, each on one record, seen at a record that they take in its turn. -/
theorem foldl_at {α β : Type} {get : State → Nat → α} {still : State → β} {f : State → Nat → State}
    (hothers : ∀ s j i, i ≠ j → get (f s j) i = get s i) (hstill : ∀ s j, still (f s j) = still s) {l : List Nat} {i : Nat}
    (hl : l.Nodup) (hi : i ∈ l) (s : State) :
    ∃ u, still u = still s ∧ get u i = get s i ∧ get (l.foldl f s) i = get (f u i) i := by
  have hnone : ∀ (l : List Nat) (s : State), i ∉ l → get (l.foldl f s) i = get s i := by
    intro l
    induction l with
    | nil => exact fun _ _ => rfl
    | cons j l ih =>
      intro s hil
      obtain ⟨hij, hil⟩ := not_or.1 (mt List.mem_cons.2 hil)
      rw [List.foldl_cons, ih _ hil, hothers s j i hij]
  induction l generalizing s with
  | nil => cases hi
  | cons j l ih =>
    obtain ⟨hjl, hl⟩ := List.nodup_cons.1 hl
    by_cases hij : i = j
    · subst hij
      exact ⟨s, rfl, rfl, hnone l _ hjl⟩
    · obtain ⟨u, hu, hget, hfold⟩ := ih hl ((List.mem_cons.1 hi).resolve_left hij) (f s j)
      exact ⟨u, hu.trans (hstill s j), hget.trans (hothers s j i hij), hfold⟩

theorem foldl_kept {β : Type} {still : State → β} {f : State → Nat → State} (hstill : ∀ s j, still (f s j) = still s) (l : List Nat)
    (s : State) : still (l.foldl f s) = still s := by
  induction l generalizing s with
  | nil => rfl
  | cons j l ih => rw [List.foldl_cons, ih, hstill]

/-! ### The linked link of a camera (R107) and the unit list (R86) -/

section
variable (defs : List (Option LinkDef)) (camera : Nat)

theorem linkedLink_eq_none : linkedLink defs camera = none ↔
    ∀ l : Nat, ¬∃ e : LinkDef, defs[l]? = some (some e) ∧ e.kind = .camera ∧ e.camera = camera := by
  unfold linkedLink
  rw [List.findIdx?_eq_none_iff]
  refine ⟨fun h l ⟨e, he, hkind, hcam⟩ => ?_, fun h x hx => ?_⟩
  · have hfalse := h _ (List.mem_of_getElem? he)
    simp [hkind, hcam] at hfalse
  · obtain ⟨l, hl⟩ := List.mem_iff_getElem?.1 hx
    cases x with
    | none => rfl
    | some e =>
      refine Bool.eq_false_of_not_eq_true fun hn => h l ⟨e, hl, ?_⟩
      simpa using hn

theorem linkedLink_eq_some (l : Nat) : linkedLink defs camera = some l ↔
    (∃ e : LinkDef, defs[l]? = some (some e) ∧ e.kind = .camera ∧ e.camera = camera) ∧
      ∀ j, j < l → ¬∃ e : LinkDef, defs[j]? = some (some e) ∧ e.kind = .camera ∧ e.camera = camera := by
  have hnames (j : Nat) (hj : j < defs.length) :
      (defs[j].any fun d => d.kind = .camera ∧ d.camera = camera) = true ↔
        ∃ e, defs[j]? = some (some e) ∧ e.kind = .camera ∧ e.camera = camera := by
    rw [List.getElem?_eq_getElem hj]
    simp [Option.any_eq_true]
  unfold linkedLink
  rw [List.findIdx?_eq_some_iff_getElem]
  constructor
  · rintro ⟨hl, hn, hbefore⟩
    exact ⟨(hnames l hl).1 hn, fun j hj h => hbefore j hj ((hnames j (hj.trans hl)).2 h)⟩
  · rintro ⟨⟨e, he, hn⟩, hbefore⟩
    have hl : l < defs.length := (List.getElem?_eq_some_iff.1 he).1
    exact ⟨hl, (hnames l hl).2 ⟨e, he, hn⟩, fun j hj h => hbefore j hj ((hnames j (hj.trans hl)).1 h)⟩

theorem mem_unitList (u : Nat) : u ∈ unitList defs ↔ u < 127 ∧ ∃ e, some e ∈ defs ∧ e.unit = u := by
  simp only [unitList, List.mem_filter, List.mem_range, List.any_eq_true, Option.any_eq_true, decide_eq_true_eq]
  refine and_congr_right fun _ => ⟨?_, ?_⟩
  · rintro ⟨x, hx, e, rfl, hu⟩
    exact ⟨e, hx, hu⟩
  · rintro ⟨e, he, hu⟩
    exact ⟨some e, he, e, rfl, hu⟩

theorem unitList_ascending : (unitList defs).Pairwise (· < ·) := List.pairwise_lt_range.filter _

end

/-! ### A camera's delivery decided afresh (R107) -/

/-- The state without what a step on a camera alters, and the number of cameras. -/
def State.uncued (s : State) : State × Nat :=
  ({ s with
      tally := { s.tally with cams := [], epochs := [] }, ul := { s.ul with cueQ := [] }, mail := { s.mail with reports := [] } },
    s.tally.cams.length)

theorem uncued_frame {s t : State} (h : t.uncued = s.uncued) : t = { s with
    tally := { s.tally with cams := t.tally.cams, epochs := t.tally.epochs }, ul := { s.ul with cueQ := t.ul.cueQ }
    mail := { s.mail with reports := t.mail.reports } } := by
  have eta (u : State) : u = { u.uncued.1 with
      tally := { u.uncued.1.tally with cams := u.tally.cams, epochs := u.tally.epochs }
      ul := { u.uncued.1.ul with cueQ := u.ul.cueQ }, mail := { u.uncued.1.mail with reports := u.mail.reports } } := rfl
  have ht := eta t
  rw [h] at ht
  exact ht

/-- A step on camera c: the others are as before, and so is all that no camera is. -/
structure CamStep (c : Nat) (s t : State) : Prop where
  others : ∀ k, k ≠ c → camOf t k = camOf s k
  uncued : t.uncued = s.uncued

theorem CamStep.refl (c : Nat) (s : State) : CamStep c s s := ⟨fun _ _ => rfl, rfl⟩

theorem CamStep.trans {c : Nat} {s t u : State} (h : CamStep c s t) (h' : CamStep c t u) : CamStep c s u :=
  ⟨fun k hk => (h'.others k hk).trans (h.others k hk), h'.uncued.trans h.uncued⟩

theorem camOf_modCam (c k : Nat) (f : CamRec → CamRec) (s : State) :
    camOf (modCam c f s) k = if k = c ∧ c < s.tally.cams.length then f (camOf s c) else camOf s k := by
  have hcams : (modCam c f s).tally.cams = put s.tally.cams c (f (camOf s c)) := by
    unfold modCam setCam
    dsimp only
    split <;> rfl
  unfold camOf at hcams ⊢
  rw [hcams, put_getD]

theorem CamStep.modCam (c : Nat) (f : CamRec → CamRec) (s : State) : CamStep c s (modCam c f s) := by
  refine ⟨fun k hk => by rw [camOf_modCam, if_neg fun h => hk h.1], ?_⟩
  have hlen (l : List CamRec) : (put l c (f (camOf s c))).length = l.length := List.length_set ..
  unfold Machine.modCam setCam State.uncued
  dsimp only
  split <;> (dsimp only [report]; rw [hlen])

/-- Neither the link of the camera nor its colours change. -/
structure CamKept (c : Nat) (s t : State) : Prop where
  step : CamStep c s t
  link : (camOf t c).link = (camOf s c).link
  staged : (camOf t c).staged = (camOf s c).staged
  applied : (camOf t c).applied = (camOf s c).applied

theorem CamKept.refl (c : Nat) (s : State) : CamKept c s s := ⟨.refl c s, rfl, rfl, rfl⟩

theorem CamKept.trans {c : Nat} {s t u : State} (h : CamKept c s t) (h' : CamKept c t u) : CamKept c s u :=
  ⟨h.step.trans h'.step, h'.link.trans h.link, h'.staged.trans h.staged, h'.applied.trans h.applied⟩

theorem CamKept.modCam (c : Nat) {f : CamRec → CamRec} (s : State)
    (hf : ∀ r, (f r).link = r.link ∧ (f r).staged = r.staged ∧ (f r).applied = r.applied) : CamKept c s (modCam c f s) := by
  have hcam := camOf_modCam c c f s
  obtain ⟨hlink, hstaged, happlied⟩ := hf (camOf s c)
  refine ⟨.modCam .., ?_, ?_, ?_⟩
  all_goals
    rw [hcam]
    split
    · assumption
    · rfl

theorem CamKept.of_cams {c : Nat} {s t : State} (hcams : t.tally.cams = s.tally.cams) (h : t.uncued = s.uncued) : CamKept c s t := by
  have hcam (k : Nat) : camOf t k = camOf s k := by
    unfold camOf
    rw [hcams]
  exact ⟨⟨fun k _ => hcam k, h⟩, by rw [hcam], by rw [hcam], by rw [hcam]⟩

theorem CamKept.queueCue (c : Nat) (resend : Bool) (s : State) : CamKept c s (queueCue c resend s) := by
  unfold Machine.queueCue
  split
  · exact .refl ..
  · dsimp only
    split
    · exact .refl ..
    · next d _ =>
      have hplace : CamKept c s (placeCue (cueFor s c d resend) s) := .of_cams rfl rfl
      exact hplace.trans (.modCam _ _ fun _ => ⟨rfl, rfl, rfl⟩)

theorem CamKept.decideDelivery (c : Nat) (s : State) : CamKept c s (decideDelivery c s) := by
  have hwithdraw : CamKept c s (withdrawCues c s) := .of_cams rfl rfl
  have hcleared := hwithdraw.trans (.modCam c (f := fun r => { r with cueOut := false, reports := 0 }) _ fun _ => ⟨rfl, rfl, rfl⟩)
  unfold Machine.decideDelivery
  dsimp only
  split
  · exact hcleared.trans (.modCam _ _ fun _ => ⟨rfl, rfl, rfl⟩)
  · split
    · exact hcleared.trans (.queueCue ..)
    · exact hcleared.trans (.modCam _ _ fun _ => ⟨rfl, rfl, rfl⟩)

/-- The linked link of a camera found again. -/
structure Resolved (c : Nat) (s t : State) : Prop where
  step : CamStep c s t
  link : c < s.tally.cams.length → (camOf t c).link = linkedLink s.tally.defs (c + 1)
  staged : (camOf t c).staged = (camOf s c).staged
  applied : (camOf t c).applied = (camOf s c).applied
  same : (camOf s c).link = linkedLink s.tally.defs (c + 1) → t = s

theorem resolved_resolveLink (c : Nat) (s : State) : Resolved c s (resolveLink s c) := by
  by_cases h : linkedLink s.tally.defs (c + 1) = (camOf s c).link
  · have heq : resolveLink s c = s := if_pos h
    rw [heq]
    exact ⟨.refl c s, fun _ => h.symm, rfl, rfl, fun _ => rfl⟩
  · obtain ⟨f, hf, hkept⟩ : ∃ f : CamRec → CamRec, resolveLink s c = decideDelivery c (modCam c f s) ∧
        ∀ r, (f r).link = linkedLink s.tally.defs (c + 1) ∧ (f r).staged = r.staged ∧ (f r).applied = r.applied :=
      ⟨_, if_neg h, fun _ => ⟨rfl, rfl, rfl⟩⟩
    obtain ⟨hlink, hstaged, happlied⟩ := hkept (camOf s c)
    have hdecided := CamKept.decideDelivery c (modCam c f s)
    have hcam := camOf_modCam c c f s
    rw [hf]
    refine ⟨(CamStep.modCam c f s).trans hdecided.step, fun hc => ?_, ?_, ?_, fun hsame => absurd hsame.symm h⟩
    · rw [hdecided.link, hcam, if_pos ⟨rfl, hc⟩, hlink]
    · rw [hdecided.staged, hcam]
      split
      · exact hstaged
      · rfl
    · rw [hdecided.applied, hcam]
      split
      · exact happlied
      · rfl

/-! ### The router's images (R131) -/

/-- A beltpack keeps its key image where its kind, unit and channel stay. -/
theorem images_getD (images : List (Option (Bool × Bool))) (old new : List (Option LinkDef)) (k : Nat) (hk : k < images.length) :
    (images.zipIdx.map fun x => if keepsImage (old.getD x.2 none) (new.getD x.2 none) then x.1 else none).getD k none =
      if keepsImage (old.getD k none) (new.getD k none) then images.getD k none else none := by
  simp [List.getD, hk]

end Sys2Proof.Machine
end

section
/-! PROOFS. O45: accepted definitions reach the supervisor, the unit list, kill control, the tally unit and the router. -/

namespace Sys2Proof.Machine

/-! ### The unit list and kill control at the end of an adoption -/

theorem trySweep_frame (s : State) : trySweep s = { s with ul := (trySweep s).ul } := by
  unfold trySweep placeSweep
  split
  · split <;> rfl
  · rfl

theorem trySweep_units (s : State) : (trySweep s).ul.units = s.ul.units := by
  unfold trySweep placeSweep
  split
  · split <;> rfl
  · rfl

theorem placeAttention_frame (s : State) : placeAttention s = { s with ul := (placeAttention s).ul } := by
  unfold placeAttention
  split
  · split_ifs <;> dsimp only <;> split <;> rfl
  · rfl

theorem placeAttention_units (s : State) : (placeAttention s).ul.units = s.ul.units := by
  unfold placeAttention
  split
  · split_ifs <;> dsimp only <;> split <;> rfl
  · rfl

theorem rebuildUnits_frame (s : State) : rebuildUnits s = { s with ul := (rebuildUnits s).ul } := by
  unfold rebuildUnits
  dsimp only
  rw [trySweep_frame, placeAttention_frame]
  split_ifs <;> rfl

theorem rebuildUnits_units (s : State) : (rebuildUnits s).ul.units = unitList s.sup.defs := by
  unfold rebuildUnits
  dsimp only
  rw [trySweep_units, placeAttention_units]
  split_ifs <;> rfl

/-- The state without the unit link, kill control, reports and hand-overs of the kill state. -/
def State.unkilled (s : State) : State :=
  { s with
    ul := { s.ul with killQ := [] }
    kc := KillControl.reset
    mail := { s.mail with reports := [], killToLinks := [], killToTally := [], killToRouter := [] } }

theorem assertKill_unkilled (cause : KillCause) (s : State) : (assertKill cause s).unkilled = s.unkilled := by
  unfold assertKill
  dsimp only
  split <;> rfl

theorem assertKill_width (cause : KillCause) (s : State) : (assertKill cause s).kc.width = s.kc.width := by
  unfold assertKill
  dsimp only
  split <;> rfl

theorem assertKill_reports (cause : KillCause) (s : State) : s.mail.reports <+: (assertKill cause s).mail.reports := by
  unfold assertKill
  dsimp only
  split <;> exact List.prefix_append ..

/-- What the adoption of a width keeps. -/
structure WidthAdopted (w : Nat) (s t : State) : Prop where
  unkilled : t.unkilled = s.unkilled
  width : t.kc.width = w
  reports : s.mail.reports <+: t.mail.reports

theorem widthAdopted (w : Nat) (s : State) : WidthAdopted w s (adoptKillWidth w s) := by
  unfold adoptKillWidth takeLine
  dsimp only
  split
  · split
    · have hreports := assertKill_reports .line { s with kc := { s.kc with width := w, filter := s.kc.filter.take } }
      exact ⟨assertKill_unkilled .., assertKill_width .., hreports⟩
    · exact ⟨rfl, rfl, List.prefix_rfl⟩
  · exact ⟨rfl, rfl, List.prefix_rfl⟩

/-! ### The definitions taken -/

/-- The definitions and settings of the copy are in force. -/
def installed (c : StationCopy) (s : State) : State := { s with sup.defs := c.defs, sup.settings := c.settings }

/-- Every link has its new definition. -/
def redefined (c : StationCopy) (s : State) : State :=
  (List.range Config.links).foldl (fun u i => adoptLink (s.sup.defs.getD i none) (c.defs.getD i none) i u) (installed c s)

theorem takeDefinitions_eq (c : StationCopy) (s : State) :
    ∃ changed, takeDefinitions c s = (List.range Config.links).foldl (adoptSupervision changed) (redefined c s) := by
  unfold takeDefinitions redefined installed
  exact ⟨_, rfl⟩

section
variable (c : StationCopy) (s : State)

theorem redefined_step (u : State) (i : Nat) : LinkStep i u (adoptLink (s.sup.defs.getD i none) (c.defs.getD i none) i u) :=
  .adoptLink ..

theorem redefined_still : (redefined c s).still = (installed c s).still := foldl_still (redefined_step c s) ..

theorem takeDefinitions_still : (takeDefinitions c s).still = (installed c s).still := by
  obtain ⟨changed, h⟩ := takeDefinitions_eq c s
  rw [h, foldl_still (LinkStep.adoptSupervision changed), redefined_still]

end

/-- What becomes of one link when the copy is taken: its new definition, then the new settings; what is still is then as at first. -/
structure LinkAdopted (c : StationCopy) (i : Nat) (s t u v : State) (changed : Bool) : Prop where
  before : u.still = (installed c s).still
  link : u.link i = s.link i
  lt : i < u.sup.links.length
  lt' : i < v.sup.links.length
  between : v.still = (installed c s).still
  defined : v.link i = (adoptLink (s.sup.defs.getD i none) (c.defs.getD i none) i u).link i
  after : t.link i = (adoptSupervision changed v i).link i
  reports : (adoptLink (s.sup.defs.getD i none) (c.defs.getD i none) i u).mail.reports <+: t.mail.reports

theorem linkAdopted (c : StationCopy) {s : State} (hlen : s.sup.links.length = 96) {i : Nat} (hi : i < 96) :
    ∃ u v changed, LinkAdopted c i s (takeDefinitions c s) u v changed := by
  have hmem : i ∈ List.range Config.links := List.mem_range.2 hi
  obtain ⟨changed, heq⟩ := takeDefinitions_eq c s
  obtain ⟨u, hu, hlink, hlenu, hfold, hreports⟩ := foldl_link_of_mem (redefined_step c s) List.nodup_range hmem (installed c s)
  obtain ⟨v, hv, hlinkv, hlenv, hfoldv, -⟩ :=
    foldl_link_of_mem (LinkStep.adoptSupervision changed) List.nodup_range hmem (redefined c s)
  have hlength : (redefined c s).sup.links.length = 96 := (foldl_length (redefined_step c s) ..).trans hlen
  have hlast := foldl_reports (LinkStep.adoptSupervision changed) (List.range Config.links) (redefined c s)
  rw [heq]
  exact ⟨u, v, changed, hu, hlink, by rw [hlenu]; exact hlen ▸ hi, by rw [hlenv, hlength]; exact hi,
    hv.trans (redefined_still c s), hlinkv.trans hfold, hfoldv, hreports.trans hlast⟩

section
variable {c : StationCopy} {i : Nat} {s t u v : State} {changed : Bool} (h : LinkAdopted c i s t u v changed)
include h

theorem LinkAdopted.linkDef : u.linkDef i = c.defs.getD i none ∧ v.linkDef i = c.defs.getD i none :=
  ⟨linkDef_of_still h.before i, linkDef_of_still h.between i⟩

/-- A link in a state that no settings move keeps what its definition made of it. -/
theorem LinkAdopted.of_unrated (hr : (v.linkRec i).rated = false) : t.linkRec i = v.linkRec i ∧
    (t.link i).aux.permitKept = (v.link i).aux.permitKept := by
  obtain ⟨e, hlink⟩ := adoptSupervision_unrated changed h.lt' hr
  have ht := h.after.trans hlink
  exact ⟨(congrArg Link.vis ht :), by rw [ht]⟩

theorem LinkAdopted.of_unmoved {d : LinkDef} (hd : c.defs.getD i none = some d) (hu : Unmoved d (v.linkRec i)) :
    (t.linkRec i).state = (v.linkRec i).state ∧ (t.linkRec i).hold = (v.linkRec i).hold ∧
      (t.link i).aux.holdAt = (v.link i).aux.holdAt ∧ (t.link i).aux.holdTimer = (v.link i).aux.holdTimer := by
  obtain ⟨e, hlink⟩ := adoptSupervision_unmoved changed h.lt' (h.linkDef.2.trans hd) hu
  rw [← h.after] at hlink
  exact ⟨(state_of_unrated hlink :), (hold_of_unrated hlink :), (congrArg (fun l : Link => l.aux.holdAt) hlink :),
    (congrArg (fun l : Link => l.aux.holdTimer) hlink :)⟩

/-- A link that is not ACTIVE or HOLDING under its new definition is as that definition made it. -/
theorem LinkAdopted.of_adopted {r : LinkRec}
    (hr : (adoptLink (s.sup.defs.getD i none) (c.defs.getD i none) i u).linkRec i = r) (hrated : r.rated = false) :
    t.linkRec i = r := by
  have hv : v.linkRec i = r := (congrArg Link.vis h.defined :).trans hr
  exact (h.of_unrated (by rw [hv]; exact hrated)).1.trans hv

theorem LinkAdopted.recBefore : u.linkRec i = s.linkRec i := congrArg Link.vis h.link

theorem LinkAdopted.shown {b : LinkDef} (hb : c.defs.getD i none = some b) : u.linkOnProgramme i = true ↔
    ∃ k, b.camera = k + 1 ∧ ((camOf s k).staged.programme = true ∨ (camOf s k).applied.programme = true) := by
  have hd := h.linkDef.1.trans hb
  have hcam (k : Nat) : camOf u k = camOf s k := by
    unfold camOf
    rw [(tally_of_still h.before :)]
    rfl
  constructor
  · intro hp
    cases hk : b.camera with
    | zero =>
      unfold State.linkOnProgramme State.onProgramme at hp
      rw [hd] at hp
      dsimp only at hp
      rw [hk] at hp
      cases hp
    | succ k => exact ⟨k, rfl, by rw [← hcam]; exact (linkOnProgramme_of_camera hd hk).1 hp⟩
  · rintro ⟨k, hk, hp⟩
    rw [← hcam] at hp
    exact (linkOnProgramme_of_camera hd hk).2 hp

end

end Sys2Proof.Machine
end

section
/-! PROOFS. O45: what the supervisor makes of each link, the tally unit of each camera, and the router of each image. -/

open Sys2Proof Sys2Proof.Machine

namespace Sys2Proof.Machine

/-! ### Each link under its new definition -/

theorem LinkAdopted.of_sup {c : StationCopy} {i : Nat} {s t t' u v : State} {changed : Bool} (h : LinkAdopted c i s t u v changed)
    (hsup : t'.sup = t.sup) (hreports : t.mail.reports <+: t'.mail.reports) : LinkAdopted c i s t' u v changed := by
  have hlink : t'.link i = t.link i := by
    unfold State.link
    rw [hsup]
  exact { h with after := hlink.trans h.after, reports := h.reports.trans hreports }

section
variable {c : StationCopy} {i : Nat} {s t u v : State} {changed : Bool} (h : LinkAdopted c i s t u v changed)
include h

theorem LinkAdopted.added {b : LinkDef} (hold : s.sup.defs.getD i none = none) (hb : c.defs.getD i none = some b)
    (hst : (s.linkRec i).state = .vacant) : t.linkRec i = { s.linkRec i with state := .learning, learning := 0 } := by
  refine h.of_adopted ?_ rfl
  rw [hold, hb, adoptLink_added h.lt b (by rw [h.recBefore]; exact hst), h.recBefore]

theorem LinkAdopted.removed {a : LinkDef} (hold : s.sup.defs.getD i none = some a) (hb : c.defs.getD i none = none) :
    t.linkRec i = { LinkRec.reset with pending := (s.linkRec i).pending, orderCell := (s.linkRec i).orderCell } := by
  refine h.of_adopted ?_ rfl
  rw [hold, hb, adoptLink_removed h.lt a, h.recBefore]

section
variable {a b : LinkDef} (hold : s.sup.defs.getD i none = some a) (hb : c.defs.getD i none = some b)
include hold hb

theorem LinkAdopted.adopted : v.link i = (adoptLink (some a) (some b) i u).link i := by rw [h.defined, hold, hb]

theorem LinkAdopted.parked (hst : (s.linkRec i).state = .parked) : t.linkRec i =
    if a.unit = b.unit ∧ a.chan = b.chan then s.linkRec i else { s.linkRec i with state := .learning, learning := 0 } := by
  refine h.of_adopted ?_ ?_
  · rw [hold, hb, adoptLink_parked h.lt a b (by rw [h.recBefore]; exact hst), h.recBefore]
  · split
    · rw [LinkRec.rated, hst]
      rfl
    · rfl

omit hold in
theorem LinkAdopted.passed : holdLimitPassed (retimed b i u) i = true ↔
    b.holdS ≠ 0 ∧ ∃ n, (s.link i).aux.holdAt = some n ∧ n + b.holdS * 768000 ≤ s.tb.elapsed := by
  have htb : u.tb = s.tb := (tb_of_still h.before :)
  rw [holdLimitPassed_retimed h.lt (h.linkDef.1.trans hb), h.link, htb]

variable (hst : (s.linkRec i).state = .holding) (hab : a ≠ b)
include hst hab

section
variable {o : LinkOrder} (hh : (s.linkRec i).hold = some .order) (ho : (s.link i).aux.order = some o)
include hh

theorem LinkAdopted.holds (hp : u.linkOnProgramme i = true) (hn : ¬holdLimitPassed (retimed b i u) i = true) :
    (t.linkRec i).state = .holding ∧ (t.linkRec i).hold = some .order ∧ (t.link i).aux.holdAt = (s.link i).aux.holdAt ∧
      (t.link i).aux.holdTimer = decide (b.holdS ≠ 0) := by
  have hlink : v.link i = { s.link i with aux := { (s.link i).aux with holdTimer := decide (b.holdS ≠ 0) } } := by
    rw [h.adopted hold hb, adoptLink_holds h.lt hab (by rw [h.recBefore]; exact hst) (by rw [h.recBefore]; exact hh) hp hn,
      link_retimed h.lt, h.link]
  have hrec : v.linkRec i = s.linkRec i := (congrArg Link.vis hlink :)
  obtain ⟨hstate, hhold, hat, htimer⟩ := h.of_unmoved hb (.inr ⟨by rw [hrec]; exact hst, by rw [hrec]; exact hh⟩)
  rw [hrec] at hstate hhold
  rw [hlink] at hat htimer
  exact ⟨hstate.trans hst, hhold.trans hh, hat, htimer⟩

omit hst hab hh in
/-- The retune of the order in service has begun at the adoption. -/
theorem LinkAdopted.begun {kept : Bool} {w : State} (hbegun : RetuneBegun i o kept w (adoptLink (some a) (some b) i u)) :
    (t.linkRec i).state = .retuning ∧ (t.linkRec i).hold = none ∧ (t.link i).aux.permitKept = kept := by
  have hv := h.adopted hold hb
  have hret := hbegun.link
  rw [← hv] at hret
  obtain ⟨hrec, hpermit⟩ := h.of_unrated (by rw [State.linkRec, LinkRec.rated, hret.state]; rfl)
  exact ⟨by rw [hrec]; exact hret.state, by rw [hrec]; exact hret.hold, hpermit.trans hret.permit⟩

include ho

theorem LinkAdopted.retunes (hp : u.linkOnProgramme i = false) :
    (t.linkRec i).state = .retuning ∧ (t.linkRec i).hold = none ∧ (t.link i).aux.permitKept = false :=
  h.begun hold hb (adoptLink_retunes h.lt hab (by rw [h.recBefore]; exact hst) (by rw [h.recBefore]; exact hh)
    (by rw [h.link]; exact ho) hp)

theorem LinkAdopted.expires (hp : u.linkOnProgramme i = true) (hn : holdLimitPassed (retimed b i u) i = true) :
    (t.linkRec i).state = .retuning ∧ (t.linkRec i).hold = none ∧ (t.link i).aux.permitKept = true ∧
      ∃ j : JReport, (.supervisor, j) ∈ t.mail.reports ∧ j.kind = .holdExpired ∧ j.subject = i := by
  have hbegun := adoptLink_expires h.lt hab (by rw [h.recBefore]; exact hst) (by rw [h.recBefore]; exact hh)
    (by rw [h.link]; exact ho) hp hn
  obtain ⟨hstate, hnone, hpermit⟩ := h.begun hold hb hbegun
  have hreports := h.reports
  rw [hold, hb] at hreports
  exact ⟨hstate, hnone, hpermit, holdExpiredReport i (retimed b i u),
    (hbegun.reports.trans hreports).subset (List.mem_append_right _ (List.mem_singleton_self _)), rfl, rfl⟩

end

theorem LinkAdopted.released (hh : (s.linkRec i).hold = some .failover) (hf : b.auto = false ∨ b.outRole = none) :
    (t.linkRec i).state = .active ∧ (t.linkRec i).hold = none := by
  have hrec : v.linkRec i = (adoptLink (some a) (some b) i u).linkRec i := (congrArg Link.vis (h.adopted hold hb) :)
  obtain ⟨hactive, hnone⟩ := adoptLink_released h.lt hab (by rw [h.recBefore]; exact hst) (h.linkDef.1.trans hb)
    (by rw [h.recBefore]; exact hh) hf
  obtain ⟨hstate, hhold, -, -⟩ := h.of_unmoved hb (.inl ⟨by rw [hrec]; exact hactive, hf⟩)
  rw [hrec] at hstate hhold
  exact ⟨hstate.trans hactive, hhold.trans hnone⟩

end

end

/-! ### The definitions handed on -/

/-- What follows the taking of the definitions: the unit list, the hand-overs, the kill width and the end of the adoption. -/
def handedOver (c : StationCopy) (s : State) : State :=
  adoptKillWidth c.killWidth { rebuildUnits s with mail := { (rebuildUnits s).mail with
    tallyDefs := (rebuildUnits s).mail.tallyDefs ++ [c.defs], routerDefs := (rebuildUnits s).mail.routerDefs ++ [c.defs] } }

/-- What a state with new definitions becomes when they are handed over and the adoption ends. -/
structure HandedOver (c : StationCopy) (s t : State) : Prop where
  sup : t.sup = s.sup
  units : t.ul.units = unitList s.sup.defs
  width : t.kc.width = c.killWidth
  tallyDefs : t.mail.tallyDefs = s.mail.tallyDefs ++ [c.defs]
  routerDefs : t.mail.routerDefs = s.mail.routerDefs ++ [c.defs]
  mem : t.mem = s.mem
  ctl : t.ctl = s.ctl
  tally : t.tally = s.tally
  router : t.router = s.router
  tb : t.tb = s.tb
  adopt : t.adopt = s.adopt
  lockP : t.lockP = s.lockP
  lockC : t.lockC = s.lockC
  reports : s.mail.reports <+: t.mail.reports

theorem handedOver_spec (c : StationCopy) (s : State) : HandedOver c s (handedOver c s) := by
  have hframe := rebuildUnits_frame s
  have hunits := rebuildUnits_units s
  unfold handedOver
  rw [hframe]
  generalize (rebuildUnits s).ul = ul at hunits
  obtain ⟨hun, hwidth, hreports⟩ := widthAdopted c.killWidth { s with ul := ul, mail := { s.mail with
    tallyDefs := s.mail.tallyDefs ++ [c.defs], routerDefs := s.mail.routerDefs ++ [c.defs] } }
  exact {
    sup := (congrArg State.sup hun :)
    units := (congrArg (fun u => u.ul.units) hun :).trans hunits
    width := hwidth
    tallyDefs := (congrArg (fun u => u.mail.tallyDefs) hun :)
    routerDefs := (congrArg (fun u => u.mail.routerDefs) hun :)
    mem := (congrArg State.mem hun :)
    ctl := (congrArg State.ctl hun :)
    tally := (congrArg State.tally hun :)
    router := (congrArg State.router hun :)
    tb := (congrArg State.tb hun :)
    adopt := (congrArg State.adopt hun :)
    lockP := (congrArg State.lockP hun :)
    lockC := (congrArg State.lockC hun :)
    reports := hreports }

/-- What the end of the station adoption leaves as it was. -/
structure EndKeeps (s t : State) : Prop where
  sup : t.sup = s.sup
  ul : t.ul = s.ul
  kc : t.kc = s.kc
  ctl : t.ctl = s.ctl
  tally : t.tally = s.tally
  router : t.router = s.router
  tb : t.tb = s.tb
  tallyDefs : t.mail.tallyDefs = s.mail.tallyDefs
  routerDefs : t.mail.routerDefs = s.mail.routerDefs
  reports : s.mail.reports <+: t.mail.reports

theorem endStation_keeps (st : AdoptStatus) (s : State) : EndKeeps s (endStation st s) := by
  unfold endStation
  dsimp only
  split <;> exact ⟨rfl, rfl, rfl, rfl, rfl, rfl, rfl, rfl, rfl, List.prefix_append ..⟩

end Sys2Proof.Machine
end

section
/-! PROOFS. O45: definitions reach their owners. -/

open Sys2Proof Sys2Proof.Machine

namespace Sys2Proof.Machine

/-! ### The station adoption's last step -/

section
variable {s : State} {c : StationCopy} (hst : s.adopt.station.stage = .answered) (hc : s.adopt.copy = some c)
include hst hc

theorem stationDefinitionsTakenStep_eq : stationDefinitionsTakenStep s =
    endStation (AdoptStatus.accepted (handedOver c (takeDefinitions c s)).ctl.ruleGen) (handedOver c (takeDefinitions c s)) := by
  unfold stationDefinitionsTakenStep
  rw [hst, hc]
  rfl

/-- What the last step of an accepted station adoption leaves behind. -/
structure DefinitionsTaken (c : StationCopy) (s t : State) : Prop where
  sup : t.sup = (takeDefinitions c s).sup
  units : t.ul.units = unitList c.defs
  width : t.kc.width = c.killWidth
  tallyDefs : t.mail.tallyDefs = s.mail.tallyDefs ++ [c.defs]
  routerDefs : t.mail.routerDefs = s.mail.routerDefs ++ [c.defs]
  ends : StationAdoptionEnds { result := .accepted, reason := .none, subject := none, gen := s.ctl.ruleGen } s t
  mem : t.mem = s.mem
  table : t.ctl.table = s.ctl.table
  rules : t.ctl.rules = s.ctl.rules
  tally : t.tally = s.tally
  router : t.router = s.router
  tb : t.tb = s.tb
  reports : (takeDefinitions c s).mail.reports <+: t.mail.reports

theorem definitionsTaken : DefinitionsTaken c s (stationDefinitionsTakenStep s) := by
  have hstill := takeDefinitions_still c s
  have hover := handedOver_spec c (takeDefinitions c s)
  rw [stationDefinitionsTakenStep_eq hst hc]
  generalize hu : takeDefinitions c s = u at hstill hover ⊢
  generalize handedOver c u = w at hover ⊢
  have hgen : w.ctl.ruleGen = s.ctl.ruleGen := by
    rw [hover.ctl]
    exact (congrArg (fun u => u.ctl.ruleGen) hstill :)
  have hadopt : w.adopt = s.adopt := hover.adopt.trans (adopt_of_still hstill :)
  have htallyDefs : u.mail.tallyDefs = s.mail.tallyDefs := congrArg (fun u => u.mail.tallyDefs) hstill
  have hrouterDefs : u.mail.routerDefs = s.mail.routerDefs := congrArg (fun u => u.mail.routerDefs) hstill
  have hlockP : w.lockP = s.lockP := hover.lockP.trans (congrArg State.lockP hstill :)
  have hlockC : w.lockC = s.lockC := hover.lockC.trans (congrArg State.lockC hstill :)
  obtain ⟨hends, hmem⟩ := endStation_ends (AdoptStatus.accepted w.ctl.ruleGen) w
  have hkeeps := endStation_keeps (AdoptStatus.accepted w.ctl.ruleGen) w
  rw [hgen] at hends hmem hkeeps ⊢
  unfold StationAdoptionEnds at hends
  rw [hadopt, hlockP, hlockC] at hends
  exact {
    sup := hkeeps.sup.trans (hover.sup.trans (by rw [hu]))
    units := by rw [hkeeps.ul, hover.units, (defs_of_still hstill :)]; rfl
    width := by rw [hkeeps.kc, hover.width]
    tallyDefs := by rw [hkeeps.tallyDefs, hover.tallyDefs, htallyDefs]
    routerDefs := by rw [hkeeps.routerDefs, hover.routerDefs, hrouterDefs]
    ends := hends
    mem := hmem.trans (hover.mem.trans (mem_of_still hstill :))
    table := by rw [hkeeps.ctl, hover.ctl]; exact (table_of_still hstill :)
    rules := by rw [hkeeps.ctl, hover.ctl]; exact (rules_of_still hstill :)
    tally := hkeeps.tally.trans (hover.tally.trans (tally_of_still hstill :))
    router := hkeeps.router.trans (hover.router.trans (router_of_still hstill :))
    tb := hkeeps.tb.trans (hover.tb.trans (tb_of_still hstill :))
    reports := by rw [hu]; exact hover.reports.trans hkeeps.reports }

end

/-! ### The tally unit's cameras and the router's images -/

theorem tallyStationAdoptionStep_eq {s : State} {defs : List (Option LinkDef)} {rest : List (List (Option LinkDef))}
    (h : s.mail.tallyDefs = defs :: rest) : tallyStationAdoptionStep s =
      (List.range 32).foldl resolveLink { s with mail.tallyDefs := rest, tally.defs := defs } := by
  unfold tallyStationAdoptionStep
  rw [h]
  rfl

/-- One camera among those found again. -/
theorem foldl_resolveLink {s : State} (hlen : s.tally.cams.length = 32) {c : Nat} (hc : c < 32) :
    ∃ u, camOf u c = camOf s c ∧ Resolved c u (resolveLink u c) ∧ u.tally.defs = s.tally.defs ∧ c < u.tally.cams.length ∧
      camOf ((List.range 32).foldl resolveLink s) c = camOf (resolveLink u c) c := by
  obtain ⟨u, hstill, hcam, hfold⟩ := foldl_at (get := camOf) (still := State.uncued) (f := resolveLink)
    (fun s j i h => (resolved_resolveLink j s).step.others i h) (fun s j => (resolved_resolveLink j s).step.uncued)
    List.nodup_range (List.mem_range.2 hc) s
  exact ⟨u, hcam, resolved_resolveLink c u, (congrArg (fun p => p.1.tally.defs) hstill :),
    hc.trans_eq (hlen.symm.trans (congrArg Prod.snd hstill.symm :)), hfold⟩

theorem routerStationAdoptionStep_eq {s : State} {defs : List (Option LinkDef)} {rest : List (List (Option LinkDef))}
    (h : s.mail.routerDefs = defs :: rest) : routerStationAdoptionStep s =
      rebuild { s with
        mail.routerDefs := rest, router.defs := defs
        router.images := s.router.images.zipIdx.map fun x =>
          if keepsImage (s.router.defs.getD x.2 none) (defs.getD x.2 none) then x.1 else none } := by
  unfold routerStationAdoptionStep
  rw [h]

/-- Settles O45. -/
theorem definitionsReachTheirOwners : Obligations.DefinitionsReachTheirOwners := by
  refine ⟨fun s c hst hc => ?station, fun defs camera => ?linked, fun defs => ⟨unitList_ascending defs, mem_unitList defs⟩,
    fun s defs rest hlen h => ?tally, fun s defs rest h => ?router⟩
  case station =>
    have ht := definitionsTaken hst hc
    refine ⟨_, rfl, ?_, ?_, ht.units, ht.width, ht.tallyDefs, ht.routerDefs, ht.ends, ht.mem, ht.table, ht.rules, ht.tally,
      ht.router, ht.tb, fun hlen i hi => ?_⟩
    · rw [ht.sup]
      exact (defs_of_still (takeDefinitions_still c s) :)
    · rw [ht.sup]
      exact (settings_of_still (takeDefinitions_still c s) :)
    · obtain ⟨u, v, changed, h⟩ := linkAdopted c hlen hi
      replace h := h.of_sup ht.sup ht.reports
      refine ⟨fun b hold hb hv => h.added hold hb hv, fun a hold hb => h.removed hold hb, fun a b hold hb => ⟨?_, ?_, ?_⟩⟩
      · exact h.parked hold hb
      · intro o hstate hh ho hab
        refine ⟨fun hshown hn => ?_, fun hshown => ?_, fun hshown hn => ?_⟩
        · exact h.holds hold hb hstate hab hh ((h.shown hb).2 hshown) fun hp => hn ((h.passed hb).1 hp)
        · exact h.retunes hold hb hstate hab hh ho (Bool.eq_false_of_not_eq_true fun hp => hshown ((h.shown hb).1 hp))
        · exact h.expires hold hb hstate hab hh ho ((h.shown hb).2 hshown) ((h.passed hb).2 hn)
      · exact fun hstate hh hab hf => h.released hold hb hstate hab hh hf
  case linked => exact ⟨linkedLink_eq_none defs camera, linkedLink_eq_some defs camera⟩
  case tally =>
    have huncued := foldl_kept (still := State.uncued) (f := resolveLink)
      (fun s j => (resolved_resolveLink j s).step.uncued) (List.range 32) { s with mail.tallyDefs := rest, tally.defs := defs }
    have hcams := fun c => foldl_resolveLink (s := { s with mail.tallyDefs := rest, tally.defs := defs }) hlen (c := c)
    have heq := tallyStationAdoptionStep_eq h
    refine ⟨_, rfl, ?_⟩
    rw [heq]
    generalize (List.range 32).foldl resolveLink { s with mail.tallyDefs := rest, tally.defs := defs } = t at huncued hcams ⊢
    refine ⟨(congrArg (fun p => p.1.tally.defs) huncued :), (congrArg (fun p => p.1.mail.tallyDefs) huncued :),
      fun c hc => ?_, uncued_frame huncued⟩
    obtain ⟨u, hcam, hres, hdefs, hlt, hfold⟩ := hcams c hc
    dsimp only at hdefs
    rw [hfold]
    refine ⟨by rw [hres.link hlt, hdefs], hres.staged.trans (by rw [hcam]; rfl), hres.applied.trans (by rw [hcam]; rfl), fun hl => ?_⟩
    rw [hres.same (by rw [hcam, hdefs]; exact hl), hcam]
    rfl
  case router =>
    have heq := routerStationAdoptionStep_eq h
    refine ⟨_, rfl, ?_⟩
    rw [heq]
    have hframe := rebuild_frame { s with
      mail.routerDefs := rest, router.defs := defs
      router.images := s.router.images.zipIdx.map fun x =>
        if keepsImage (s.router.defs.getD x.2 none) (defs.getD x.2 none) then x.1 else none }
    have htold := rebuild_told { s with
      mail.routerDefs := rest, router.defs := defs
      router.images := s.router.images.zipIdx.map fun x =>
        if keepsImage (s.router.defs.getD x.2 none) (defs.getD x.2 none) then x.1 else none }
    generalize rebuild { s with
      mail.routerDefs := rest, router.defs := defs
      router.images := s.router.images.zipIdx.map fun x =>
        if keepsImage (s.router.defs.getD x.2 none) (defs.getD x.2 none) then x.1 else none } = t at hframe htold ⊢
    have hrouter : t.router = _ := (congrArg State.router hframe :)
    have himages : t.router.images = _ := (congrArg Router.images hrouter :)
    refine ⟨(congrArg Router.defs hrouter :), (congrArg Router.keys hrouter :), (congrArg Router.plan hrouter :),
      (congrArg (fun u => u.mail.routerDefs) hframe :), fun k a b hk ha hb => ?_, fun k b hk ha hb => ?_, ?_, htold, ?_⟩
    · rw [himages]
      refine (images_getD _ _ _ k hk).trans ?_
      rw [ha, hb]
      simp [keepsImage, and_assoc]
    · rw [himages]
      refine (images_getD _ _ _ k hk).trans ?_
      rw [ha, hb]
      rfl
    · rw [himages]
      exact hrouter
    · rw [hrouter]
      exact hframe

end Sys2Proof.Machine
end

section
/-! PROOFS. O36: a link whose answer has been taken, and the entries of a change. -/

namespace Sys2Proof.Machine

/-! ### LINK entries depend on what is shown (R60) -/

theorem value_of_shown {l m : LinkRec} (h : m.shown = l.shown) : m.value = l.value := by
  simp only [LinkRec.shown, Prod.mk_inj] at h
  obtain ⟨hstate, hout, hin, ⟨hu, hs, hr⟩, hblock, hhold⟩ := h
  simp only [LinkRec.value, LinkRec.health, LinkRec.flags, hstate, hout, hin, hu, hs, hr, hblock, hhold]

theorem shown_withOut {l m : LinkRec} (h : m.shown = l.shown) (x : Option Health) :
    ({ m with outRec.health := x } : LinkRec).shown = ({ l with outRec.health := x } : LinkRec).shown := by
  simp only [LinkRec.shown, Prod.mk_inj] at h ⊢
  obtain ⟨hstate, -, hrest⟩ := h
  exact ⟨hstate, trivial, hrest⟩

theorem shown_withIn {l m : LinkRec} (h : m.shown = l.shown) (x : Option Health) :
    ({ m with inRec.health := x } : LinkRec).shown = ({ l with inRec.health := x } : LinkRec).shown := by
  simp only [LinkRec.shown, Prod.mk_inj] at h ⊢
  obtain ⟨hstate, hout, -, hrest⟩ := h
  exact ⟨hstate, hout, trivial, hrest⟩

theorem linkEntries_of_shown {i : Nat} {old new new' : LinkRec} {s t : State} (h : new'.shown = new.shown) (hnow : t.now = s.now) :
    linkEntries i old new' t = linkEntries i old new s := by
  have hab := value_of_shown h
  have hb := value_of_shown (shown_withIn h old.inRec.health)
  have ha := value_of_shown (shown_withIn (shown_withOut h old.outRec.health) old.inRec.health)
  unfold linkEntries
  dsimp only at ha hb ⊢
  rw [hab, hb, ha, hnow]

/-! ### An answer has been taken -/

/-- The state without what the taking of an answer alters. -/
def State.unanswered (s : State) : State :=
  { s.unlinked with
    ctl.queue := []
    mail := { s.unlinked.mail with
      planAnswers := [], insertAnswers := [], takeAnswers := [], learnAnswers := [], liveAnswers := [] } }

/-- The answer to a link's request has been taken: of the link, its gate and what it notes of planning changed. -/
structure Answered (i : Nat) (s u : State) : Prop where
  op : LinkOp i s u
  link : ∃ a b c p n, u.link i = { s.link i with aux := { (s.link i).aux.gated a b c with planOut := p, attempts := n } }
  rest : u.unanswered = s.unanswered
  reports : u.mail.reports = s.mail.reports

section
variable {i : Nat} {s u : State} (h : Answered i s u)
include h

theorem Answered.linkRec : u.linkRec i = s.linkRec i := by
  obtain ⟨a, b, c, p, n, hlink⟩ := h.link
  rw [State.linkRec, hlink]
  rfl

theorem Answered.seq : (u.link i).aux.seq = (s.link i).aux.seq := by
  obtain ⟨a, b, c, p, n, hlink⟩ := h.link
  rw [hlink]
  rfl

theorem Answered.permitKept : (u.link i).aux.permitKept = (s.link i).aux.permitKept := by
  obtain ⟨a, b, c, p, n, hlink⟩ := h.link
  rw [hlink]
  rfl

theorem Answered.began : (u.link i).aux.began = (s.link i).aux.began := by
  obtain ⟨a, b, c, p, n, hlink⟩ := h.link
  rw [hlink]
  rfl

theorem Answered.order : (u.link i).aux.order = (s.link i).aux.order := by
  obtain ⟨a, b, c, p, n, hlink⟩ := h.link
  rw [hlink]
  rfl

theorem Answered.retryAt : (u.link i).aux.retryAt = (s.link i).aux.retryAt := by
  obtain ⟨a, b, c, p, n, hlink⟩ := h.link
  rw [hlink]
  rfl

theorem Answered.staleExpired : (u.link i).aux.staleExpired = (s.link i).aux.staleExpired := by
  obtain ⟨a, b, c, p, n, hlink⟩ := h.link
  rw [hlink]
  rfl

theorem Answered.linkDef : u.linkDef i = s.linkDef i := (congrArg (fun u => u.linkDef i) h.rest :)
theorem Answered.linkOnProgramme : u.linkOnProgramme i = s.linkOnProgramme i := (congrArg (fun u => u.linkOnProgramme i) h.rest :)
theorem Answered.mem : u.mem = s.mem := (congrArg State.mem h.rest :)
theorem Answered.disp : u.disp = s.disp := (congrArg State.disp h.rest :)
theorem Answered.ul : u.ul = s.ul := (congrArg State.ul h.rest :)
theorem Answered.kc : u.kc = s.kc := (congrArg State.kc h.rest :)
theorem Answered.tb : u.tb = s.tb := (congrArg State.tb h.rest :)
theorem Answered.now : u.now = s.now := (congrArg State.now h.rest :)
theorem Answered.settings : u.sup.settings = s.sup.settings := (congrArg (fun u => u.sup.settings) h.rest :)
theorem Answered.muteLists : u.mail.muteLists = s.mail.muteLists := (congrArg (fun u => u.mail.muteLists) h.rest :)

theorem Answered.calm (hcalm : Calm s (s.link i)) : Calm u (u.link i) := by
  obtain ⟨hstale, hmiss⟩ := hcalm
  refine ⟨h.staleExpired.trans hstale, ?_⟩
  have hrec : (u.link i).vis = (s.link i).vis := h.linkRec
  rw [hrec, h.settings]
  exact hmiss

theorem Answered.lt (hi : i < s.sup.links.length) : i < u.sup.links.length := h.op.lt hi

theorem Answered.orderEnds {g : OrderTag} {st x : Nat} {k : ResultCode} {t : State} (ht : OrderEnds g st k x u t) :
    OrderEnds g st k x s t := by
  obtain ⟨hshows, htime, houtside, hservice⟩ := ht
  rw [h.mem] at houtside
  rw [h.disp] at hservice
  exact ⟨hshows, htime, houtside, hservice⟩

end

/-! ### What the gate does with an answer (R26) -/

theorem linkAnswered_none {i : Nat} {s : State} (h : (s.link i).aux.held = []) :
    linkAnswered i s = modAux i (fun a => { a with outstanding := false }) s := by
  unfold linkAnswered
  rw [h]

theorem linkAnswered_next {i : Nat} {s : State} {r : CtlReq} {q : List CtlReq} (h : (s.link i).aux.held = r :: q) :
    linkAnswered i s = pushRequest r (modAux i (fun a => { a with outstanding := true, held := q }) s) := by
  unfold linkAnswered
  rw [h]

theorem LinkOp.linkAnswered (i : Nat) (s : State) : LinkOp i s (linkAnswered i s) := by
  unfold Machine.linkAnswered
  split
  · exact .modAux ..
  · exact (LinkOp.modAux i (fun a => { a with outstanding := true, held := _ }) s).trans (.of_links rfl)

theorem link_linkAnswered {i : Nat} {s : State} (hi : i < s.sup.links.length) :
    ∃ a b, (linkAnswered i s).link i = { s.link i with aux := { (s.link i).aux with outstanding := a, held := b } } := by
  unfold linkAnswered
  split
  · exact ⟨_, _, link_modAux_self hi _⟩
  · exact ⟨_, _, (link_modAux_self hi fun a => { a with outstanding := true, held := _ } :)⟩

/-- The gate after an answer with nothing held. -/
theorem linkAnswered_idle {i : Nat} {s : State} (hi : i < s.sup.links.length) (h : (s.link i).aux.held = []) :
    (linkAnswered i s).ctl = s.ctl ∧ ((s.link i).aux.killWait = [] → ((linkAnswered i s).link i).open) := by
  rw [linkAnswered_none h]
  refine ⟨rfl, fun hwait => ?_⟩
  rw [link_modAux_self hi]
  exact ⟨rfl, hwait⟩

theorem answered_linkAnswered {i : Nat} {s s' : State} (hi : i < s.sup.links.length) (hlinks : s'.sup = s.sup)
    (hrest : s'.unanswered = s.unanswered) (hreports : s'.mail.reports = s.mail.reports) : Answered i s (linkAnswered i s') := by
  have hlink : s'.link i = s.link i := by
    unfold State.link
    rw [hlinks]
  have hi' : i < s'.sup.links.length := by rw [hlinks]; exact hi
  obtain ⟨a, b, hl⟩ := link_linkAnswered hi'
  rw [hlink] at hl
  refine ⟨(LinkOp.of_links (congrArg Supervisor.links hlinks)).trans (.linkAnswered ..), ⟨a, b, _, _, _, hl⟩, ?_, ?_⟩
  · rw [← hrest, linkAnswered_frame]
    rfl
  · rw [linkAnswered_frame]
    exact hreports

/-! ### The controller's word about a sequence's roles (R65) -/

theorem keepCodes_eq (roles : List RoleAnswer) (l : Link) : ∃ o n, keepCodes roles l =
    { l with vis := { l.vis with outRec.fresh := o, inRec.fresh := n } } := by
  unfold keepCodes
  induction roles generalizing l with
  | nil => exact ⟨_, _, rfl⟩
  | cons x roles ih =>
    obtain ⟨o, n, h⟩ := ih { l with vis := l.vis.setRole x.role { l.vis.role x.role with fresh := some x.code } }
    refine ⟨o, n, ?_⟩
    rw [List.foldl_cons, h]
    cases x.role <;> rfl

theorem keepAnswers_eq (roles : List RoleAnswer) (l : Link) : ∃ x y, keepAnswers roles l =
    { l with aux := { l.aux with answerOut := x, answerIn := y } } := by
  unfold keepAnswers
  induction roles generalizing l with
  | nil => exact ⟨_, _, rfl⟩
  | cons a roles ih =>
    rw [List.foldl_cons]
    cases a.role with
    | outbound =>
      obtain ⟨x, y, h⟩ := ih { l with aux := { l.aux with answerOut := some a } }
      exact ⟨x, y, h⟩
    | inbound =>
      obtain ⟨x, y, h⟩ := ih { l with aux := { l.aux with answerIn := some a } }
      exact ⟨x, y, h⟩

/-- A link whose new entries are in the table. -/
def Link.arrived (roles : List RoleAnswer) (l : Link) : Link :=
  let m := keepAnswers roles (keepCodes roles l)
  { m with vis := { m.vis with state := if m.vis.state = .planning then .tuning else m.vis.state } }

theorem arrived_eq (roles : List RoleAnswer) (l : Link) : ∃ o n x y, l.arrived roles =
    { vis := { l.vis with
        state := if l.vis.state = .planning then .tuning else l.vis.state, outRec.fresh := o, inRec.fresh := n }
      aux := { l.aux with answerOut := x, answerIn := y } } := by
  obtain ⟨o, n, hcodes⟩ := keepCodes_eq roles l
  obtain ⟨x, y, hanswers⟩ := keepAnswers_eq roles (keepCodes roles l)
  refine ⟨o, n, x, y, ?_⟩
  unfold Link.arrived
  rw [hanswers, hcodes]

/-- The one new code of a sequence of one role. -/
theorem newCodes_arrived {x : RoleAnswer} {l : Link} (h : ∀ r, l.vis.inSequence r = true ↔ r = x.role) :
    (l.arrived [x]).vis.newCodes = [(x.role, x.code)] := by
  have hout := h .outbound
  have hin := h .inbound
  simp only [LinkRec.inSequence] at hout hin
  unfold Link.arrived keepAnswers keepCodes LinkRec.newCodes
  cases hr : x.role <;> simp [hr] at hout hin <;> simp [hr, LinkRec.setRole, hout, hin]

/-! ### The permit of a sequence whose entries are in the table (R72) -/

/-- The programme takes the permit of a retune or a failover. -/
def PermitWithdrawn (s : State) (i : Nat) : Prop :=
  ((s.linkRec i).seqKind = .retune ∨ (s.linkRec i).seqKind = .failover) ∧ (s.link i).aux.permitKept = false ∧
    s.linkOnProgramme i = true

section
variable {i : Nat} {s : State} (roles : List RoleAnswer) (hi : i < s.sup.links.length)
include hi

theorem inserted_eq [Decidable (PermitWithdrawn s i)] : inserted i roles s =
    if PermitWithdrawn s i then holdAgain i (modLink i (Link.arrived roles) s) else goTuneSent i (modLink i (Link.arrived roles) s) := by
  have hlink := link_modLink_self hi (Link.arrived roles)
  have hprog := linkOnProgramme_of_unlinked (modLink_unlinked i (Link.arrived roles) s) i
  obtain ⟨o, n, x, y, harr⟩ := arrived_eq roles (s.link i)
  rw [harr] at hlink
  have heq : inserted i roles s =
      (let l := (modLink i (Link.arrived roles) s).link i
       if (l.vis.seqKind = .retune || l.vis.seqKind = .failover) && !l.aux.permitKept &&
         (modLink i (Link.arrived roles) s).linkOnProgramme i then holdAgain i (modLink i (Link.arrived roles) s)
       else goTuneSent i (modLink i (Link.arrived roles) s)) := rfl
  rw [heq]
  dsimp only
  rw [hlink, hprog]
  exact if_congr (by simp [PermitWithdrawn, State.linkRec, and_assoc]) rfl rfl

end

end Sys2Proof.Machine
end

section
/-! PROOFS. O36: what an answer makes of a sequence: its TUNE, a hold again, or the way back. -/

namespace Sys2Proof.Machine

/-! ### The TUNE (R65) -/

theorem goTuneSent_eq (i : Nat) (s : State) :
    goTuneSent i s = queueForSequence i .tune (modLink i (fun l => { l with vis := { l.vis with phase := .tuneSent } }) s) := rfl

/-- A link's TUNE is queued for its sequence. -/
structure TuneSent (i : Nat) (d : LinkDef) (s t : State) : Prop where
  op : LinkOp i s t
  phase : (t.linkRec i).phase = .tuneSent
  state : (t.linkRec i).state = (s.linkRec i).state
  queued : ∃ x ∈ t.ul.controlQ, x.link = i ∧ x.kind = .tune ∧ x.seq = (s.link i).aux.seq ∧ x.unit = d.unit ∧ x.chan = d.chan ∧
    x.roleOut = (s.linkRec i).seqOut ∧ x.roleIn = (s.linkRec i).seqIn

theorem tuneSent_goTuneSent {i : Nat} {d : LinkDef} {s : State} (hi : i < s.sup.links.length) (hd : s.linkDef i = some d) :
    TuneSent i d s (goTuneSent i s) := by
  have hop := LinkOp.modLink i (fun l => { l with vis := { l.vis with phase := .tuneSent } }) s
  have hlink := link_modLink_self hi fun l => { l with vis := { l.vis with phase := .tuneSent } }
  have hun := modLink_unlinked i (fun l => { l with vis := { l.vis with phase := .tuneSent } }) s
  rw [goTuneSent_eq]
  generalize modLink i (fun l => { l with vis := { l.vis with phase := .tuneSent } }) s = v at hop hlink hun
  have hvis : v.linkRec i = { s.linkRec i with phase := .tuneSent } := by
    rw [State.linkRec, hlink]
    rfl
  have hrec : (queueForSequence i .tune v).linkRec i = { s.linkRec i with phase := .tuneSent } := by
    rw [State.linkRec, queueForSequence_link]
    exact hvis
  refine ⟨hop.trans (.of_links ?_), by rw [hrec], by rw [hrec],
    _, mem_queueForSequence ((linkDef_of_unlinked hun i).trans hd) .tune, rfl, rfl, ?_, rfl, rfl, ?_, ?_⟩
  · rw [queueForSequence_frame]
  · rw [controlReq, hlink]
  · rw [controlReq, hvis]
  · rw [controlReq, hvis]

section
variable {i : Nat} {s u : State} (h : Answered i s u) (hi : i < s.sup.links.length)
include h

theorem Answered.permitWithdrawn : PermitWithdrawn u i ↔ PermitWithdrawn s i := by
  unfold PermitWithdrawn
  rw [h.linkRec, h.permitKept, h.linkOnProgramme]

include hi

/-- With its permit, the sequence goes on with its TUNE. -/
theorem Answered.tunes {d : LinkDef} (roles : List RoleAnswer) (hd : s.linkDef i = some d) (hp : ¬PermitWithdrawn s i) :
    OtherLinks i s (inserted i roles u) ∧ ((inserted i roles u).linkRec i).phase = .tuneSent ∧
      ((inserted i roles u).linkRec i).state = (if (s.linkRec i).state = .planning then .tuning else (s.linkRec i).state) ∧
      ∃ x ∈ (inserted i roles u).ul.controlQ, x.link = i ∧ x.kind = .tune ∧ x.seq = (s.link i).aux.seq ∧
        x.unit = d.unit ∧ x.chan = d.chan ∧ x.roleOut = (s.linkRec i).seqOut ∧ x.roleIn = (s.linkRec i).seqIn := by
  classical
  have heq := (inserted_eq roles (h.lt hi)).trans (if_neg fun hw => hp (h.permitWithdrawn.1 hw))
  have hop := LinkOp.modLink i (Link.arrived roles) u
  have hlink := link_modLink_self (h.lt hi) (Link.arrived roles)
  have hun := modLink_unlinked i (Link.arrived roles) u
  obtain ⟨o, n, x, y, harr⟩ := arrived_eq roles (u.link i)
  rw [harr] at hlink
  have hsent := tuneSent_goTuneSent (hop.lt (h.lt hi)) ((linkDef_of_unlinked hun i).trans (h.linkDef.trans hd))
  rw [← heq] at hsent
  generalize modLink i (Link.arrived roles) u = v at hop hlink hsent
  have hvis : v.linkRec i = { s.linkRec i with
      state := if (s.linkRec i).state = .planning then .tuning else (s.linkRec i).state
      outRec.fresh := o, inRec.fresh := n } := by
    rw [State.linkRec, hlink, ← h.linkRec]
    rfl
  have hseq : (v.link i).aux.seq = (s.link i).aux.seq := by
    rw [hlink]
    exact h.seq
  obtain ⟨hop', hphase, hstate, hqueued⟩ := hsent
  rw [hvis] at hstate hqueued
  rw [hseq] at hqueued
  exact ⟨((h.op.trans hop).trans hop').others, hphase, hstate, hqueued⟩

/-! ### A hold again (R72) -/

/-- A hold that an answer without its permit has begun again. -/
structure InsertHeld (i : Nat) (reason : HoldReason) (roles : List RoleAnswer) (s u t : State) : Prop where
  others : OtherLinks i s t
  state : (t.linkRec i).state = .holding
  hold : (t.linkRec i).hold = some reason
  start : (t.linkRec i).holdStart = some s.now
  seqKind : (t.linkRec i).seqKind = .noSequence
  cell : (t.linkRec i).orderCell = (s.linkRec i).orderCell
  ul : t.ul = s.ul
  mem : t.mem = s.mem
  sent : (u.link i).open → ∀ x, roles = [x] → (∀ r, (s.linkRec i).inSequence r = true ↔ r = x.role) →
    t.ctl = { u.ctl with queue := u.ctl.queue ++
      [.update i (s.link i).aux.seq false [{ role := x.role, code := x.code, change := .remove }]] }

theorem Answered.insertHeld (reason : HoldReason) (roles : List RoleAnswer) :
    InsertHeld i reason roles s u (beginHold i reason (removeNew i (modLink i (Link.arrived roles) u))) := by
  have hop := LinkOp.modLink i (Link.arrived roles) u
  have hlink := link_modLink_self (h.lt hi) (Link.arrived roles)
  have hun := modLink_unlinked i (Link.arrived roles) u
  have hheld := heldAgain_beginHold reason (hop.lt (h.lt hi))
  generalize modLink i (Link.arrived roles) u = v at hop hlink hun hheld
  obtain ⟨o, n, x, y, harr⟩ := arrived_eq roles (u.link i)
  have hcell : (v.linkRec i).orderCell = (s.linkRec i).orderCell := by
    rw [State.linkRec, hlink, harr, ← h.linkRec]
    rfl
  have hrest := hheld.rest
  generalize beginHold i reason (removeNew i v) = t at hheld hrest
  refine ⟨((h.op.trans hop).trans hheld.op).others, hheld.state, hheld.hold, hheld.start.trans ?_, hheld.seqKind,
    hheld.cell.trans hcell, ?_, ?_, fun hopen x hx hr => ?_⟩
  · rw [now_of_unlinked hun, h.now]
  · exact (congrArg State.ul hrest :).trans ((ul_of_unlinked hun).trans h.ul)
  · exact (congrArg State.mem hrest :).trans ((mem_of_unlinked hun).trans h.mem)
  · have hopen' : (v.link i).open := by
      rw [hlink, harr]
      exact hopen
    have hseq : (v.link i).aux.seq = (s.link i).aux.seq := by
      rw [hlink, harr]
      exact h.seq
    have hcodes : (v.linkRec i).newCodes = [(x.role, x.code)] := by
      rw [State.linkRec, hlink, hx]
      refine newCodes_arrived fun r => ?_
      rw [← hr, ← h.linkRec]
      rfl
    have hsent := hheld.removed hopen'
    rw [LinkRec.gone, hcodes, hseq, ctl_of_unlinked hun] at hsent
    exact hsent

/-- Of a retune. -/
theorem Answered.holds_retune (roles : List RoleAnswer) (hw : PermitWithdrawn s i) (hk : (s.linkRec i).seqKind = .retune) :
    InsertHeld i .order roles s u (inserted i roles u) := by
  classical
  obtain ⟨o, n, x, y, harr⟩ := arrived_eq roles (u.link i)
  have hkind : ¬((modLink i (Link.arrived roles) u).linkRec i).seqKind = .failover := by
    rw [linkRec_modLink, if_pos ⟨rfl, h.lt hi⟩, harr]
    dsimp only
    rw [show (u.link i).vis = s.linkRec i from h.linkRec, hk]
    decide
  rw [inserted_eq roles (h.lt hi), if_pos (h.permitWithdrawn.2 hw), holdAgain_eq, if_neg hkind]
  exact h.insertHeld hi .order roles

end

/-- What a hold that begins keeps of its link. -/
theorem holding_keeps (s : State) (reason : HoldReason) (limit : Nat) (l : Link) :
    (l.holding s reason limit).aux.staleExpired = l.aux.staleExpired ∧
      (l.holding s reason limit).vis.misses = l.vis.misses ∧
      ∀ r, ((l.holding s reason limit).vis.role r).health = (l.vis.role r).health := by
  obtain ⟨x, a, b, c, hl⟩ := endHold_eq s l
  unfold Link.holding
  rw [hl]
  exact ⟨rfl, rfl, fun r => by cases r <;> rfl⟩

/-- An entry into HOLDING of a link that nothing waits for changes no health. -/
theorem beginHold_calm {i : Nat} {s : State} (reason : HoldReason) (hi : i < s.sup.links.length) (hcalm : Calm s (s.link i)) (r : Role) :
    (((beginHold i reason s).linkRec i).role r).health = ((s.linkRec i).role r).health := by
  rw [beginHold_eq]
  generalize ((s.linkDef i).map (·.holdS)).getD 0 = limit
  have hlink := link_modLink_self hi (Link.holding s reason limit)
  have hset := settings_of_unlinked (modLink_unlinked i (Link.holding s reason limit) s)
  obtain ⟨hstale, hmisses, hhealth⟩ := holding_keeps s reason limit (s.link i)
  obtain ⟨hfresh, hbelow⟩ := hcalm
  rw [entryHealth_calm (i := i) (by rw [Calm, hlink, hset, hstale, hmisses]; exact ⟨hfresh, hbelow⟩), State.linkRec, hlink, hhealth]
  rfl

section
variable {i : Nat} {s u : State} (h : Answered i s u) (hi : i < s.sup.links.length)
include h hi

/-- Of a failover. -/
theorem Answered.holds_failover (roles : List RoleAnswer) (hw : PermitWithdrawn s i) (hk : (s.linkRec i).seqKind = .failover)
    (hcalm : Calm s (s.link i)) : InsertHeld i .failover roles s u (inserted i roles u) := by
  classical
  have hop := LinkOp.modLink i (Link.arrived roles) u
  have hlink := link_modLink_self (h.lt hi) (Link.arrived roles)
  have hset := settings_of_unlinked (modLink_unlinked i (Link.arrived roles) u)
  have hheld := h.insertHeld hi .failover roles
  obtain ⟨o, n, x, y, harr⟩ := arrived_eq roles (u.link i)
  rw [harr] at hlink
  rw [inserted_eq roles (h.lt hi), if_pos (h.permitWithdrawn.2 hw), holdAgain_eq]
  generalize modLink i (Link.arrived roles) u = v at hop hlink hset hheld ⊢
  have hkind : (v.linkRec i).seqKind = .failover := by
    rw [State.linkRec, hlink]
    dsimp only
    rw [show (u.link i).vis = s.linkRec i from h.linkRec, hk]
  obtain ⟨hop', hrest', ⟨a, b, c, hlink'⟩, -⟩ := removeNew_spec (hop.lt (h.lt hi))
  have hset' : (removeNew i v).sup.settings = v.sup.settings := (congrArg (fun u => u.sup.settings) hrest' :)
  have hcalm' : Calm (removeNew i v) ((removeNew i v).link i) := by
    obtain ⟨hstale, hmiss⟩ := h.calm hcalm
    refine ⟨?_, ?_⟩
    · rw [hlink', hlink]
      exact hstale
    · rw [hlink', hlink, hset', hset]
      exact hmiss
  have hhealth (r : Role) : (((beginHold i .failover (removeNew i v)).linkRec i).role r).health = ((v.linkRec i).role r).health := by
    rw [beginHold_calm _ (hop'.lt (hop.lt (h.lt hi))) hcalm', State.linkRec, hlink']
    rfl
  rw [if_pos hkind]
  dsimp only
  rw [if_pos ⟨hhealth .outbound, hhealth .inbound⟩]
  exact hheld

end

/-! ### The way back (R64, R65, R74) -/

section
variable {i : Nat} {s : State}

/-- The state of a sequence that goes back, its order or none completed. -/
theorem returned_record {f : Link → Link} (k : ResultCode) (hi : i < s.sup.links.length)
    (hf : (f (s.link i)).aux.began = (s.link i).aux.began) :
    ((returned f i k s).linkRec i).state = (s.link i).aux.began ∧ ((returned f i k s).linkRec i).seqKind = .noSequence := by
  obtain ⟨c, o, hlink⟩ := link_returned (f := f) k hi
  exact ⟨(state_of_unrated hlink :).trans hf, (seqKind_of_unrated hlink :)⟩

/-- The attempts that the order of a sequence reports. -/
theorem returned_attempts {f : Link → Link} {o : LinkOrder} (k : ResultCode) (hm : Memory.wf s.mem)
    (ho : (s.link i).aux.order = some o) (hk : o.kind ≠ .park) :
    resultByte (returned f i k s).mem o.tag.cell 1 = (s.link i).aux.attempts % 256 := by
  have hm' : Memory.wf (modLink i (fun l => (f l).backToStart) s).mem := by
    rw [mem_of_unlinked (modLink_unlinked ..)]
    exact hm
  rw [mem_of_unlinked (returned_unlinked ..)]
  exact completeLinkOrder_attempts ho hk hm'

/-- Without an order, and with nothing that waits for an entry into ACTIVE, the link alone changes, once. -/
theorem returned_calm {f : Link → Link} (k : ResultCode) (hi : i < s.sup.links.length) (ho : (s.link i).aux.order = none)
    (hcalm : Calm s (f (s.link i))) : returned f i k s = modLink i (fun l => (f l).backToStart) s := by
  have hset := settings_of_unlinked (modLink_unlinked i (fun l => (f l).backToStart) s)
  have hlink := link_modLink_self hi fun l => (f l).backToStart
  have hidle : entryHealth i (modLink i (fun l => (f l).backToStart) s) = modLink i (fun l => (f l).backToStart) s := by
    refine entryHealth_calm ?_
    obtain ⟨hstale, hmiss⟩ := hcalm
    rw [hlink]
    exact ⟨hstale, by rw [hset]; exact hmiss⟩
  unfold returned
  dsimp only
  rw [completeLinkOrder_none ho, hidle]
  exact ite_self _

end

/-- A refused answer: the way back with the order's completion. -/
structure WentBack (i : Nat) (o : LinkOrder) (code : ResultCode) (attempts : Nat) (s t : State) : Prop where
  others : OtherLinks i s t
  state : (t.linkRec i).state = (s.link i).aux.began
  seqKind : (t.linkRec i).seqKind = .noSequence
  cell : (t.linkRec i).orderCell = none
  ends : OrderEnds o.tag 4 code i s t
  attempts : resultByte t.mem o.tag.cell 1 = attempts % 256

theorem Answered.wentBack {i : Nat} {s u : State} {o : LinkOrder} (h : Answered i s u) (hi : i < s.sup.links.length) (h96 : i < 96)
    (hm : Memory.wf s.mem) (roles : List RoleAnswer) (code : ResultCode) (ho : (s.link i).aux.order = some o) (hk : o.kind ≠ .park) :
    ∃ t, returnToStart i code (modLink i (keepAnswers roles) u) =
        (if (s.link i).aux.began = .active then evaluateFailover i t else t) ∧
      WentBack i o code (u.link i).aux.attempts s t := by
  have hop := LinkOp.modLink i (keepAnswers roles) u
  have hlink := link_modLink_self (h.lt hi) (keepAnswers roles)
  have hun := modLink_unlinked i (keepAnswers roles) u
  generalize modLink i (keepAnswers roles) u = v at hop hlink hun
  obtain ⟨x, y, hkept⟩ := keepAnswers_eq roles (u.link i)
  rw [hkept] at hlink
  have hbegan : (v.link i).aux.began = (s.link i).aux.began := by
    rw [hlink]
    exact h.began
  have horder : (v.link i).aux.order = some o := by
    rw [hlink]
    exact h.order.trans ho
  have hattempts : (v.link i).aux.attempts = (u.link i).aux.attempts := by rw [hlink]
  have hmem : Memory.wf v.mem := by
    rw [mem_of_unlinked hun, h.mem]
    exact hm
  obtain ⟨hstate, hkind⟩ := returned_record (f := id) code (hop.lt (h.lt hi)) rfl
  obtain ⟨hends, hcell⟩ := returned_ends (f := id) code (hop.lt (h.lt hi)) hmem h96 horder
  refine ⟨returned id i code v, ?_, ((h.op.trans hop).trans (.returned ..)).others, hstate.trans hbegan, hkind, hcell,
    h.orderEnds (orderEnds_of_unlinked hends hun), ?_⟩
  · rw [← hbegan]
    exact returnWith_eq ..
  · rw [returned_attempts code hmem horder hk, hattempts]

end Sys2Proof.Machine
end

section
/-! PROOFS. O36: what a refused TAKE, a LEARN and the LIVE UPDATE make of their link. -/

namespace Sys2Proof.Machine

/-! ### A refused TAKE (R74) -/

/-- A failover that has ended without a carrier. -/
structure TakeRefused (i : Nat) (s t : State) : Prop where
  others : OtherLinks i s t
  state : (t.linkRec i).state = .active
  seqKind : (t.linkRec i).seqKind = .noSequence
  mem : t.mem = s.mem

section
variable {i : Nat} {s u : State} (h : Answered i s u) (hi : i < s.sup.links.length) (hbegan : (s.link i).aux.began = .active)
  (ho : (s.link i).aux.order = none)
include h hi hbegan ho

theorem Answered.takeRefused (f : Link → Link) (k : ResultCode) (hf : (f (u.link i)).aux.began = (u.link i).aux.began) :
    TakeRefused i s (returned f i k u) := by
  obtain ⟨hstate, hkind⟩ := returned_record (f := f) k (h.lt hi) hf
  exact ⟨(h.op.trans (.returned ..)).others, hstate.trans (h.began.trans hbegan), hkind,
    (returned_mem _ _ (h.order.trans ho)).trans h.mem⟩

/-- NO_RESERVE and TABLE_FULL set a block. -/
theorem Answered.takeBlocked (b : FailoverBlock) (k : ResultCode) :
    TakeRefused i s (returnBlocked b i k u) ∧ ((returnBlocked b i k u).linkRec i).block = b ∧
      (Calm s (s.link i) → (returnBlocked b i k u).mail.reports =
        s.mail.reports ++ linkEntries i (s.linkRec i) ((returnBlocked b i k u).linkRec i) s) ∧
      ((returnBlocked b i k u).link i).aux.retryAt = some (s.tb.elapsed + s.sup.settings.periodMs * 768) := by
  obtain ⟨heq, hretry⟩ := returnBlocked_eq b k (h.lt hi)
  obtain ⟨c, o, hlink⟩ := link_returned (f := Link.blockFailover u b) k (h.lt hi)
  rw [heq]
  refine ⟨h.takeRefused hi hbegan ho _ k rfl, (congrArg (fun l => l.vis.block) hlink :), fun hcalm => ?_, ?_⟩
  · have hrec : (modLink i (fun l => (Link.blockFailover u b l).backToStart) u).linkRec i =
        (Link.blockFailover u b (u.link i)).backToStart.vis := congrArg Link.vis (link_modLink_self (h.lt hi) _)
    rw [returned_calm k (h.lt hi) (h.order.trans ho) (h.calm hcalm), modLink_reports, h.reports, hrec, h.linkRec,
      linkEntries_of_shown rfl h.now]
  · rw [hretry, h.tb, h.settings]

/-- WRONG_STATE sets none. -/
theorem Answered.takeVoid (k : ResultCode) : TakeRefused i s (returned id i k u) ∧
    ((returned id i k u).linkRec i).block = (s.linkRec i).block ∧
    ((returned id i k u).link i).aux.retryAt = (s.link i).aux.retryAt := by
  obtain ⟨c, o, hlink⟩ := link_returned (f := id) k (h.lt hi)
  refine ⟨h.takeRefused hi hbegan ho id k rfl, ?_, ?_⟩
  · rw [← h.linkRec]
    exact (congrArg (fun l => l.vis.block) hlink :)
  · rw [← h.retryAt]
    exact (congrArg (fun l => l.aux.retryAt) hlink :)

end

/-! ### A LEARN (R76) -/

/-- A link without the records of its roles. -/
def Link.roleless (l : Link) : Link :=
  { vis := { l.vis with outRec := RoleRec.reset, inRec := RoleRec.reset }
    aux := { l.aux with outDegradedAt := none, inDegradedAt := none } }

theorem roleless_of_unrated {l m : Link} (h : m.unrated = l.unrated) : m.roleless = l.roleless := (congrArg Link.roleless h :)

theorem roleless_setRole (l : Link) (r : Role) (x : RoleRec) :
    ({ l with vis := l.vis.setRole r x } : Link).roleless = l.roleless := by cases r <;> rfl

/-- One role's part in a LEARN. -/
def Link.learnRole (s : State) (roles : List RoleAnswer) (l : Link) (r : Role) : Link :=
  match roles.find? (fun a => a.role = r) with
  | none => l.settle s r (some .lost)
  | some a =>
    if a.result = .ok then
      { l.settle s r (some .good) with
        vis := (l.settle s r (some .good)).vis.setRole r { (l.settle s r (some .good)).vis.role r with present := some a.code } }
    else l.settle s r (some .good)

/-- A role's record after a LEARN. -/
def RoleRec.learned (now : Timestamp) (roles : List RoleAnswer) (r : Role) (x : RoleRec) : RoleRec :=
  match roles.find? (fun a => a.role = r) with
  | none => x.settle now .lost
  | some a => if a.result = .ok then { x.settle now .good with present := some a.code } else x.settle now .good

theorem learnedLink_eq (s : State) (d : LinkDef) (roles : List RoleAnswer) (l : Link) : learnedLink s d roles l =
    let m := d.declared.foldl (Link.learnRole s roles) l
    { m with vis := { m.vis with learning := 0, untracked := m.vis.untracked || roles.any fun a => a.result = .tableFull } } := rfl

theorem learnRole_role (s : State) (roles : List RoleAnswer) (l : Link) (r q : Role) :
    (l.learnRole s roles r).vis.role q = if q = r then (l.vis.role r).learned s.now roles r else l.vis.role q := by
  unfold Link.learnRole RoleRec.learned
  cases roles.find? (fun a => a.role = r) with
  | none => exact settle_vis_role ..
  | some a =>
    dsimp only
    split
    · rw [setRole_role, settle_vis_role, if_pos rfl]
      split
      · rfl
      · next hq => rw [settle_vis_role, if_neg hq]
    · exact settle_vis_role ..

theorem learnRole_roleless (s : State) (roles : List RoleAnswer) (l : Link) (r : Role) :
    (l.learnRole s roles r).roleless = l.roleless := by
  have hsettle (h : Option Health) := roleless_of_unrated (settle_unrated s r h l)
  unfold Link.learnRole
  split
  · exact hsettle _
  · split
    · exact (roleless_setRole ..).trans (hsettle _)
    · exact hsettle _

theorem learnedLink_role (s : State) (d : LinkDef) (roles : List RoleAnswer) (l : Link) (r : Role) (hr : (d.role r).isSome = true) :
    (learnedLink s d roles l).vis.role r = (l.vis.role r).learned s.now roles r := by
  have hfold := foldl_role (f := Link.learnRole s roles) (fun l r q => learnRole_role s roles l r q) d.declared l r (declared_nodup d)
  rw [if_pos ((mem_declared d r).2 hr)] at hfold
  rw [← hfold, learnedLink_eq]
  cases r <;> rfl

theorem learnedLink_roleless (s : State) (d : LinkDef) (roles : List RoleAnswer) (l : Link) :
    (learnedLink s d roles l).roleless = { l.roleless with vis := { l.roleless.vis with
      learning := 0, untracked := l.vis.untracked || roles.any fun a => a.result = .tableFull } } := by
  have hfold : ∀ (rs : List Role) (l : Link), (rs.foldl (Link.learnRole s roles) l).roleless = l.roleless := by
    intro rs
    induction rs with
    | nil => exact fun _ => rfl
    | cons r rs ih => exact fun l => (ih _).trans (learnRole_roleless ..)
  have h := hfold d.declared l
  rw [learnedLink_eq, ← h, show l.vis.untracked = _ from (congrArg (fun m => m.vis.untracked) h.symm :)]
  rfl

/-- The health and the present code that a LEARN gives a role. -/
theorem learned_spec (now : Timestamp) (roles : List RoleAnswer) (r : Role) (x : RoleRec) :
    (x.learned now roles r).badRun = 0 ∧ (x.learned now roles r).goodRun = 0 ∧
      match roles.find? fun a => a.role = r with
      | none => (x.learned now roles r).health = some .lost ∧ (x.learned now roles r).present = x.present
      | some a => (x.learned now roles r).health = some .good ∧
        (x.learned now roles r).present = if a.result = .ok then some a.code else x.present := by
  have hsettle (h : Health) : (x.settle now h).health = some h ∧ (x.settle now h).present = x.present := by
    unfold RoleRec.settle
    split
    · next hh => exact ⟨hh, rfl⟩
    · exact ⟨rfl, rfl⟩
  unfold RoleRec.learned
  cases roles.find? fun a => a.role = r with
  | none => exact ⟨rfl, rfl, hsettle .lost⟩
  | some a =>
    obtain ⟨hgood, hpresent⟩ := hsettle .good
    dsimp only
    split
    · exact ⟨rfl, rfl, hgood, rfl⟩
    · exact ⟨rfl, rfl, hgood, hpresent⟩

/-- A link that leaves LEARNING. -/
def Link.learnedAs (s : State) (d : LinkDef) (roles : List RoleAnswer) (st : LinkState) (bare : Bool) (l : Link) : Link :=
  let m := learnedLink s d roles l
  { m with vis := { m.vis with state := st, unsilenceable := m.vis.unsilenceable || bare } }

/-- What a LEARN leaves on its link (R76). -/
structure Learnt (i : Nat) (d : LinkDef) (roles : List RoleAnswer) (s t : State) : Prop where
  others : OtherLinks i s t
  mem : t.mem = s.mem
  learning : (t.linkRec i).learning = 0
  told : Calm s (s.link i) → t.mail.reports = s.mail.reports ++ linkEntries i (s.linkRec i) (t.linkRec i) s
  untracked : (t.linkRec i).untracked = ((s.linkRec i).untracked || roles.any fun x => x.result = .tableFull)
  role : ∀ r, (d.role r).isSome = true → ((t.linkRec i).role r).badRun = 0 ∧ ((t.linkRec i).role r).goodRun = 0 ∧
    match roles.find? fun x => x.role = r with
    | none => ((t.linkRec i).role r).health = some .lost ∧ ((t.linkRec i).role r).present = ((s.linkRec i).role r).present
    | some x => (Calm s (s.link i) → ((t.linkRec i).role r).health = some .good) ∧
      ((t.linkRec i).role r).present = if x.result = .ok then some x.code else ((s.linkRec i).role r).present

theorem learnedAs_keeps (s : State) (d : LinkDef) (roles : List RoleAnswer) (st : LinkState) (bare : Bool) (l : Link) :
    (l.learnedAs s d roles st bare).vis.learning = 0 ∧ (l.learnedAs s d roles st bare).vis.misses = l.vis.misses ∧
      (l.learnedAs s d roles st bare).vis.untracked = (l.vis.untracked || roles.any fun x => x.result = .tableFull) ∧
      (l.learnedAs s d roles st bare).vis.unsilenceable = (l.vis.unsilenceable || bare) ∧
      (l.learnedAs s d roles st bare).aux.staleExpired = l.aux.staleExpired ∧
      (l.learnedAs s d roles st bare).aux.seq = l.aux.seq ∧ (l.open → (l.learnedAs s d roles st bare).open) := by
  have h := learnedLink_roleless s d roles l
  have hunsilenceable : (learnedLink s d roles l).vis.unsilenceable = l.vis.unsilenceable :=
    (congrArg (fun m => m.vis.unsilenceable) h :)
  have hout : (learnedLink s d roles l).aux.outstanding = l.aux.outstanding := (congrArg (fun m => m.aux.outstanding) h :)
  have hwait : (learnedLink s d roles l).aux.killWait = l.aux.killWait := (congrArg (fun m => m.aux.killWait) h :)
  refine ⟨(congrArg (fun m => m.vis.learning) h :), (congrArg (fun m => m.vis.misses) h :), (congrArg (fun m => m.vis.untracked) h :), ?_,
    (congrArg (fun m => m.aux.staleExpired) h :), (congrArg (fun m => m.aux.seq) h :), fun ho => ?_⟩
  · unfold Link.learnedAs
    dsimp only
    rw [hunsilenceable]
  · obtain ⟨ho, hw⟩ := ho
    exact ⟨hout.trans ho, hwait.trans hw⟩

section
variable {i : Nat} {d : LinkDef} {roles : List RoleAnswer} {s u : State}

theorem Answered.learnt (h : Answered i s u) (hi : i < s.sup.links.length) (st : LinkState) (bare : Bool) :
    Learnt i d roles s (modLink i (Link.learnedAs u d roles st bare) u) := by
  have hlink := link_modLink_self (h.lt hi) (Link.learnedAs u d roles st bare)
  have hvis : (modLink i (Link.learnedAs u d roles st bare) u).linkRec i = ((u.link i).learnedAs u d roles st bare).vis :=
    congrArg Link.vis hlink
  have hvis' : (u.link i).vis = s.linkRec i := h.linkRec
  obtain ⟨hlearning, -, huntracked, -, -, -⟩ := learnedAs_keeps u d roles st bare (u.link i)
  refine ⟨(h.op.trans (.modLink ..)).others, (mem_of_unlinked (modLink_unlinked ..)).trans h.mem, by rw [hvis, hlearning],
    fun _ => ?_, by rw [hvis, huntracked, hvis'], fun r hr => ?_⟩
  · rw [modLink_reports, h.reports, hvis, h.linkRec, linkEntries_of_shown rfl h.now]
  · have hrole : ((u.link i).learnedAs u d roles st bare).vis.role r = ((s.linkRec i).role r).learned u.now roles r := by
      rw [← hvis', ← learnedLink_role u d roles (u.link i) r hr]
      cases r <;> rfl
    obtain ⟨hbad, hgood, hmatch⟩ := learned_spec u.now roles r ((s.linkRec i).role r)
    rw [hvis, hrole]
    refine ⟨hbad, hgood, ?_⟩
    cases hf : roles.find? fun x => x.role = r with
    | none =>
      rw [hf] at hmatch
      exact hmatch
    | some x =>
      rw [hf] at hmatch
      obtain ⟨hhealth, hpresent⟩ := hmatch
      exact ⟨fun _ => hhealth, hpresent⟩

/-- Only requests and lists change after a LEARN. -/
theorem Learnt.of_frame {t t' : State} (h : Learnt i d roles s t) (hop : LinkOp i t t') (hrec : t'.linkRec i = t.linkRec i)
    (hmem : t'.mem = t.mem) (hreports : t'.mail.reports = t.mail.reports) : Learnt i d roles s t' := by
  obtain ⟨hothers, hmem', hlearning, htold, huntracked, hrole⟩ := h
  rw [← hrec] at hlearning htold huntracked
  rw [← hreports] at htold
  exact ⟨fun j hj => (hop.others j hj).trans (hothers j hj), hmem.trans hmem', hlearning, htold, huntracked, by rw [hrec]; exact hrole⟩

end

/-! ### The runs of reports at an entry into ACTIVE -/

/-- The runs of a role stand at 0. -/
def RunsCleared (r : Role) (l : Link) : Prop := (l.vis.role r).badRun = 0 ∧ (l.vis.role r).goodRun = 0

theorem runsCleared_setHealth {r : Role} {l : Link} (s : State) (q : Role) (x : Option Health) (h : RunsCleared r l) :
    RunsCleared r (l.setHealth s q x) := by
  unfold Link.setHealth
  dsimp only
  split
  · exact h
  · unfold RunsCleared
    dsimp only
    rw [setRole_role]
    split
    · next hr =>
      subst hr
      exact h
    · exact h

theorem runsCleared_settle {r : Role} {l : Link} (s : State) (q : Role) (x : Option Health) (h : RunsCleared r l) :
    RunsCleared r (l.settle s q x) := by
  have hset := runsCleared_setHealth s q x h
  unfold Link.settle Link.setCounts RunsCleared
  dsimp only
  rw [setRole_role]
  split
  · exact ⟨rfl, rfl⟩
  · exact hset

theorem foldl_runsCleared {r : Role} {f : Link → Role → Link} (hf : ∀ l q, RunsCleared r l → RunsCleared r (f l q)) (roles : List Role)
    {l : Link} (h : RunsCleared r l) : RunsCleared r (roles.foldl f l) := by
  induction roles generalizing l with
  | nil => exact h
  | cons q roles ih => exact ih (hf l q h)

theorem runsCleared_goStale {r : Role} {l : Link} (s : State) (d : LinkDef) (h : RunsCleared r l) : RunsCleared r (l.goStale s d) := by
  refine foldl_runsCleared (fun l q h => ?_) _ h
  dsimp only
  split
  · exact runsCleared_setHealth _ _ _ h
  · exact h

theorem runsCleared_goLost {r : Role} {l : Link} (s : State) (d : LinkDef) (h : RunsCleared r l) : RunsCleared r (l.goLost s d) := by
  refine foldl_runsCleared (fun l q h => ?_) _ h
  split
  · exact h
  · exact runsCleared_settle _ _ _ h

theorem runsCleared_entryHealth {i : Nat} {r : Role} {s : State} (hi : i < s.sup.links.length) (h : RunsCleared r (s.link i)) :
    RunsCleared r ((entryHealth i s).link i) := by
  obtain ⟨f, g, heq, hf, hg⟩ := entryHealth_cases i s
  have hop : LinkOp i s (f s) := by
    rcases hf with rfl | ⟨d, rfl⟩
    · exact .refl i s
    · exact .modLink ..
  have hfirst : RunsCleared r ((f s).link i) := by
    rcases hf with rfl | ⟨d, rfl⟩
    · exact h
    · rw [link_modLink_self hi]
      exact runsCleared_goStale _ _ h
  rw [heq]
  rcases hg with rfl | ⟨d, rfl⟩
  · exact hfirst
  · dsimp only
    rw [link_modLink_self (hop.lt hi)]
    exact runsCleared_goLost _ _ hfirst

/-- A LEARN whose link enters ACTIVE. -/
theorem Learnt.entryHealth {i : Nat} {d : LinkDef} {roles : List RoleAnswer} {s t : State} (h : Learnt i d roles s t)
    (hi : i < t.sup.links.length) (hd : t.linkDef i = some d) (hst : (t.linkRec i).state = .active)
    (hcalm : Calm s (s.link i) → Calm t (t.link i)) : Learnt i d roles s (entryHealth i t) := by
  have hidle (hc : Calm s (s.link i)) : Machine.entryHealth i t = t := entryHealth_calm (hcalm hc)
  have hun := link_entryHealth i i t
  have hhealth := entryHealth_health hi hd ((rated_iff _).2 (.inl hst))
  refine ⟨fun j hj => ((LinkOp.entryHealth i t).others j hj).trans (h.others j hj),
    (mem_of_unlinked (entryHealth_unlinked ..)).trans h.mem, (congrArg (fun l => l.vis.learning) hun :).trans h.learning,
    fun hc => by rw [hidle hc]; exact h.told hc, (congrArg (fun l => l.vis.untracked) hun :).trans h.untracked, fun r hr => ?_⟩
  obtain ⟨hbad, hgood, hmatch⟩ := h.role r hr
  obtain ⟨hbad', hgood'⟩ := runsCleared_entryHealth hi ⟨hbad, hgood⟩
  have hpresent : (((Machine.entryHealth i t).linkRec i).role r).present = ((t.linkRec i).role r).present := present_of_unrated hun r
  refine ⟨hbad', hgood', ?_⟩
  cases hf : roles.find? fun x => x.role = r with
  | none =>
    rw [hf] at hmatch
    obtain ⟨hlost, hkept⟩ := hmatch
    refine ⟨?_, hpresent.trans hkept⟩
    rw [hhealth, hlost, if_neg (by rw [Option.eq_none_iff_forall_ne_some.not]; simpa [Option.isSome_iff_exists] using hr)]
    split
    · rfl
    · split <;> rfl
  | some x =>
    rw [hf] at hmatch
    obtain ⟨hgood, hkept⟩ := hmatch
    exact ⟨fun hc => by rw [hidle hc]; exact hgood hc, hpresent.trans hkept⟩

end Sys2Proof.Machine
end

section
/-! PROOFS. O36: what each answer does to its link. -/

open Sys2Proof Sys2Proof.Machine

namespace Sys2Proof.Machine

/-! ### The LIVE UPDATE is answered (R68, R149) -/

/-- A link whose new entries are LIVE. -/
def Link.lived (s : State) (held : Bool) (l : Link) : Link :=
  let m := ((bothRoles.filter l.vis.inSequence).foldl (fun l r => l.settle s r (some .good)) l.keepNew).endSequence
  { m with vis := { m.vis with state := .active, block := .clear, retuneNeeded := false, untracked := m.vis.untracked && !held } }

theorem goActive_eq (i : Nat) (s : State) : goActive i s = evaluateFailover i
    (entryHealth i (completeLinkOrder i (s.link i) .ok (modLink i (Link.lived s (everyRoleHeld s i)) s))) := rfl

/-- The roles of a LIVE link. -/
theorem lived_role (s : State) (held : Bool) (l : Link) (r : Role) :
    ((l.lived s held).vis.role r).present =
        (if l.vis.inSequence r = true ∧ (l.vis.role r).fresh.isSome = true then (l.vis.role r).fresh else (l.vis.role r).present) ∧
      (l.vis.inSequence r = true → ((l.lived s held).vis.role r).health = some .good) := by
  have hended (m : Link) : ((m.endSequence).vis.role r).present = (m.vis.role r).present ∧
      ((m.endSequence).vis.role r).health = (m.vis.role r).health := by cases r <;> exact ⟨rfl, rfl⟩
  have hlived : (l.lived s held).vis.role r = (((bothRoles.filter l.vis.inSequence).foldl
      (fun l r => l.settle s r (some .good)) l.keepNew).endSequence).vis.role r := by cases r <;> rfl
  have hkept : (l.keepNew.vis.role r).present =
      if l.vis.inSequence r = true ∧ (l.vis.role r).fresh.isSome = true then (l.vis.role r).fresh else (l.vis.role r).present := by
    have hif (b : Bool) (x : RoleRec) : (if (b && x.fresh.isSome) = true then { x with present := x.fresh } else x).present =
        if b = true ∧ x.fresh.isSome = true then x.fresh else x.present := by
      simp only [Bool.and_eq_true]
      split <;> rfl
    cases r
    · exact hif ..
    · exact hif ..
  have hsettled : ((bothRoles.filter l.vis.inSequence).foldl (fun l r => l.settle s r (some .good)) l.keepNew).unrated =
      l.keepNew.unrated := foldl_unrated (fun l r => settle_unrated ..) ..
  obtain ⟨hpresent, hhealth⟩ := hended
    ((bothRoles.filter l.vis.inSequence).foldl (fun l r => l.settle s r (some .good)) l.keepNew)
  refine ⟨?_, fun hin => ?_⟩
  · rw [hlived, hpresent, present_of_unrated hsettled, hkept]
  · have hmem : r ∈ bothRoles.filter l.vis.inSequence := List.mem_filter.2 ⟨mem_bothRoles r, hin⟩
    rw [hlived, hhealth, foldl_health (g := fun _ _ => some .good) (fun l r q => settle_role s r q (some .good) l) _ _ _
      (List.Nodup.filter _ (by decide)), if_pos hmem]

/-- What else becomes of a LIVE link. -/
theorem lived_keeps (s : State) (held : Bool) (l : Link) :
    (l.lived s held).vis.orderCell = l.vis.orderCell ∧ (l.lived s held).vis.misses = l.vis.misses ∧
      (l.lived s held).aux.staleExpired = l.aux.staleExpired := by
  have h : ((bothRoles.filter l.vis.inSequence).foldl (fun l r => l.settle s r (some .good)) l.keepNew).unrated =
      l.keepNew.unrated := foldl_unrated (fun l r => settle_unrated ..) ..
  exact ⟨(congrArg (fun m => m.vis.orderCell) h :), (congrArg (fun m => m.vis.misses) h :),
    (congrArg (fun m => m.aux.staleExpired) h :)⟩

/-- A link whose LIVE UPDATE has been answered. -/
structure Alive (i : Nat) (s t : State) : Prop where
  others : OtherLinks i s t
  state : (t.linkRec i).state = .active
  seqKind : (t.linkRec i).seqKind = .noSequence
  phase : (t.linkRec i).phase = .noPhase
  block : (t.linkRec i).block = .clear
  needed : (t.linkRec i).retuneNeeded = false
  good : Calm s (s.link i) → ∀ r, (s.linkRec i).inSequence r = true → ((t.linkRec i).role r).health = some .good
  present : ∀ r, ((t.linkRec i).role r).present =
    if (s.linkRec i).inSequence r = true ∧ ((s.linkRec i).role r).fresh.isSome = true then ((s.linkRec i).role r).fresh
    else ((s.linkRec i).role r).present

/-- The end of a sequence at its LIVE UPDATE, before failover is evaluated. -/
def enlivened (i : Nat) (s : State) : State :=
  entryHealth i (completeLinkOrder i (s.link i) .ok (modLink i (Link.lived s (everyRoleHeld s i)) s))

section
variable {i : Nat} {s u : State} (h : Answered i s u) (hi : i < s.sup.links.length)
include h hi

theorem Answered.enlivened_link : ∃ c o held, ((enlivened i u).link i).unrated = Link.unrated
    { vis := { ((u.link i).lived u held).vis with orderCell := c }, aux := { ((u.link i).lived u held).aux with order := o } } := by
  obtain ⟨c, o, hlink⟩ := link_complete i (u.link i) .ok (modLink i (Link.lived u (everyRoleHeld u i)) u)
    ((LinkOp.modLink ..).lt (h.lt hi))
  rw [link_modLink_self (h.lt hi)] at hlink
  refine ⟨c, o, everyRoleHeld u i, ?_⟩
  rw [← hlink]
  exact link_entryHealth ..

/-- With nothing that waits for the entry into ACTIVE, no health is found there. -/
theorem Answered.enlivened_calm (hcalm : Calm s (s.link i)) : enlivened i u =
    completeLinkOrder i (u.link i) .ok (modLink i (Link.lived u (everyRoleHeld u i)) u) := by
  obtain ⟨hstale, hmiss⟩ := h.calm hcalm
  obtain ⟨c, o, hlink⟩ := link_complete i (u.link i) .ok (modLink i (Link.lived u (everyRoleHeld u i)) u)
    ((LinkOp.modLink ..).lt (h.lt hi))
  obtain ⟨m, sv, n, hrest⟩ := completeLinkOrder_rest i (u.link i) .ok (modLink i (Link.lived u (everyRoleHeld u i)) u)
  obtain ⟨-, hmisses, hexpired⟩ := lived_keeps u (everyRoleHeld u i) (u.link i)
  rw [link_modLink_self (h.lt hi)] at hlink
  have hset : (completeLinkOrder i (u.link i) .ok (modLink i (Link.lived u (everyRoleHeld u i)) u)).sup.settings =
      (modLink i (Link.lived u (everyRoleHeld u i)) u).sup.settings := (settings_of_unlinked hrest :)
  refine entryHealth_calm ⟨?_, ?_⟩
  · rw [hlink]
    exact hexpired.trans hstale
  · rw [hlink, hset, settings_of_unlinked (modLink_unlinked ..)]
    exact hmisses.trans_lt hmiss

theorem Answered.alive : Alive i s (enlivened i u) := by
  obtain ⟨c, o, held, hlink⟩ := h.enlivened_link hi
  have hvis : (u.link i).vis = s.linkRec i := h.linkRec
  have hop : LinkOp i u (enlivened i u) := ((LinkOp.modLink ..).trans (.complete ..)).trans (.entryHealth ..)
  refine ⟨(h.op.trans hop).others, (state_of_unrated hlink :), (seqKind_of_unrated hlink :), (phase_of_unrated hlink :),
    (congrArg (fun l => l.vis.block) hlink :), (congrArg (fun l => l.vis.retuneNeeded) hlink :), fun hcalm r hr => ?_, fun r => ?_⟩
  · rw [h.enlivened_calm hi hcalm]
    obtain ⟨c, o, hlink⟩ := link_complete i (u.link i) .ok (modLink i (Link.lived u (everyRoleHeld u i)) u)
      ((LinkOp.modLink ..).lt (h.lt hi))
    rw [link_modLink_self (h.lt hi)] at hlink
    obtain ⟨-, hgood⟩ := lived_role u (everyRoleHeld u i) (u.link i) r
    rw [State.linkRec, hlink, ← hgood (by rw [hvis]; exact hr)]
    cases r <;> rfl
  · have hpresent := present_of_unrated hlink r
    obtain ⟨hkept, -⟩ := lived_role u held (u.link i) r
    rw [hvis] at hkept
    rw [← hkept]
    refine hpresent.trans ?_
    cases r <;> rfl

/-- With an order: it completes, and its entry follows those of the link. -/
theorem Answered.alive_order {o : LinkOrder} (hm : Memory.wf s.mem) (h96 : i < 96) (ho : (s.link i).aux.order = some o) :
    ((enlivened i u).linkRec i).orderCell = none ∧ OrderEnds o.tag 4 .ok i s (enlivened i u) ∧
      (Calm s (s.link i) → (enlivened i u).mail.reports =
        s.mail.reports ++ linkEntries i (s.linkRec i) ((enlivened i u).linkRec i) s ++ [(.supervisor, orderReport o.tag .ok 4 s)]) := by
  have horder := h.order.trans ho
  have hop := LinkOp.modLink i (Link.lived u (everyRoleHeld u i)) u
  have hun := modLink_unlinked i (Link.lived u (everyRoleHeld u i)) u
  have hreports := modLink_reports i (Link.lived u (everyRoleHeld u i)) u
  have hmodlink := link_modLink_self (h.lt hi) (Link.lived u (everyRoleHeld u i))
  have hcalmed := h.enlivened_calm hi
  have heq : enlivened i u = entryHealth i
    (completeLinkOrder i (u.link i) .ok (modLink i (Link.lived u (everyRoleHeld u i)) u)) := rfl
  generalize modLink i (Link.lived u (everyRoleHeld u i)) u = v at hop hun hreports hmodlink hcalmed heq
  have hlink := link_completeLinkOrder .ok horder (hop.lt (h.lt hi))
  have hmem : Memory.wf v.mem := by
    rw [mem_of_unlinked hun, h.mem]
    exact hm
  refine ⟨?_, ?_, fun hcalm => ?_⟩
  · rw [heq]
    exact (orderCell_of_unrated (link_entryHealth ..)).trans (congrArg (fun l => l.vis.orderCell) hlink :)
  · rw [heq]
    exact h.orderEnds (orderEnds_to_unlinked (orderEnds_of_unlinked (completeLinkOrder_ends .ok horder hmem h96) hun)
      (entryHealth_unlinked ..))
  · have hrec : (completeLinkOrder i (u.link i) .ok v).linkRec i =
        { ((u.link i).lived u (everyRoleHeld u i)).vis with orderCell := none } := by
      rw [State.linkRec, hlink, hmodlink]
      rfl
    have hnow : v.now = s.now := (now_of_unlinked hun).trans h.now
    have horderReport : orderReport o.tag .ok 4 v = orderReport o.tag .ok 4 s := by
      unfold orderReport
      rw [hnow]
    rw [hcalmed hcalm, completeLinkOrder_reports .ok horder, hreports, h.reports, hrec, h.linkRec, horderReport,
      linkEntries_of_shown (new' := ((u.link i).lived u (everyRoleHeld u i)).vis)
        (new := { ((u.link i).lived u (everyRoleHeld u i)).vis with orderCell := none }) rfl h.now]

/-- Without one, the link alone changes. -/
theorem Answered.alive_none (ho : (s.link i).aux.order = none) :
    ((enlivened i u).linkRec i).orderCell = (s.linkRec i).orderCell ∧ (enlivened i u).mem = s.mem ∧ (enlivened i u).disp = s.disp ∧
      (Calm s (s.link i) → (enlivened i u).mail.reports =
        s.mail.reports ++ linkEntries i (s.linkRec i) ((enlivened i u).linkRec i) s) := by
  have hmodlink := link_modLink_self (h.lt hi) (Link.lived u (everyRoleHeld u i))
  have heq : enlivened i u = entryHealth i (modLink i (Link.lived u (everyRoleHeld u i)) u) := by
    unfold enlivened
    rw [completeLinkOrder_none (h.order.trans ho)]
  have hcalmed (hcalm : Calm s (s.link i)) := (h.enlivened_calm hi hcalm).trans (completeLinkOrder_none (h.order.trans ho))
  have hun : (enlivened i u).unlinked = u.unlinked := by rw [heq, entryHealth_unlinked, modLink_unlinked]
  obtain ⟨hcell, -, -⟩ := lived_keeps u (everyRoleHeld u i) (u.link i)
  refine ⟨?_, (mem_of_unlinked hun).trans h.mem, (disp_of_unlinked hun).trans h.disp, fun hcalm => ?_⟩
  · rw [heq, State.linkRec, orderCell_of_unrated (link_entryHealth ..), hmodlink, hcell, ← h.linkRec]
    rfl
  · have hrec : (modLink i (Link.lived u (everyRoleHeld u i)) u).linkRec i = ((u.link i).lived u (everyRoleHeld u i)).vis :=
      congrArg Link.vis hmodlink
    rw [hcalmed hcalm, modLink_reports, h.reports, hrec, h.linkRec, linkEntries_of_shown rfl h.now]

end

end Sys2Proof.Machine
end

section
/-! PROOFS. O36: the answers of the plan engine and the controller. -/

open Sys2Proof Sys2Proof.Machine

namespace Sys2Proof.Machine

theorem decide_current {s : State} {i n : Nat} (h : n = (s.link i).aux.seq) : current s i n = true := decide_eq_true h.symm

/-! ### The plan engine's answer (R64) -/

section
variable {s : State} {a : PlanAnswer} {rest : List PlanAnswer}

/-- The state in which a planning answer has been taken. -/
def planned (a : PlanAnswer) (rest : List PlanAnswer) (s : State) : State :=
  modAux a.link (fun x => { x with planOut := false, attempts := a.attempts }) { s with mail.planAnswers := rest }

theorem answered_planned (hi : a.link < s.sup.links.length) : Answered a.link s (planned a rest s) := by
  have hop := LinkOp.modAux a.link (fun x => { x with planOut := false, attempts := a.attempts }) { s with mail.planAnswers := rest }
  have hlink : (planned a rest s).link a.link = _ :=
    link_modAux_self (s := { s with mail.planAnswers := rest }) hi fun x => { x with planOut := false, attempts := a.attempts }
  have hfirst : LinkOp a.link s { s with mail.planAnswers := rest } := .of_links rfl
  exact ⟨hfirst.trans hop, ⟨_, _, _, _, _, hlink⟩, rfl, rfl⟩

theorem attempts_planned (hi : a.link < s.sup.links.length) : ((planned a rest s).link a.link).aux.attempts = a.attempts :=
  congrArg (fun l => l.aux.attempts)
    (link_modAux_self (s := { s with mail.planAnswers := rest }) hi fun x => { x with planOut := false, attempts := a.attempts })

theorem planned_open (hi : a.link < s.sup.links.length) (h : (s.link a.link).open) : ((planned a rest s).link a.link).open := by
  have hlink : (planned a rest s).link a.link = _ :=
    link_modAux_self (s := { s with mail.planAnswers := rest }) hi fun x => { x with planOut := false, attempts := a.attempts }
  rw [hlink]
  exact h

variable (hq : s.mail.planAnswers = a :: rest) (hseq : a.seq = (s.link a.link).aux.seq) (hout : (s.link a.link).aux.planOut = true)
include hq hseq hout

theorem planningAnswerStep_eq : planningAnswerStep s =
    match a.result with
    | .ok => inserted a.link a.roles (planned a rest s)
    | .cancelled => planned a rest s
    | code => returnToStart a.link code (modLink a.link (keepAnswers a.roles) (planned a rest s)) := by
  have hcurrent : current { s with mail.planAnswers := rest } a.link a.seq = true := decide_current hseq
  have hout' : (({ s with mail.planAnswers := rest } : State).link a.link).aux.planOut = true := hout
  unfold planningAnswerStep
  rw [hq]
  dsimp only
  rw [hcurrent, hout']
  rfl

theorem planningAnswerStep_refused (hok : a.result ≠ .ok) (hnot : a.result ≠ .cancelled) : planningAnswerStep s =
    returnToStart a.link a.result (modLink a.link (keepAnswers a.roles) (planned a rest s)) := by
  rw [planningAnswerStep_eq hq hseq hout]
  split
  · next h => exact absurd h hok
  · next h => exact absurd h hnot
  · rfl

end

/-! ### The controller's answers (R65, R68, R74, R76) -/

section
variable {s : State} {a : InsertAnswer} {rest : List InsertAnswer}

theorem insertAnswered_eq (h : a.result ≠ .cancelled) (s : State) : insertAnswered a s = linkAnswered a.link s := if_neg h

section
variable (hq : s.mail.insertAnswers = a :: rest) (hseq : a.seq = (s.link a.link).aux.seq)
  (hp : (s.link a.link).vis.phase = .inserting) (hi : a.link < s.sup.links.length)
include hq hseq hp hi

theorem insertionAnswerStep_eq (hnot : a.result ≠ .cancelled) : insertionAnswerStep s =
    let u := linkAnswered a.link { s with mail.insertAnswers := rest }
    match a.result with
    | .ok => inserted a.link a.roles u
    | .cancelled => u
    | code => returnToStart a.link code (modLink a.link (keepAnswers a.roles) u) := by
  have h : Answered a.link s (linkAnswered a.link { s with mail.insertAnswers := rest }) :=
    answered_linkAnswered hi rfl rfl rfl
  have hcurrent : current (linkAnswered a.link { s with mail.insertAnswers := rest }) a.link a.seq = true :=
    decide_current (hseq.trans h.seq.symm)
  have hphase : ((linkAnswered a.link { s with mail.insertAnswers := rest }).linkRec a.link).phase = .inserting := by
    rw [h.linkRec]
    exact hp
  unfold insertionAnswerStep
  rw [hq]
  dsimp only
  rw [insertAnswered_eq hnot, hcurrent, hphase]
  rfl

theorem insertionAnswerStep_refused (hok : a.result ≠ .ok) (hnot : a.result ≠ .cancelled) : insertionAnswerStep s =
    returnToStart a.link a.result
      (modLink a.link (keepAnswers a.roles) (linkAnswered a.link { s with mail.insertAnswers := rest })) := by
  rw [insertionAnswerStep_eq hq hseq hp hi hnot]
  dsimp only
  split
  · next h => exact absurd h hok
  · next h => exact absurd h hnot
  · rfl

end

section
variable (hq : s.mail.takeAnswers = a :: rest) (hseq : a.seq = (s.link a.link).aux.seq)
  (hp : (s.link a.link).vis.phase = .inserting) (hi : a.link < s.sup.links.length)
include hq hseq hp

theorem failoverTakePath_eq : failoverTakePath s =
    if a.result = .ok || a.result = .cancelled || a.result = .noReserve || a.result = .tableFull then []
    else [modLink a.link Link.backToStart { s with mail.takeAnswers := rest }] := by
  have hcurrent : current s a.link a.seq = true := decide_current hseq
  have hphase : (s.linkRec a.link).phase = .inserting := hp
  unfold failoverTakePath
  rw [hq]
  dsimp only
  rw [hcurrent, hphase]
  rfl

include hi

theorem failoverTakeAnswerStep_eq (hnot : a.result ≠ .cancelled) : failoverTakeAnswerStep s =
    let u := linkAnswered a.link { s with mail.takeAnswers := rest }
    match a.result with
    | .ok => inserted a.link a.roles u
    | .cancelled => u
    | .noReserve => returnBlocked .noReserve a.link .noReserve u
    | .tableFull => returnBlocked .tableFull a.link .tableFull u
    | code => returnToStart a.link code u := by
  have h : Answered a.link s (linkAnswered a.link { s with mail.takeAnswers := rest }) := answered_linkAnswered hi rfl rfl rfl
  have hcurrent : current (linkAnswered a.link { s with mail.takeAnswers := rest }) a.link a.seq = true :=
    decide_current (hseq.trans h.seq.symm)
  have hphase : ((linkAnswered a.link { s with mail.takeAnswers := rest }).linkRec a.link).phase = .inserting := by
    rw [h.linkRec]
    exact hp
  unfold failoverTakeAnswerStep
  rw [hq]
  dsimp only
  rw [insertAnswered_eq hnot, hcurrent, hphase]
  rfl

end

section
variable {d : LinkDef} (hq : s.mail.learnAnswers = a :: rest) (hseq : a.seq = (s.link a.link).aux.seq) (hok : a.result = .ok)
  (hst : (s.linkRec a.link).state = .learning) (hi : a.link < s.sup.links.length) (hd : s.linkDef a.link = some d)
include hq hseq hok hst hi hd

theorem learnAnswerStep_eq : learnAnswerStep s =
    let u := linkAnswered a.link { s with mail.learnAnswers := rest }
    if s.kc.asserted then
      if d.outRole.isSome then
        let t := sendUpdate a.link ((a.roles.filter fun x => x.result = .ok).map fun x =>
          { role := x.role, code := x.code, change := .become .silent })
          (modLink a.link (Link.learnedAs u d a.roles .killed false) u)
        { t with mail.muteLists := t.mail.muteLists ++ [[muteTarget a.link d]] }
      else enterActive a.link (modLink a.link (Link.learnedAs u d a.roles .active true) u)
    else enterActive a.link (modLink a.link (Link.learnedAs u d a.roles .active false) u) := by
  have h : Answered a.link s (linkAnswered a.link { s with mail.learnAnswers := rest }) := answered_linkAnswered hi rfl rfl rfl
  have hcurrent : current (linkAnswered a.link { s with mail.learnAnswers := rest }) a.link a.seq = true :=
    decide_current (hseq.trans h.seq.symm)
  have hnot : a.result ≠ .cancelled := by
    rw [hok]
    decide
  have hstate : ((linkAnswered a.link { s with mail.learnAnswers := rest }).linkRec a.link).state = .learning := by
    rw [h.linkRec]
    exact hst
  have hdef := h.linkDef.trans hd
  have hkc := h.kc
  unfold learnAnswerStep
  rw [hq]
  dsimp only
  rw [insertAnswered_eq hnot, hdef]
  dsimp only
  rw [hcurrent, hstate, hok, hkc]
  rfl

end

end

theorem liveUpdateAnswerStep_eq {s : State} {a : UpdateAnswer} {rest : List UpdateAnswer} (hq : s.mail.liveAnswers = a :: rest)
    (hseq : a.seq = (s.link a.link).aux.seq) (hp : (s.link a.link).vis.phase = .unmuting) (hi : a.link < s.sup.links.length) :
    liveUpdateAnswerStep s =
      evaluateFailover a.link (enlivened a.link (linkAnswered a.link { s with mail.liveAnswers := rest })) := by
  have h : Answered a.link s (linkAnswered a.link { s with mail.liveAnswers := rest }) := answered_linkAnswered hi rfl rfl rfl
  have hcurrent : current (linkAnswered a.link { s with mail.liveAnswers := rest }) a.link a.seq = true :=
    decide_current (hseq.trans h.seq.symm)
  have hphase : ((linkAnswered a.link { s with mail.liveAnswers := rest }).linkRec a.link).phase = .unmuting := by
    rw [h.linkRec]
    exact hp
  unfold liveUpdateAnswerStep
  rw [hq]
  dsimp only
  rw [hcurrent, hphase]
  exact goActive_eq ..

/-- A LEARN during a kill: KILLED, the entries SILENT and the MUTE asked for. -/
theorem Answered.learnt_killed {i : Nat} {d : LinkDef} {s u : State} (h : Answered i s u) (hi : i < s.sup.links.length)
    (roles : List RoleAnswer) (c : List CarrierChange) (m : List MuteTarget) :
    let t0 := sendUpdate i c (modLink i (Link.learnedAs u d roles .killed false) u)
    let t : State := { t0 with mail.muteLists := t0.mail.muteLists ++ [m] }
    Learnt i d roles s t ∧ (t.linkRec i).state = .killed ∧ t.mail.muteLists = s.mail.muteLists ++ [m] ∧
      ((u.link i).open → t.ctl = { u.ctl with queue := u.ctl.queue ++ updateOf i (s.link i).aux.seq c }) := by
  intro t0 t
  have hlearnt := h.learnt (d := d) (roles := roles) hi .killed false
  have hlink := link_modLink_self (h.lt hi) (Link.learnedAs u d roles .killed false)
  have hun := modLink_unlinked i (Link.learnedAs u d roles .killed false) u
  have hrec : t.linkRec i = (modLink i (Link.learnedAs u d roles .killed false) u).linkRec i := linkRec_sendUpdate ..
  have hrest : t0.unlinked = { (modLink i (Link.learnedAs u d roles .killed false) u).unlinked with ctl.queue := t0.ctl.queue } :=
    sendUpdate_unlinked ..
  obtain ⟨-, -, -, -, -, hseq, hopens⟩ := learnedAs_keeps u d roles .killed false (u.link i)
  refine ⟨hlearnt.of_frame ((LinkOp.sendUpdate ..).trans (.of_links rfl)) hrec (congrArg State.mem hrest :) (sendUpdate_reports ..),
    ?_, ?_, fun hopen => ?_⟩
  · rw [hrec, State.linkRec, hlink]
    rfl
  · have hlists : t0.mail.muteLists = s.mail.muteLists :=
      (congrArg (fun u => u.mail.muteLists) hrest :).trans ((congrArg (fun u => u.mail.muteLists) hun :).trans h.muteLists)
    show t0.mail.muteLists ++ [m] = _
    rw [hlists]
  · have hsent := sendUpdate_open (i := i) (c := c) (s := modLink i (Link.learnedAs u d roles .killed false) u)
      (by rw [hlink]; exact hopens hopen)
    rw [hlink, hseq, h.seq, ctl_of_unlinked hun] at hsent
    exact hsent

/-- A LEARN that leaves its link ACTIVE. -/
theorem Answered.learnt_active {i : Nat} {d : LinkDef} {s u : State} (h : Answered i s u) (hi : i < s.sup.links.length)
    (hd : s.linkDef i = some d) (roles : List RoleAnswer) (bare : Bool) :
    let t := entryHealth i (modLink i (Link.learnedAs u d roles .active bare) u)
    Learnt i d roles s t ∧ (t.linkRec i).state = .active ∧ (bare = true → (t.linkRec i).unsilenceable = true) ∧ t.kc = s.kc := by
  intro t
  have hlink := link_modLink_self (h.lt hi) (Link.learnedAs u d roles .active bare)
  have hun := modLink_unlinked i (Link.learnedAs u d roles .active bare) u
  have hstate : ((modLink i (Link.learnedAs u d roles .active bare) u).linkRec i).state = .active := by
    rw [State.linkRec, hlink]
    rfl
  obtain ⟨-, hmisses, -, hbare, hstale, -⟩ := learnedAs_keeps u d roles .active bare (u.link i)
  have hcalm (hc : Calm s (s.link i)) : Calm (modLink i (Link.learnedAs u d roles .active bare) u)
      ((modLink i (Link.learnedAs u d roles .active bare) u).link i) := by
    obtain ⟨hfresh, hbelow⟩ := h.calm hc
    rw [Calm, hlink, hstale, hmisses, settings_of_unlinked hun]
    exact ⟨hfresh, hbelow⟩
  refine ⟨(h.learnt hi .active bare).entryHealth ((LinkOp.modLink ..).lt (h.lt hi))
    ((linkDef_of_unlinked hun i).trans (h.linkDef.trans hd)) hstate hcalm, (state_of_unrated (link_entryHealth ..)).trans hstate,
    fun hb => ?_, ((kc_of_unlinked (entryHealth_unlinked ..)).trans (kc_of_unlinked hun)).trans h.kc⟩
  have hkept : (t.linkRec i).unsilenceable =
      ((modLink i (Link.learnedAs u d roles .active bare) u).link i).vis.unsilenceable := (congrArg (fun l => l.vis.unsilenceable) (link_entryHealth ..) :)
  rw [hkept, hlink, hbare, hb, Bool.or_true]

end Sys2Proof.Machine
end

section
/-! PROOFS. O36: what each answer does to its link. -/

open Sys2Proof Sys2Proof.Machine

namespace Sys2Proof.Machine

/-- The programme's part of a permit, said of the link's camera. -/
theorem permitWithdrawn_iff {s : State} {i : Nat} {d : LinkDef} (hd : s.linkDef i = some d) : PermitWithdrawn s i ↔
    ((s.linkRec i).seqKind = .retune ∨ (s.linkRec i).seqKind = .failover) ∧ (s.link i).aux.permitKept = false ∧
      s.onProgramme d.camera = true := by
  unfold PermitWithdrawn
  rw [linkOnProgramme_eq hd]

theorem not_permitWithdrawn {s : State} {i : Nat} {d : LinkDef} (hd : s.linkDef i = some d)
    (h : (s.link i).aux.permitKept = true ∨ s.onProgramme d.camera = false) : ¬PermitWithdrawn s i := by
  rw [permitWithdrawn_iff hd]
  rintro ⟨-, hkept, hprog⟩
  rcases h with h | h
  · exact Bool.false_ne_true (hkept.symm.trans h)
  · exact Bool.false_ne_true (h.symm.trans hprog)

theorem not_permitWithdrawn_enable {s : State} {i : Nat} (h : (s.linkRec i).seqKind = .enable) : ¬PermitWithdrawn s i := by
  rintro ⟨hk | hk, -⟩
  · rw [h] at hk
    cases hk
  · rw [h] at hk
    cases hk

/-- The gate when the answers of a link's requests are all in. -/
theorem gate_linkAnswered {s s' : State} {i : Nat} (hi : i < s.sup.links.length) (hsup : s'.sup = s.sup) (hctl : s'.ctl = s.ctl)
    (hheld : (s.link i).aux.held = []) (hwait : (s.link i).aux.killWait = []) :
    (linkAnswered i s').ctl = s.ctl ∧ ((linkAnswered i s').link i).open := by
  have hlink : s'.link i = s.link i := by
    unfold State.link
    rw [hsup]
  obtain ⟨hkept, hopen⟩ := linkAnswered_idle (s := s') (hsup ▸ hi) (by rw [hlink]; exact hheld)
  exact ⟨hkept.trans hctl, hopen (by rw [hlink]; exact hwait)⟩

/-- The held request that an UPDATE's answer sends. -/
theorem updateAnswerStep_spec {s : State} {a : UpdateAnswer} {rest : List UpdateAnswer} (hq : s.mail.updateAnswers = a :: rest)
    (hi : a.link < s.sup.links.length) :
    LinkOp a.link s (updateAnswerStep s) ∧ (updateAnswerStep s).linkRec a.link = s.linkRec a.link ∧
      ((s.link a.link).aux.held = [] →
        ((updateAnswerStep s).link a.link).aux.outstanding = false ∧ (updateAnswerStep s).ctl = s.ctl) ∧
      (∀ r q, (s.link a.link).aux.held = r :: q → ((updateAnswerStep s).link a.link).aux.outstanding = true ∧
        ((updateAnswerStep s).link a.link).aux.held = q ∧
        (updateAnswerStep s).ctl = { s.ctl with queue := s.ctl.queue ++ [r] }) ∧
      updateAnswerStep s = { s with
        sup := (updateAnswerStep s).sup, ctl := (updateAnswerStep s).ctl, mail.updateAnswers := rest } := by
  have heq : updateAnswerStep s = linkAnswered a.link { s with mail.updateAnswers := rest } := by
    unfold updateAnswerStep
    rw [hq]
  have hlink : ({ s with mail.updateAnswers := rest } : State).link a.link = s.link a.link := rfl
  have hfirst : LinkOp a.link s { s with mail.updateAnswers := rest } := .of_links rfl
  rw [heq]
  refine ⟨hfirst.trans (.linkAnswered ..), linkRec_linkAnswered .., fun h => ?_, fun r q h => ?_, ?_⟩
  · rw [linkAnswered_none (by rw [hlink]; exact h)]
    refine ⟨?_, rfl⟩
    rw [link_modAux_self (s := { s with mail.updateAnswers := rest }) hi]
  · have hmod : ((modAux a.link (fun x => { x with outstanding := true, held := q }) { s with mail.updateAnswers := rest }).link
        a.link) = _ := link_modAux_self (s := { s with mail.updateAnswers := rest }) hi _
    rw [linkAnswered_next (by rw [hlink]; exact h), pushRequest_link, hmod]
    exact ⟨rfl, rfl, rfl⟩
  · rw [linkAnswered_frame]

/-- A PURGE's answer, the last that a PARK waits for. -/
theorem purgeAnswerStep_ends {s : State} {i n : Nat} {rest : List (Nat × Nat)} {o : LinkOrder} (hm : Memory.wf s.mem) (h96 : i < 96)
    (hi : i < s.sup.links.length) (hq : s.mail.purgeAnswers = (i, n) :: rest) (ho : (s.link i).aux.order = some o)
    (hk : o.kind = .park) (hp : (s.link i).aux.purges = 1) (hmute : (s.link i).aux.parkMute ≠ .waiting) :
    ∃ t, purgeAnswerStep s = (if (s.linkRec i).state = .active then evaluateFailover i t else t) ∧ OtherLinks i s t ∧
      OrderEnds o.tag 4 (if (s.link i).aux.parkMute = .failed then .timeout else .ok) i s t ∧
      resultByte t.mem o.tag.cell 1 = n % 256 ∧ (t.linkRec i).state = (s.linkRec i).state ∧ (t.linkRec i).orderCell = none ∧
      t.ctl = s.ctl ∧ t.mail.purgeAnswers = rest := by
  obtain ⟨u, hu⟩ : ∃ u, u = modAux i (fun a => { a with purges := a.purges - 1, parkRemoved := n })
      { s with mail.purgeAnswers := rest } := ⟨_, rfl⟩
  have heq : purgeAnswerStep s = tryCompletePark i u := by
    unfold purgeAnswerStep
    rw [hq, hu]
  have hlink : u.link i = { s.link i with aux := { (s.link i).aux with purges := (s.link i).aux.purges - 1, parkRemoved := n } } := by
    rw [hu]
    exact link_modAux_self (s := { s with mail.purgeAnswers := rest }) hi _
  have hop : LinkOp i { s with mail.purgeAnswers := rest } u := by
    rw [hu]
    exact .modAux ..
  have hrec : u.linkRec i = s.linkRec i := by
    rw [State.linkRec, hlink]
    rfl
  obtain ⟨t, hstep, hopt, hends, hremoved, -, hstate, hcell, hrest⟩ := parkEnds (s := u) (i := i) (o := o) (by rw [hu]; exact hm) h96
    (hop.lt hi) (by rw [hlink]; exact ho) hk (by rw [hlink]; exact (congrArg (· - 1) hp :)) (by rw [hlink]; exact hmute)
  have hctl : t.ctl = u.ctl := (congrArg State.ctl hrest :)
  have hmail : t.mail.purgeAnswers = u.mail.purgeAnswers := (congrArg (fun u => u.mail.purgeAnswers) hrest :)
  rw [hrec] at hstep hstate
  rw [hlink] at hends hremoved
  refine ⟨t, heq.trans hstep, (hop.trans hopt).others, ?_, hremoved, hstate, hcell, hctl.trans (by rw [hu]; rfl), hmail.trans (by rw [hu]; rfl)⟩
  subst hu
  exact hends

/-- Settles O36. -/
theorem linkAnswers : Obligations.LinkAnswers := by
  intro s i d hm h96 hi hd l tuned calm back heldAgain withdrawn permitted live
  have htuned {c : Instr} {u : State} {roles : List RoleAnswer} {st : LinkState}
      (hexec : exec c s = .next (finishLink s (inserted i roles u))) (h : Answered i s u) (hp : ¬PermitWithdrawn s i)
      (hst : (if l.vis.state = .planning then .tuning else l.vis.state) = st) : tuned c st := by
    obtain ⟨hothers, hphase, hstate, hqueued⟩ := h.tunes hi roles hd hp
    exact ⟨_, hexec, hothers, hstate.trans hst, hphase, hqueued⟩
  have hback {c : Instr} {u : State} {code : ResultCode} {o : LinkOrder} {roles : List RoleAnswer} (h : Answered i s u)
      (hexec : exec c s = .next (finishLink s (returnToStart i code (modLink i (keepAnswers roles) u))))
      (ho : l.aux.order = some o) (hk : o.kind ≠ .park) : back c code o (u.link i).aux.attempts := by
    obtain ⟨t, heq, hback⟩ := h.wentBack hi h96 hm roles code ho hk
    exact ⟨t, hexec.trans (next_finishLink heq), hback.others, hback.state, hback.seqKind, hback.cell, hback.ends, hback.attempts⟩
  have hheld {c : Instr} {u t : State} {reason : HoldReason} {roles : List RoleAnswer} (hexec : exec c s = .next (finishLink s t))
      (h : InsertHeld i reason roles s u t) (hgate : l.aux.held = [] → l.aux.killWait = [] → u.ctl = s.ctl ∧ (u.link i).open) :
      heldAgain c reason roles := by
    refine ⟨t, hexec, h.others, h.state, h.hold, h.start, h.seqKind, h.cell, h.ul, h.mem, fun x hx hr hnone hwait => ?_⟩
    obtain ⟨hctl, hopen⟩ := hgate hnone hwait
    rw [h.sent hopen x hx hr, hctl]
  have hwithdrawn {kind : SeqKind} (hk : kind = .retune ∨ kind = .failover) (hw : withdrawn kind) : PermitWithdrawn s i := by
    obtain ⟨hkind, hkept, hprog⟩ := hw
    exact (permitWithdrawn_iff hd).2 ⟨hk.imp hkind.trans hkind.trans, hkept, hprog⟩
  refine ⟨fun a rest hq hlink hseq hout => ?plan, fun a rest hq hlink hseq hp => ?insert,
    fun a rest hq hlink hseq hp hk hst hbegan ho => ?take, fun a rest hq hlink hseq hok hst => ?learn,
    fun a rest hq hlink hseq hp => ?live, fun a rest hq hlink => ?update, fun n rest o hq ho hk hp hmute => ?purge⟩
  case plan =>
    subst hlink
    have h : Answered a.link s (planned a rest s) := answered_planned hi
    have hok (hr : a.result = .ok) : planningAnswerStep s = inserted a.link a.roles (planned a rest s) := by
      rw [planningAnswerStep_eq hq hseq hout, hr]
    refine ⟨fun hr hk hst => ?_, fun hr hk hst hp => ?_, fun hr hw hidle => ?_, fun o hr hnot ho hk => ?_, fun hr => next_finishLink ?_⟩
    · exact htuned (next_finishLink (hok hr)) h (not_permitWithdrawn_enable hk) (if_pos hst)
    · exact htuned (next_finishLink (hok hr)) h (not_permitWithdrawn hd hp) (by rw [hst]; rfl)
    · refine hheld (next_finishLink (hok hr)) (h.holds_retune hi a.roles (hwithdrawn (.inl rfl) hw) hw.1) fun _ hwait => ?_
      exact ⟨rfl, planned_open hi ⟨hidle, hwait⟩⟩
    · have hgone := hback (c := .planningAnswer) h (next_finishLink (planningAnswerStep_refused hq hseq hout hr hnot)) ho hk
      rwa [attempts_planned hi] at hgone
    · rw [planningAnswerStep_eq hq hseq hout, hr]
      rfl
  case insert =>
    subst hlink
    obtain ⟨u, hu⟩ : ∃ u, u = linkAnswered a.link { s with mail.insertAnswers := rest } := ⟨_, rfl⟩
    have h : Answered a.link s u := hu ▸ answered_linkAnswered hi rfl rfl rfl
    have hok (hr : a.result = .ok) : insertionAnswerStep s = inserted a.link a.roles u := by
      rw [insertionAnswerStep_eq hq hseq hp hi (by rw [hr]; decide), hr, hu]
    refine ⟨fun hr hk hst => ?_, fun hr hk hst hpermit => ?_, fun hr hw => ?_, fun o hr hnot ho hk => ?_⟩
    · exact htuned (next_finishLink (hok hr)) h (not_permitWithdrawn_enable hk) (by rw [hst]; rfl)
    · exact htuned (next_finishLink (hok hr)) h (not_permitWithdrawn hd hpermit) (by rw [hst]; rfl)
    · refine hheld (next_finishLink (hok hr)) (h.holds_retune hi a.roles (hwithdrawn (.inl rfl) hw) hw.1) fun hnone hwait => ?_
      exact hu ▸ gate_linkAnswered hi rfl rfl hnone hwait
    · have hrefused := insertionAnswerStep_refused hq hseq hp hi hr hnot
      rw [← hu] at hrefused
      have hkept : (u.link a.link).aux.attempts = l.aux.attempts := by
        obtain ⟨x, y, hlink⟩ := link_linkAnswered (s := { s with mail.insertAnswers := rest }) hi
        rw [hu, hlink]
        rfl
      have hgone := hback (c := .insertionAnswer) h (next_finishLink hrefused) ho hk
      rwa [hkept] at hgone
  case take =>
    subst hlink
    obtain ⟨u, hu⟩ : ∃ u, u = linkAnswered a.link { s with mail.takeAnswers := rest } := ⟨_, rfl⟩
    have h : Answered a.link s u := hu ▸ answered_linkAnswered hi rfl rfl rfl
    have hstep (hnot : a.result ≠ .cancelled) := failoverTakeAnswerStep_eq hq hseq hp hi hnot
    have hpath := failoverTakePath_eq hq hseq hp
    rw [← hu] at hstep
    have hexec {t : State} (hnone : failoverTakePath s = []) (ht : failoverTakeAnswerStep s = t) :
        exec .failoverTakeAnswer s = .next (finishLink s t) := by
      subst ht
      show Host.Outcome.next (finishLinkPath (failoverTakePath s) s (failoverTakeAnswerStep s)) = _
      rw [hnone]
      rfl
    have hok (hr : a.result = .ok) : exec .failoverTakeAnswer s = .next (finishLink s (inserted a.link a.roles u)) :=
      hexec (hpath.trans (by rw [hr]; rfl)) ((hstep (by rw [hr]; decide)).trans (by rw [hr]))
    refine ⟨fun hr hpermit => ?_, fun hr hw hcalm => ?_, fun hr => ?_, fun hr => ?_⟩
    · exact htuned (hok hr) h (not_permitWithdrawn hd hpermit) (by rw [hst]; rfl)
    · refine hheld (hok hr) (h.holds_failover hi a.roles (hwithdrawn (.inr rfl) hw) hk hcalm) fun hnone hwait => ?_
      exact hu ▸ gate_linkAnswered hi rfl rfl hnone hwait
    · obtain ⟨b, hb, ht⟩ : ∃ b, (if a.result = .noReserve then FailoverBlock.noReserve else .tableFull) = b ∧
          exec .failoverTakeAnswer s = .next (finishLink s (returnBlocked b a.link a.result u)) := by
        rcases hr with hr | hr
        · exact ⟨.noReserve, by rw [hr]; rfl,
            hexec (hpath.trans (by rw [hr]; rfl)) ((hstep (by rw [hr]; decide)).trans (by rw [hr]))⟩
        · exact ⟨.tableFull, by rw [hr]; rfl,
            hexec (hpath.trans (by rw [hr]; rfl)) ((hstep (by rw [hr]; decide)).trans (by rw [hr]))⟩
      obtain ⟨hrefused, hblock, hreports, hretry⟩ := h.takeBlocked hi hbegan ho b a.result
      exact ⟨_, ht, hrefused.others, hrefused.state, hblock.trans hb.symm, hrefused.seqKind, hrefused.mem, hreports, hretry⟩
    · obtain ⟨hrefused, hblock, hretry⟩ := h.takeVoid hi hbegan ho .wrongState
      have hpath' := hpath.trans (by rw [hr]; rfl :
        _ = [modLink a.link Link.backToStart { s with mail.takeAnswers := rest }])
      have heq : failoverTakeAnswerStep s = evaluateFailover a.link (returned id a.link .wrongState u) := by
        rw [hstep (by rw [hr]; decide), hr]
        exact (returnWith_eq ..).trans (if_pos (h.began.trans hbegan))
      have hback := link_modLink_self (s := { s with mail.takeAnswers := rest }) hi Link.backToStart
      refine ⟨_, _, hpath', (LinkOp.modLink a.link _ { s with mail.takeAnswers := rest }).others, ?_, ?_, ?_, hrefused.others,
        hrefused.state, hrefused.seqKind, hblock, hretry, hrefused.mem⟩
      · rw [State.linkRec, hback]
        exact hbegan
      · rw [State.linkRec, hback]
        rfl
      · show Host.Outcome.next (finishLinkPath (failoverTakePath s) s (failoverTakeAnswerStep s)) = _
        rw [hpath', heq]
  case learn =>
    subst hlink
    intro learned
    obtain ⟨u, hu⟩ : ∃ u, u = linkAnswered a.link { s with mail.learnAnswers := rest } := ⟨_, rfl⟩
    have h : Answered a.link s u := hu ▸ answered_linkAnswered hi rfl rfl rfl
    have hstep := learnAnswerStep_eq hq hseq hok hst hi hd
    rw [← hu] at hstep
    have hlearned {t : State} (ht : Learnt a.link d a.roles s t) : learned t :=
      ⟨ht.others, ht.mem, ht.learning, ht.told, ht.untracked, ht.role⟩
    refine ⟨fun hka => ?_, fun hka hnone => ?_, fun hka hsome hnone hwait => ?_⟩
    · obtain ⟨hlearnt, hactive, -, -⟩ := h.learnt_active hi hd a.roles false
      refine ⟨_, next_finishLink ?_, hlearned hlearnt, hactive⟩
      rw [hstep]
      dsimp only
      rw [hka]
      rfl
    · obtain ⟨hlearnt, hactive, hbare, hkc⟩ := h.learnt_active hi hd a.roles true
      refine ⟨_, next_finishLink ?_, hlearned hlearnt, hactive, hbare rfl⟩
      rw [hstep]
      dsimp only
      rw [hka, if_pos rfl, hnone]
      exact evaluateFailover_idle fun ⟨_, _, hclear, _⟩ => by
        rw [hkc, hka] at hclear
        cases hclear
    · intro named
      obtain ⟨hctl, hopen⟩ : u.ctl = s.ctl ∧ (u.link a.link).open := hu ▸ gate_linkAnswered hi rfl rfl hnone hwait
      obtain ⟨hlearnt, hkilled, hlists, hsent⟩ := h.learnt_killed (d := d) hi a.roles
        (named.map fun x => { role := x.role, code := x.code, change := .become .silent }) [muteTarget a.link d]
      refine ⟨_, next_finishLink ?_, hlearned hlearnt, hkilled, ?_, hlists⟩
      · rw [hstep]
        dsimp only
        rw [if_pos hka, if_pos hsome]
      · rw [hsent hopen, updateOf_map, hctl]
  case live =>
    subst hlink
    obtain ⟨u, hu⟩ : ∃ u, u = linkAnswered a.link { s with mail.liveAnswers := rest } := ⟨_, rfl⟩
    have h : Answered a.link s u := hu ▸ answered_linkAnswered hi rfl rfl rfl
    have hstep := liveUpdateAnswerStep_eq hq hseq hp hi
    rw [← hu] at hstep
    have halive := h.alive hi
    have hlive : live (enlivened a.link u) := ⟨halive.others, halive.state, halive.seqKind, halive.phase, halive.block, halive.needed,
      halive.good, halive.present⟩
    refine ⟨fun o ho hk => ?_, fun ho => ?_⟩
    · obtain ⟨hcell, hends, hreports⟩ := h.alive_order hi hm h96 ho
      exact ⟨_, next_finishLink hstep, hlive, hcell, hends, hreports⟩
    · obtain ⟨hcell, hmem, hdisp, hreports⟩ := h.alive_none hi ho
      exact ⟨_, next_finishLink hstep, hlive, hcell, hmem, hdisp, hreports⟩
  case update =>
    subst hlink
    obtain ⟨hop, hrec, hnone, hnext, hframe⟩ := updateAnswerStep_spec hq hi
    exact ⟨updateAnswerStep s, rfl, hop.others, hrec, hnone, hnext, hframe⟩
  case purge =>
    obtain ⟨t, heq, hrest⟩ := purgeAnswerStep_ends hm h96 hi hq ho hk hp hmute
    exact ⟨t, next_finishLink heq, hrest⟩

end Sys2Proof.Machine
end

section
/-! PROOFS. O40: the statement on one link names any index in the supervisor's list, and a cell's subject has 16 bits. -/

open Sys2Proof Sys2Proof.Machine

namespace Sys2Proof.Machine

theorem readLE_lt (m : List Host.Cell) (a n : Nat) : Memory.readLE m a n < 256 ^ n := by
  induction n generalizing a with
  | zero => exact Nat.one_pos
  | succ n ih =>
    have hbyte : (Memory.read m a).toNat < 256 := (Memory.read m a).isLt
    have hrest := ih (a + 1)
    rw [Memory.readLE, Nat.pow_succ]
    omega

/-- The subject that a cell shows is one of 16 bits (TABLE 12-4). -/
theorem cellShows_subject_lt {m : List Host.Cell} {cell st code subject : Nat} (h : CellShows m cell st code subject) :
    subject < 65536 := by
  obtain ⟨-, -, hsubject⟩ := h
  exact hsubject ▸ readLE_lt m (cellBase cell + 6) 2

/-! ### A state with more links than the part has -/

/-- A retune in service. -/
def lateOrder : LinkOrder :=
  { tag := { cell := 0, kind := 0, clamped := false }, kind := .retune, link := 0, roleOut := true, roleIn := false
    codeOut := none, codeIn := none, force := false }

def lateDef : LinkDef :=
  { kind := .camera, unit := 0, chan := 0, camera := 1, zone := 0, outRole := none, inRole := none, auto := false, attn := false
    delayS := 0, holdS := 0 }

/-- Link n, with n links below it, is held for its order. -/
def crowded (n : Nat) : State :=
  { State.reset with
    sup := { State.reset.sup with
      defs := List.replicate n none ++ [some lateDef]
      links := List.replicate n Link.reset ++
        [{ vis := { LinkRec.reset with state := .holding, hold := some .order }
           aux := { LinkAux.reset with order := some lateOrder } }] } }

theorem getD_replicate_append {α : Type} (n : Nat) (a b c : α) : (List.replicate n a ++ [b]).getD n c = b := by
  rw [List.getD_append_right _ _ _ _ (by simp)]
  simp

theorem crowded_spec (n : Nat) : Memory.wf (crowded n).mem ∧ n < (crowded n).sup.links.length ∧
    (crowded n).linkDef n = some lateDef ∧ ((crowded n).link n).aux.order = some lateOrder ∧
    ((crowded n).link n).vis.state = .holding := by
  have hlink : (crowded n).link n =
      { vis := { LinkRec.reset with state := .holding, hold := some .order }
        aux := { LinkAux.reset with order := some lateOrder } } := getD_replicate_append ..
  refine ⟨Memory.wf_nil, by simp [crowded], getD_replicate_append .., ?_, ?_⟩
  · rw [hlink]
  · rw [hlink]

/-- Refutes O40. Its second part takes any index below the length of the supervisor's list, which it does not bound by the part's
96 links; and it has the order of the link complete with that index as the subject of its cell. At link 65,536 of a (not reachable)
state with 65,537 links, the 16 bits of the subject (TABLE 12-4) cannot show it. -/
theorem not_killTreatsEveryLink : ¬ Obligations.KillTreatsEveryLink := by
  rintro ⟨-, htreat, -, -⟩
  obtain ⟨hm, hi, hd, ho, hst⟩ := crowded_spec 65536
  obtain ⟨-, -, -, hends, -⟩ := htreat (crowded 65536) 65536 lateDef hm hi hd
  obtain ⟨hshows, -⟩ := hends lateOrder ho (by decide) (.inr (.inr hst))
  exact absurd (cellShows_subject_lt hshows) (lt_irrefl _)

end Sys2Proof.Machine
end

section
/-! PROOFS. O47: what makes a reply good: the whole frame with its check, its kind and its payload (R80, R176, TABLE 5-3). -/

namespace Sys2Proof.Machine

/-! ### The payloads of replies -/

/-- Byte k of channel entry j of a REPORT's payload. -/
def reportByte (p : List Byte) (j k : Nat) : Nat := (p.getD (1 + 16 * j + k) 0).toNat

/-- The role block that begins at byte k of channel entry j (TABLE 5-3). -/
def roleAt (p : List Byte) (j k : Nat) : RoleReport :=
  { level := if reportByte p j k < 128 then reportByte p j k else reportByte p j k - 256
    quality := reportByte p j (k + 1)
    on := (reportByte p j (k + 2)).testBit 0
    settled := (reportByte p j (k + 2)).testBit 1
    code := reportByte p j (k + 3) * 65536 + reportByte p j (k + 4) * 256 + reportByte p j (k + 5) }

/-- Channel entry j of a REPORT's payload (TABLE 5-3). -/
def channelAt (p : List Byte) (j : Nat) : ChanReport :=
  { echo := { programme := (reportByte p j 0).testBit 0, preview := (reportByte p j 0).testBit 1, iso := (reportByte p j 0).testBit 2 }
    key0 := (reportByte p j 1).testBit 0, key1 := (reportByte p j 1).testBit 1, cause := reportByte p j 2
    outRep := roleAt p j 4, inRep := roleAt p j 10 }

theorem getD_drop_take {α : Type} (l : List α) (d : α) (a n k : Nat) (hk : k < n) :
    ((l.drop a).take n).getD k d = l.getD (a + k) d := by
  simp [List.getD_eq_getElem?_getD, hk]

theorem drop_take_three {l : List Byte} {a : Nat} (h : a + 3 ≤ l.length) :
    (l.drop a).take 3 = [l.getD a 0, l.getD (a + 1) 0, l.getD (a + 2) 0] := by
  have hlen : ((l.drop a).take 3).length = 3 := by rw [List.length_take, List.length_drop]; omega
  obtain ⟨x, y, z, hxyz⟩ := List.length_eq_three.1 hlen
  have hget (k : Nat) (hk : k < 3) : l.getD (a + k) 0 = [x, y, z].getD k 0 := by rw [← getD_drop_take l 0 a 3 k hk, hxyz]
  rw [hxyz, hget 1 (by decide), hget 2 (by decide), ← Nat.add_zero a, hget 0 (by decide)]
  rfl

theorem beNat_three (x y z : Byte) : beNat [x, y, z] = x.toNat * 65536 + y.toNat * 256 + z.toNat := by
  simp only [beNat, List.foldl]
  omega

theorem parseRoleBlock_at {p : List Byte} {j k : Nat} (h : 1 + 16 * j + k + 6 ≤ p.length) :
    parseRoleBlock ((p.drop (1 + 16 * j + k)).take 6) = roleAt p j k := by
  have hbyte (i : Nat) (hi : i < 6) : (((p.drop (1 + 16 * j + k)).take 6).getD i 0).toNat = reportByte p j (k + i) := by
    rw [getD_drop_take _ _ _ _ _ hi, reportByte, Nat.add_assoc _ k]
  have hcode : beNat ((((p.drop (1 + 16 * j + k)).take 6).drop 3).take 3) =
      reportByte p j (k + 3) * 65536 + reportByte p j (k + 4) * 256 + reportByte p j (k + 5) := by
    rw [drop_take_three (by rw [List.length_take, List.length_drop]; omega), beNat_three, hbyte 3 (by decide),
      hbyte 4 (by decide), hbyte 5 (by decide)]
  simp only [parseRoleBlock, hcode, hbyte 0 (by decide), hbyte 1 (by decide), hbyte 2 (by decide)]
  rfl

theorem parseChannel_at {p : List Byte} {j n : Nat} (hlen : p.length = 1 + 16 * n) (hj : j < n) :
    parseChannel ((p.drop (1 + 16 * j)).take 16) = channelAt p j := by
  have hbyte (i : Nat) (hi : i < 16) : (((p.drop (1 + 16 * j)).take 16).getD i 0).toNat = reportByte p j i := by
    rw [getD_drop_take _ _ _ _ _ hi]
    rfl
  have hrole (k : Nat) (hk : k + 6 ≤ 16) :
      parseRoleBlock ((((p.drop (1 + 16 * j)).take 16).drop k).take 6) = roleAt p j k := by
    rw [List.drop_take, List.drop_drop, List.take_take, Nat.min_eq_left (by omega), parseRoleBlock_at (by omega)]
  simp only [parseChannel, hrole 4 (by decide), hrole 10 (by decide), hbyte 0 (by decide), hbyte 1 (by decide),
    hbyte 2 (by decide)]
  rfl

theorem parseChannels_eq (n : Nat) (b : List Byte) :
    parseChannels n b = (List.range n).map fun j => parseChannel ((b.drop (16 * j)).take 16) := by
  induction n generalizing b with
  | zero => rfl
  | succ n ih =>
    rw [parseChannels, ih, List.range_succ_eq_map, List.map_cons, List.map_map]
    refine congrArg _ (List.map_congr_left fun j _ => ?_)
    rw [Function.comp_apply, List.drop_drop, Nat.mul_succ, Nat.add_comm]

theorem parseWords_eq (n : Nat) (b : List Byte) :
    parseWords n b = (List.range n).map fun k => BitVec.ofNat 32 (beNat ((b.drop (4 * k)).take 4)) := by
  induction n generalizing b with
  | zero => rfl
  | succ n ih =>
    rw [parseWords, ih, List.range_succ_eq_map, List.map_cons, List.map_map]
    refine congrArg _ (List.map_congr_left fun k _ => ?_)
    rw [Function.comp_apply, List.drop_drop, Nat.mul_succ, Nat.add_comm]

/-- The ranges of TABLE 5-3. -/
def RoleReport.Ranged (r : RoleReport) : Prop := -120 ≤ r.level ∧ r.level ≤ 0 ∧ r.quality ≤ 100 ∧ r.code ≤ 131071

theorem RoleReport.inRange_iff (r : RoleReport) : r.inRange = true ↔ r.Ranged := by
  simp only [RoleReport.inRange, Bool.and_eq_true, decide_eq_true_eq, and_assoc]
  rfl

/-- A REPORT of one to four channel entries, each with its two roles in range. -/
theorem parseReport_eq_some {unit : Nat} {p : List Byte} {r : Reply} :
    parseReport unit p = some r ↔ ∃ n, 1 ≤ n ∧ n ≤ 4 ∧ p.length = 1 + 16 * n ∧ p.headD 0 = BitVec.ofNat 8 n ∧
      (∀ j, j < n → (roleAt p j 4).Ranged ∧ (roleAt p j 10).Ranged) ∧
      r = .report { unit := unit, channels := (List.range n).map (channelAt p) } := by
  have hchannels {n : Nat} (hlen : p.length = 1 + 16 * n) : parseChannels n (p.drop 1) = (List.range n).map (channelAt p) := by
    rw [parseChannels_eq]
    refine List.map_congr_left fun j hj => ?_
    rw [List.drop_drop, parseChannel_at hlen (List.mem_range.1 hj)]
  have hranges (n : Nat) : ((List.range n).map (channelAt p)).all ChanReport.inRange = true ↔
      ∀ j, j < n → (roleAt p j 4).Ranged ∧ (roleAt p j 10).Ranged := by
    simp only [List.all_map, List.all_eq_true, List.mem_range, Function.comp_apply, ChanReport.inRange, Bool.and_eq_true,
      RoleReport.inRange_iff]
    rfl
  simp only [parseReport, Option.ite_none_right_eq_some, Bool.and_eq_true, decide_eq_true_eq, Option.some.injEq]
  constructor
  · rintro ⟨⟨⟨hlow, hhigh⟩, hlen⟩, hall, rfl⟩
    rw [hchannels hlen] at hall ⊢
    exact ⟨_, hlow, hhigh, hlen, BitVec.eq_of_toNat_eq (by simp), (hranges _).1 hall, rfl⟩
  · rintro ⟨n, hlow, hhigh, hlen, hhead, hall, rfl⟩
    have hn : (p.headD 0).toNat = n := by rw [hhead, BitVec.toNat_ofNat]; exact Nat.mod_eq_of_lt (by omega)
    rw [hn, hchannels hlen]
    exact ⟨⟨⟨hlow, hhigh⟩, hlen⟩, (hranges n).2 hall, rfl⟩

/-! ### The frame of a reply (R176) -/

theorem beBytes_length (v n : Nat) : (beBytes v n).length = n := by rw [beBytes, List.length_reverse, leBytes_length]

/-- The payload that the request's reply has, if it has one. -/
def UlReq.parse (q : UlReq) (kind : Nat) (payload : List Byte) : Option Reply :=
  q.reply.bind fun expected => parsePayload q.address expected kind payload

section
variable {q : UlReq} {kind : Nat} {payload : List Byte} {r : Reply}

theorem UlReq.parse_eq {expected : ReplyKind} (h : q.reply = some expected) :
    q.parse kind payload = parsePayload q.address expected kind payload := by rw [parse, h]; rfl

theorem UlReq.parse_none (h : q.reply = none) : q.parse kind payload ≠ some r := by rw [parse, h]; nofun

theorem UlReq.parse_ack (h : q.reply = some .ack) :
    q.parse kind payload = some r ↔ kind = 0x82 ∧ payload = [] ∧ r = .ack := by
  simp only [parse_eq h, parsePayload, Option.ite_none_right_eq_some, Bool.and_eq_true, decide_eq_true_eq,
    List.length_eq_zero_iff, Option.some.injEq, and_assoc, eq_comm (a := Reply.ack)]

theorem UlReq.parse_echo (h : q.reply = some .echo) : q.parse kind payload = some r ↔ kind = 0x87 ∧ payload.length = 32 ∧
    r = .echo ((List.range 8).map fun k => BitVec.ofNat 32 (beNat ((payload.drop (4 * k)).take 4))) := by
  simp only [parse_eq h, parsePayload, Option.ite_none_right_eq_some, Bool.and_eq_true, decide_eq_true_eq,
    Option.some.injEq, and_assoc, parseWords_eq, eq_comm (b := r)]

theorem UlReq.parse_report (h : q.reply = some .report) : q.parse kind payload = some r ↔ kind = 0x81 ∧
    ∃ n, 1 ≤ n ∧ n ≤ 4 ∧ payload.length = 1 + 16 * n ∧ payload.headD 0 = BitVec.ofNat 8 n ∧
      (∀ j, j < n → (roleAt payload j 4).Ranged ∧ (roleAt payload j 10).Ranged) ∧
      r = .report { unit := q.address, channels := (List.range n).map (channelAt payload) } := by
  rw [parse_eq h, parsePayload, Option.ite_none_right_eq_some, parseReport_eq_some]

/-- The kind of a reply is a byte. -/
theorem UlReq.parse_kind_lt (h : q.parse kind payload = some r) : kind < 256 := by
  cases hreply : q.reply with
  | none => exact absurd h (parse_none hreply)
  | some expected =>
    cases expected with
    | ack => obtain ⟨hkind, -⟩ := (parse_ack hreply).1 h; omega
    | echo => obtain ⟨hkind, -⟩ := (parse_echo hreply).1 h; omega
    | report => obtain ⟨hkind, -⟩ := (parse_report hreply).1 h; omega

theorem goodReply_frameOf (ha : q.address < 256) (hk : kind < 256)
    (hp : payload.length < 256) : goodReply q (frameOf q.address kind payload) = q.parse kind payload := by
  have ha' : (BitVec.ofNat 8 q.address).toNat = q.address := by rw [BitVec.toNat_ofNat]; exact Nat.mod_eq_of_lt ha
  have hk' : (BitVec.ofNat 8 kind).toNat = kind := by rw [BitVec.toNat_ofNat]; exact Nat.mod_eq_of_lt hk
  have hp' : (BitVec.ofNat 8 payload.length).toNat = payload.length := by rw [BitVec.toNat_ofNat]; exact Nat.mod_eq_of_lt hp
  simp only [frameOf, List.cons_append, List.nil_append, goodReply, ha', hk', hp', List.length_append, beBytes_length,
    List.take_left, List.drop_left, decide_true, Bool.and_self, if_true, UlReq.parse]
  cases q.reply <;> rfl

/-- A reply is good when it is the whole frame of a payload that the request's reply has. -/
theorem goodReply_eq_some {bytes : List Byte} :
    goodReply q bytes = some r ↔ q.address < 256 ∧ ∃ (kind : Nat) (payload : List Byte), payload.length < 256 ∧
      bytes = frameOf q.address kind payload ∧ q.parse kind payload = some r := by
  constructor
  · intro h
    have hgood := h
    unfold goodReply at h
    split at h
    · next a k l rest =>
      dsimp only at h
      split at h
      · next hframe =>
        simp only [Bool.and_eq_true, decide_eq_true_eq] at hframe
        obtain ⟨⟨hlen, hcheck⟩, haddress⟩ := hframe
        have htake : (rest.take l.toNat).length = l.toNat := by rw [List.length_take]; omega
        have hpayload : (rest.take l.toNat).length < 256 := lt_of_eq_of_lt htake l.isLt
        have hbytes : a :: k :: l :: rest = frameOf q.address k.toNat (rest.take l.toNat) := by
          simp only [frameOf, htake, ← haddress, BitVec.ofNat_toNat, BitVec.setWidth_eq, List.cons_append, List.nil_append,
            ← hcheck, List.take_append_drop]
        refine ⟨haddress ▸ a.isLt, k.toNat, rest.take l.toNat, hpayload, hbytes, ?_⟩
        rwa [hbytes, goodReply_frameOf (haddress ▸ a.isLt) k.isLt hpayload] at hgood
      · cases h
    · cases h
  · rintro ⟨ha, kind, payload, hp, rfl, hparse⟩
    rwa [goodReply_frameOf ha (UlReq.parse_kind_lt hparse) hp]

end

end Sys2Proof.Machine
end

section
/-! PROOFS. O47: the sweep and the attention round when a poll ends, and the transaction machine's steps (R80 to R83, R88, R96). -/

namespace Sys2Proof.Machine

/-! ### The next poll of the sweep (R88) -/

section
variable {s : State}

theorem running_of_part (hp : s.part = .running) : s.running = true := decide_eq_true hp

theorem trySweep_due {u : Nat} (hp : s.part = .running) (hout : s.ul.sweepOut = false) (hdue : s.ul.sweepDue ≤ s.tb.elapsed)
    (hu : nextAddress s.ul.units s.ul.sweepPos = some u) : trySweep s =
      placeSweep (.poll u) { s with
        ul.sweepPos := some u, ul.sweepOut := true, ul.sweepDue := s.tb.elapsed + s.pollSpacing } := by
  have hreached : s.reached s.ul.sweepDue = true := decide_eq_true hdue
  simp [trySweep, running_of_part hp, hout, hreached, hu]

theorem trySweep_early (h : s.reached s.ul.sweepDue = false) : trySweep s = s := by simp [trySweep, h]

/-- The next poll of the sweep is that class's own matter. -/
theorem trySweep_sweep_frame (s : State) : trySweep s = { s with
    ul.sweepQ := (trySweep s).ul.sweepQ, ul.sweepPos := (trySweep s).ul.sweepPos, ul.sweepOut := (trySweep s).ul.sweepOut
    ul.sweepDue := (trySweep s).ul.sweepDue } := by
  unfold trySweep placeSweep
  split
  · split <;> rfl
  · rfl

/-- A poll that ends before the spacing has passed places no other. -/
theorem sweepPollEnded_early (u : Nat) (h : s.reached s.ul.sweepDue = false) : sweepPollEnded u s = { s with
    ul.sweepOut := false
    ul.sweepCount := if s.ul.units.getLast? = some u then (s.ul.sweepCount + 1) % 2 ^ 32 else s.ul.sweepCount } := by
  unfold sweepPollEnded
  dsimp only
  split
  · exact trySweep_early h
  · exact trySweep_early h

theorem sweepPollEnded_xact (u : Nat) (s : State) : (sweepPollEnded u s).ul.xact = s.ul.xact := by
  unfold sweepPollEnded
  dsimp only
  rw [trySweep_sweep_frame]
  split <;> rfl

theorem sweepPollEnded_mail (u : Nat) (s : State) : (sweepPollEnded u s).mail = s.mail := by
  unfold sweepPollEnded
  dsimp only
  rw [trySweep_sweep_frame]
  split <;> rfl

/-! ### The attention round (R96) -/

/-- The units of the round: an empty set is refilled. -/
def State.roundUnits (s : State) : List Nat := if s.ul.roundSet = [] then attentionCapable s else s.ul.roundSet

/-- The last address polled in the round: none, when the set is refilled. -/
def State.roundPos (s : State) : Option Nat := if s.ul.roundSet = [] then none else s.ul.attnPos

theorem placeAttention_next {v : Nat} (hp : s.part = .running) (huatn : s.ul.uatn = true) (hout : s.ul.attnOut = false)
    (hv : nextAddress s.roundUnits s.roundPos = some v) : placeAttention s = { s with
      ul.roundSet := s.roundUnits, ul.attnPos := some v, ul.attnQ := some v, ul.attnOut := true } := by
  have hplace : (s.running && s.ul.uatn && !s.ul.attnOut) = true := by rw [running_of_part hp, huatn, hout]; rfl
  unfold State.roundUnits State.roundPos at *
  rw [placeAttention, if_pos hplace]
  by_cases hempty : s.ul.roundSet = []
  · simp only [hempty, if_true] at hv ⊢
    rw [hv]
  · simp only [hempty, if_false] at hv ⊢
    rw [hv]

theorem placeAttention_stays (h : s.part ≠ .running ∨ s.ul.uatn = false ∨ s.ul.attnOut = true) : placeAttention s = s := by
  refine if_neg ?_
  rcases h with hp | huatn | hout
  · simp [State.running, hp]
  · simp [huatn]
  · simp [hout]

/-- After an attention poll, with `left` left in the round, the next address of the round is polled. -/
theorem attentionPollEnded_next {u v : Nat} {quiet : Bool} {left : List Nat} (hp : s.part = .running) (huatn : s.ul.uatn = true)
    (hleft : left = if quiet then s.ul.roundSet.filter (· ≠ u) else s.ul.roundSet)
    (hv : nextAddress (if left = [] then attentionCapable s else left) (if left = [] then none else s.ul.attnPos) = some v) :
    attentionPollEnded u quiet s = { s with
      ul.roundSet := if left = [] then attentionCapable s else left, ul.attnPos := some v, ul.attnQ := some v
      ul.attnOut := true } := by
  have hstep : attentionPollEnded u quiet s = placeAttention { s with ul.attnOut := false, ul.roundSet := left } := by
    rw [hleft]
    cases quiet <;> rfl
  exact hstep.trans (placeAttention_next (s := { s with ul.attnOut := false, ul.roundSet := left }) hp huatn rfl hv)

theorem Report.quiet_iff (r : Report) : r.quiet = true ↔ ∀ y ∈ r.channels, y.cause = 0 := by
  simp only [Report.quiet, List.all_eq_true, decide_eq_true_eq]

end

/-! ### A CONTROL transaction that fails (R83, R89) -/

theorem endFailed_control {c : ControlReq} (h : c.kind ≠ .settlePoll) (s : State) :
    endFailed (.controlReq c) s = tellSupervisor c .failed { s with ul.xact := none } :=
  congrArg (tellSupervisor c .failed) (if_neg h)

theorem endFailed_settlePoll {c : ControlReq} (h : c.kind = .settlePoll) (s : State) :
    endFailed (.controlReq c) s = tellSupervisor c .failed (missUnit c.unit { s with ul.xact := none }) :=
  congrArg (tellSupervisor c .failed) (if_pos h)

/-! ### The transaction machine's steps (R80, R81) -/

/-- No good reply has come to a request: a bad one, or the end of its reply timeout. -/
def Unanswered (bytes : List Byte) (s : State) (x : Transaction) (e : Instr) : Prop :=
  (e = .unitFrameReceived bytes ∧ goodReply x.req bytes = none) ∨ (e = .replyTimeout ∧ x.deadline ≤ s.tb.elapsed)

section
variable {bytes : List Byte} {s : State} {x : Transaction} {e : Instr}

theorem unitFrameReceivedStep_idle (hx : s.ul.xact = none) : unitFrameReceivedStep bytes s = s := by
  unfold unitFrameReceivedStep
  rw [hx]

theorem unitFrameReceivedStep_sending (hx : s.ul.xact = some x) (hs : x.sending = true) : unitFrameReceivedStep bytes s = s := by
  unfold unitFrameReceivedStep
  rw [hx]
  exact if_pos hs

theorem unitFrameReceivedStep_good {r : Reply} (hx : s.ul.xact = some x) (hs : x.sending = false)
    (hgood : goodReply x.req bytes = some r) : unitFrameReceivedStep bytes s = endAnswered x.req r s := by
  unfold unitFrameReceivedStep
  rw [hx]
  dsimp only
  rw [hs, hgood]
  rfl

theorem unitFrameReceivedStep_bad (hx : s.ul.xact = some x) (hs : x.sending = false)
    (hbad : goodReply x.req bytes = none) : unitFrameReceivedStep bytes s = noReply x s := by
  unfold unitFrameReceivedStep
  rw [hx]
  dsimp only
  rw [hs, hbad]
  rfl

theorem replyTimeoutStep_due (hx : s.ul.xact = some x) (hs : x.sending = false) (hdue : x.deadline ≤ s.tb.elapsed) :
    replyTimeoutStep s = noReply x s := by
  have hreached : s.reached x.deadline = true := decide_eq_true hdue
  unfold replyTimeoutStep
  rw [hx]
  simp [hs, hreached]

theorem frameTransmittedStep_silence (hx : s.ul.xact = some x) (hs : x.sending = true) (hreq : x.req = .killReq .silence) :
    frameTransmittedStep s = { s with ul.xact := none } := by
  unfold frameTransmittedStep
  rw [hx]
  dsimp only
  rw [hs, hreq]
  rfl

/-- Every other frame starts the reply timeout. -/
theorem frameTransmittedStep_waits (hx : s.ul.xact = some x) (hs : x.sending = true) (hreq : x.req ≠ .killReq .silence) :
    frameTransmittedStep s = { s with ul.xact := some { x with sending := false, deadline := s.tb.elapsed + 1536 } } := by
  unfold frameTransmittedStep
  rw [hx]
  dsimp only
  rw [if_pos hs]
  split
  · next hsilence => exact absurd hsilence hreq
  · rfl

theorem exec_answered {r : Reply} (hx : s.ul.xact = some x) (hs : x.sending = false)
    (hgood : e = .unitFrameReceived bytes ∧ goodReply x.req bytes = some r) :
    exec e s = .next (finishLink s (endAnswered x.req r s)) := by
  obtain ⟨rfl, hreply⟩ := hgood
  exact next_finishLink (unitFrameReceivedStep_good hx hs hreply)

theorem exec_unanswered (hx : s.ul.xact = some x) (hs : x.sending = false) (hbad : Unanswered bytes s x e) :
    exec e s = .next (finishLink s (noReply x s)) := by
  obtain ⟨rfl, hnone⟩ | ⟨rfl, hdue⟩ := hbad
  · exact next_finishLink (unitFrameReceivedStep_bad hx hs hnone)
  · exact next_finishLink (replyTimeoutStep_due hx hs hdue)

/-- A FIRST frame is sent again, where its permit allows. -/
theorem exec_retries (hx : s.ul.xact = some x) (hs : x.sending = false) (hfirst : x.second = false)
    (hbad : Unanswered bytes s x e) : exec e s = .next (finishLink s (sendFrame x.req true s)) := by
  have hnoReply : noReply x s = sendFrame x.req true s := by rw [noReply, hfirst]; rfl
  rw [exec_unanswered hx hs hbad, hnoReply]

/-- A SECOND frame without a good reply has failed. -/
theorem exec_fails (hx : s.ul.xact = some x) (hs : x.sending = false) (hfailed : x.second = true ∧ Unanswered bytes s x e) :
    exec e s = .next (finishLink s (endFailed x.req s)) := by
  obtain ⟨hsecond, hbad⟩ := hfailed
  have hnoReply : noReply x s = endFailed x.req s := by rw [noReply, hsecond]; rfl
  rw [exec_unanswered hx hs hbad, hnoReply]

/-- The retry of a CONTROL frame. -/
theorem sendFrame_again {c : ControlReq} (hnone : s.withheldBy c = none) : sendFrame (.controlReq c) true s =
    { s with ul.xact := some { req := .controlReq c, second := true, sending := true, deadline := 0 } } := by
  rw [sendFrame_control, hnone]

theorem sendFrame_withheld {c : ControlReq} {p : PermitPart} (hw : s.withheldBy c = some p) :
    sendFrame (.controlReq c) true s = { s with
      ul.xact := none
      mail.controlOutcomes := s.mail.controlOutcomes ++
        [{ link := c.link, seq := c.seq, kind := c.kind, result := .withheld p }] } := by
  rw [sendFrame_control, hw]
  rfl

end

end Sys2Proof.Machine
end

section
/-! PROOFS. O47: the transaction machine. -/

namespace Sys2Proof.Machine

/-- Settles O47: the end of each transaction is read off endAnswered and endFailed, a poll's by what the sweep and the round do next,
and a good reply by its frame. -/
theorem transactionMachine : Obligations.TransactionMachine := by
  intro s bytes
  refine ⟨fun x hx hs => ⟨?sendingFrame, ?silence, ?waits⟩, fun hx => ?idle, fun x c hx hs hreq hkind hgood => ?acked,
    fun x u r hx hs hreq hgood hearly => ?swept, fun x e hx hs hfirst hbad => ⟨fun hreq => ?again, fun c hreq => ?permit⟩,
    fun x c hx hs hsecond hdue hreq hkind => ?failed, fun x u hx hs hsecond hdue hreq => ?missed,
    fun x e hx hs => ⟨fun q hreq => ⟨fun h => ?cueAcked, fun h => ?cueFailed⟩,
      fun l n m u k o i hreq => ⟨fun h => ?muteAcked, fun h => ?muteFailed⟩,
      fun u p hreq => ⟨fun w h => ?loopEcho, fun h => ?loopFailed⟩,
      fun c hreq hkind => ⟨fun r h => ?settleReport, fun h => ?settleFailed⟩,
      fun u hreq hp huatn => ⟨fun r h v hv => ?attentionReport, fun h v hv => ?attentionFailed⟩⟩,
    fun q r => ?goodReplies⟩
  case sendingFrame => exact next_finishLink (unitFrameReceivedStep_sending hx hs)
  case silence => exact fun hreq => next_finishLink (frameTransmittedStep_silence hx hs hreq)
  case waits => exact fun hreq => next_finishLink (frameTransmittedStep_waits hx hs hreq)
  case idle => exact next_finishLink (unitFrameReceivedStep_idle hx)
  case acked =>
    rw [exec_answered hx hs ⟨rfl, hgood⟩, hreq]
    rfl
  case swept =>
    have hended := sweepPollEnded_early (s := distribute r { s with ul.xact := none }) u hearly
    rw [exec_answered hx hs ⟨rfl, hgood⟩, hreq]
    exact ⟨_, next_finishLink hended, rfl, rfl, rfl, rfl⟩
  case again => rw [exec_retries hx hs hfirst hbad, sendFrame_begins hreq]
  case permit =>
    rw [exec_retries hx hs hfirst hbad, hreq]
    refine ⟨fun hnone => next_finishLink (sendFrame_again ?_), fun p hw => next_finishLink (sendFrame_withheld ?_)⟩
    · exact Option.eq_none_iff_forall_ne_some.2 fun p hp => hnone p (withheldBy_eq_some.1 hp)
    · exact withheldBy_eq_some.2 hw
  case failed =>
    rw [exec_fails (bytes := bytes) hx hs ⟨hsecond, .inr ⟨rfl, hdue⟩⟩, hreq, endFailed_control hkind]
    rfl
  case missed =>
    rw [exec_fails (bytes := bytes) hx hs ⟨hsecond, .inr ⟨rfl, hdue⟩⟩, hreq]
    refine ⟨_, rfl, sweepPollEnded_xact .., ?_⟩
    exact congrArg Mail.missedUnits (sweepPollEnded_mail u (missUnit u { s with ul.xact := none }))
  case cueAcked | muteAcked | loopEcho =>
    rw [exec_answered hx hs h, hreq]
    rfl
  case cueFailed | muteFailed | loopFailed =>
    rw [exec_fails hx hs h, hreq]
    rfl
  case settleReport =>
    rw [exec_answered hx hs h, hreq, ← hkind]
    rfl
  case settleFailed =>
    rw [exec_fails hx hs h, hreq, endFailed_settlePoll hkind, ← hkind]
    rfl
  case attentionReport =>
    rw [exec_answered hx hs h, hreq]
    exact next_finishLink (attentionPollEnded_next (s := distribute r { s with ul.xact := none }) hp huatn
      (if_congr r.quiet_iff rfl rfl).symm hv)
  case attentionFailed =>
    rw [exec_fails hx hs h, hreq]
    exact next_finishLink (attentionPollEnded_next (s := missUnit u { s with ul.xact := none }) (quiet := false) hp huatn rfl hv)
  case goodReplies =>
    rw [goodReply_eq_some]
    refine and_congr_right fun _ => exists_congr fun kind => exists_congr fun payload =>
      and_congr_right fun _ => and_congr_right fun _ => ?_
    cases hreply : q.reply with
    | none => exact iff_false_intro (UlReq.parse_none hreply)
    | some expected =>
      cases expected with
      | ack => exact UlReq.parse_ack hreply
      | echo => exact UlReq.parse_echo hreply
      | report => exact UlReq.parse_report hreply

end Sys2Proof.Machine
end

section
/-! PROOFS. O48: the next address of a walk, and the rounds begun and rebuilt (R86 to R88, R96). -/

namespace Sys2Proof.Machine

/-! ### The next address (R88, R96) -/

/-- The addresses above the last one polled: every address, when there is none. -/
def Above (pos : Option Nat) (v : Nat) : Prop := ∀ p, pos = some p → p < v

/-- The address that a walk polls next: the lowest above its position, or the lowest of all. -/
def IsNext (l : List Nat) (pos : Option Nat) (u : Nat) : Prop :=
  u ∈ l ∧ (((∃ v ∈ l, Above pos v) ∧ Above pos u ∧ ∀ v ∈ l, Above pos v → u ≤ v) ∨
    ((∀ v ∈ l, ¬Above pos v) ∧ ∀ v ∈ l, u ≤ v))

theorem all_lt_iff_above {pos : Option Nat} {v : Nat} : (pos.all fun p => p < v) = true ↔ Above pos v := by
  cases pos <;> simp [Above]

section
variable {l : List Nat} {pos : Option Nat} {u : Nat}

theorem find?_least {p : Nat → Bool} (hl : l.Pairwise (· < ·)) (h : l.find? p = some u) : ∀ v ∈ l, p v = true → u ≤ v := by
  obtain ⟨-, before, after, rfl, hbefore⟩ := List.find?_eq_some_iff_append.1 h
  obtain ⟨-, hafter, -⟩ := List.pairwise_append.1 hl
  intro v hv hpv
  obtain hv | hv := List.mem_append.1 hv
  · exact absurd hpv (by simpa using hbefore v hv)
  · obtain rfl | hv := List.mem_cons.1 hv
    · exact le_rfl
    · exact (List.rel_of_pairwise_cons hafter hv).le

theorem nextAddress_eq_none : nextAddress l pos = none ↔ l = [] := by
  unfold nextAddress
  split
  · next u hu => simpa using List.ne_nil_of_mem (List.mem_of_find?_eq_some hu)
  · exact List.head?_eq_none_iff

theorem nextAddress_isNext (hl : l.Pairwise (· < ·)) (h : nextAddress l pos = some u) : IsNext l pos u := by
  unfold nextAddress at h
  split at h
  · next w hw =>
    obtain rfl := Option.some.inj h
    have hmem := List.mem_of_find?_eq_some hw
    have habove : Above pos w := all_lt_iff_above.1 (List.find?_some (p := fun v => pos.all fun p => p < v) hw)
    exact ⟨hmem, .inl ⟨⟨w, hmem, habove⟩, habove, fun v hv hav => find?_least hl hw v hv (all_lt_iff_above.2 hav)⟩⟩
  · next hnone =>
    obtain ⟨rest, rfl⟩ := List.head?_eq_some_iff.1 h
    refine ⟨List.mem_cons_self, .inr ⟨fun v hv hav => List.find?_eq_none.1 hnone v hv (all_lt_iff_above.2 hav), fun v hv => ?_⟩⟩
    obtain rfl | hv := List.mem_cons.1 hv
    · exact le_rfl
    · exact (List.rel_of_pairwise_cons hl hv).le

theorem IsNext.unique {w : Nat} (hu : IsNext l pos u) (hw : IsNext l pos w) : u = w := by
  obtain ⟨hul, ⟨⟨v, hv, hav⟩, hau, hleast⟩ | ⟨hnone, hleast⟩⟩ := hu <;>
    obtain ⟨hwl, ⟨⟨v', hv', hav'⟩, haw, hleast'⟩ | ⟨hnone', hleast'⟩⟩ := hw
  · exact le_antisymm (hleast w hwl haw) (hleast' u hul hau)
  · exact absurd hav (hnone' v hv)
  · exact absurd hav' (hnone v' hv')
  · exact le_antisymm (hleast w hwl) (hleast' u hul)

theorem nextAddress_eq_some (hl : l.Pairwise (· < ·)) : nextAddress l pos = some u ↔ IsNext l pos u := by
  refine ⟨nextAddress_isNext hl, fun hu => ?_⟩
  have hmem : u ∈ l := hu.1
  obtain ⟨w, hw⟩ := Option.ne_none_iff_exists'.1 fun hnone => List.ne_nil_of_mem hmem (nextAddress_eq_none.1 hnone)
  rw [hw, (nextAddress_isNext hl hw).unique hu]

theorem nextAddress_first (u : Nat) (l : List Nat) : nextAddress (u :: l) none = some u := rfl

end

/-! ### The rounds (R86, R87, R96) -/

section
variable {s : State}

theorem mem_attentionCapable {u : Nat} : u ∈ attentionCapable s ↔
    u ∈ s.ul.units ∧ ∃ d, some d ∈ s.sup.defs ∧ d.unit = u ∧ d.attn = true := by
  simp only [attentionCapable, List.mem_filter, List.any_eq_true, Option.any_eq_true, Bool.and_eq_true, decide_eq_true_eq]
  refine and_congr_right fun _ => ⟨?_, ?_⟩
  · rintro ⟨x, hx, d, rfl, hd⟩
    exact ⟨d, hx, hd⟩
  · rintro ⟨d, hx, hd⟩
    exact ⟨some d, hx, d, rfl, hd⟩

theorem placeAttention_roundSet_cases (s : State) :
    (placeAttention s).ul.roundSet = s.ul.roundSet ∨ (placeAttention s).ul.roundSet = s.roundUnits := by
  unfold placeAttention State.roundUnits
  split
  · split_ifs <;> dsimp only <;> split <;> simp
  · exact .inl rfl

/-- A set that is empty only for want of capable units is the round's own. -/
theorem placeAttention_roundSet (h : s.ul.uatn = true → s.ul.roundSet = [] → attentionCapable s = []) :
    (placeAttention s).ul.roundSet = s.ul.roundSet := by
  cases huatn : s.ul.uatn with
  | false => rw [placeAttention_stays (.inr (.inl huatn))]
  | true =>
    have hround : s.roundUnits = s.ul.roundSet := by
      unfold State.roundUnits
      split
      · next hempty => rw [hempty, h huatn hempty]
      · rfl
    rcases placeAttention_roundSet_cases s with hset | hset
    · exact hset
    · exact hset.trans hround

/-- With units in the round, the next of them is polled. -/
theorem placeAttention_polls {v : Nat} (hp : s.part = .running) (huatn : s.ul.uatn = true) (hout : s.ul.attnOut = false)
    (hv : nextAddress s.ul.roundSet s.ul.attnPos = some v) : placeAttention s = { s with
      ul.attnPos := some v, ul.attnQ := some v, ul.attnOut := true } := by
  have hset : s.ul.roundSet ≠ [] := fun hempty => by rw [nextAddress_eq_none.2 hempty] at hv; cases hv
  have hunits : s.roundUnits = s.ul.roundSet := if_neg hset
  have hpos : s.roundPos = s.ul.attnPos := if_neg hset
  rw [placeAttention_next hp huatn hout (by rwa [hunits, hpos]), hunits]

/-- A round begins with its lowest unit. -/
theorem beginRound_polls {u : Nat} {l : List Nat} (hp : s.part = .running) (huatn : s.ul.uatn = true)
    (hout : s.ul.attnOut = false) (hcapable : attentionCapable s = u :: l) : beginRound s = { s with
      ul.roundSet := u :: l, ul.attnPos := some u, ul.attnQ := some u, ul.attnOut := true } := by
  rw [beginRound, hcapable]
  exact placeAttention_polls (s := { s with ul.roundSet := u :: l, ul.attnPos := none }) hp huatn hout (nextAddress_first u l)

/-- UATN_ASSERTED begins a round in RUNNING. -/
theorem uatnAssertedStep_begins (hp : s.part = .running) (huatn : s.ul.uatn = false) :
    uatnAssertedStep s = beginRound { s with ul.uatn := true } := by
  unfold uatnAssertedStep
  refine if_pos ?_
  rw [huatn]
  exact (Bool.and_true _).trans (running_of_part hp)

/-- The attention-capable units of the rebuilt list. -/
def State.relistedCapable (s : State) : List Nat := attentionCapable { s with ul.units := unitList s.sup.defs }

/-- The units of the round that are still capable. -/
def State.keptRound (s : State) : List Nat := s.ul.roundSet.filter fun u => s.relistedCapable.contains u

/-- The rebuilt unit list, with the round that it leaves, before the next polls. -/
def State.relisted (round : List Nat) (pos : Option Nat) (s : State) : State :=
  { s with
    ul.units := unitList s.sup.defs, ul.sweepDue := if s.ul.units = [] then s.tb.elapsed else s.ul.sweepDue
    ul.roundSet := round, ul.attnPos := pos }

/-- The round is begun again: none of its units is still capable, and UATN is asserted. -/
def State.roundFresh (s : State) : Prop := s.keptRound = [] ∧ s.ul.uatn = true

theorem rebuildUnits_fresh (h : s.roundFresh) : rebuildUnits s =
    trySweep (placeAttention (s.relisted s.relistedCapable none)) := by
  obtain ⟨hkept, huatn⟩ := h
  exact congrArg (fun t => trySweep (placeAttention t)) (if_pos (Bool.and_eq_true_iff.2 ⟨decide_eq_true hkept, huatn⟩))

theorem rebuildUnits_kept (h : ¬s.roundFresh) :
    rebuildUnits s = trySweep (placeAttention (s.relisted s.keptRound s.ul.attnPos)) := by
  refine congrArg (fun t => trySweep (placeAttention t)) (if_neg fun hfresh => h ?_)
  obtain ⟨hkept, huatn⟩ := Bool.and_eq_true_iff.1 hfresh
  exact ⟨of_decide_eq_true hkept, huatn⟩

/-- A rebuild as the statement has it, for a round and a position that it begins with. -/
structure Rebuilt (round : List Nat) (pos : Option Nat) (s t : State) : Prop where
  set : t.ul.roundSet = round
  stays : s.ul.uatn = false ∨ s.ul.attnOut = true ∨ s.part ≠ .running →
    t.ul.attnQ = s.ul.attnQ ∧ t.ul.attnOut = s.ul.attnOut ∧ t.ul.attnPos = pos
  polls : ∀ u, s.ul.uatn = true → s.ul.attnOut = false → s.part = .running → nextAddress round pos = some u →
    t.ul.attnQ = some u ∧ t.ul.attnOut = true ∧ t.ul.attnPos = some u

theorem rebuilt_of_relisted {round : List Nat} {pos : Option Nat}
    (hround : s.ul.uatn = true → round = [] → s.relistedCapable = []) :
    Rebuilt round pos s (trySweep (placeAttention (s.relisted round pos))) := by
  refine ⟨?_, fun hstays => ?_, fun u huatn hout hp hu => ?_⟩ <;> rw [trySweep_sweep_frame]
  · exact placeAttention_roundSet (s := s.relisted round pos) hround
  · have hkeep : (s.relisted round pos).part ≠ .running ∨ (s.relisted round pos).ul.uatn = false ∨
        (s.relisted round pos).ul.attnOut = true := (or_assoc.2 hstays |>.symm)
    rw [placeAttention_stays hkeep]
    exact ⟨rfl, rfl, rfl⟩
  · rw [placeAttention_polls (s := s.relisted round pos) hp huatn hout hu]
    exact ⟨rfl, rfl, rfl⟩

theorem rebuildUnits_rebuilt_fresh (h : s.roundFresh) :
    Rebuilt s.relistedCapable none s (rebuildUnits s) := by
  rw [rebuildUnits_fresh h]
  exact rebuilt_of_relisted fun _ hnone => hnone

theorem rebuildUnits_rebuilt_kept (h : ¬s.roundFresh) : Rebuilt s.keptRound s.ul.attnPos s (rebuildUnits s) := by
  rw [rebuildUnits_kept h]
  exact rebuilt_of_relisted fun huatn hempty => absurd ⟨hempty, huatn⟩ h

end

end Sys2Proof.Machine
end

section
/-! PROOFS. O48: LINE_TEST and its outcomes (R97, TABLE 12-5), and the statement. -/

namespace Sys2Proof.Machine

/-! ### LINE_TEST (R97) -/

section
variable {s : State} {t : LineTest}

theorem lineTestGoOn_next {u : Nat} {us : List Nat} (hu : t.units = u :: us) (s : State) :
    lineTestGoOn t s = placeSweep (.loop u t.pattern) { s with ul.lineTest := some t } := by
  unfold lineTestGoOn
  rw [hu]

theorem lineTestGoOn_ends (hu : t.units = []) (s : State) : lineTestGoOn t s =
    doneOrder .unitLink t.tag (lineTestResults t) (if t.failures = [] then .ok else .faulted) (some t.address)
      { s with ul.lineTest := none } := by
  unfold lineTestGoOn
  rw [hu]

theorem failureBytes_length_le (l : List (Nat × Bool)) : (failureBytes l).length ≤ 32 := by
  rw [failureBytes, List.length_map, List.length_take]
  exact Nat.min_le_left ..

theorem failureBytes_getElem? {l : List (Nat × Bool)} {k : Nat} {y : Nat × Bool} (hk : k < 32) (hy : l[k]? = some y) :
    (failureBytes l)[k]? = some (BitVec.ofNat 8 (y.1 + bit y.2 7)) := by
  rw [failureBytes, List.getElem?_map, List.getElem?_take_of_lt hk, hy]
  rfl

theorem lineTestResults_apart (t : LineTest) : Apart (lineTestResults t) := by simp [Apart, lineTestResults, leBytes_length]

theorem lineTestResults_fit (t : LineTest) : ∀ y ∈ lineTestResults t, y.1 + y.2.length ≤ 64 := by
  have hlen := failureBytes_length_le t.failures
  simp [lineTestResults, leBytes_length]
  omega

/-- The result fields of a LINE_TEST (TABLE 12-5). -/
structure LineTestShown (t : LineTest) (m : List Host.Cell) : Prop where
  tested : resultByte m t.tag.cell 0 = t.tested % 256
  failed : resultByte m t.tag.cell 1 = t.failures.length % 256
  failures : ∀ (k : Nat) (y : Nat × Bool), k < 32 → t.failures[k]? = some y → y.1 < 128 →
    resultByte m t.tag.cell (4 + k) = y.1 + if y.2 then 128 else 0

theorem lineTest_shown (hm : Memory.wf s.mem) (code : ResultCode) (subject : Option Nat) :
    LineTestShown t (doneOrder .unitLink t.tag (lineTestResults t) code subject s).mem := by
  refine ⟨doneOrder_byte hm (lineTestResults_apart t) (by simp [lineTestResults]),
    doneOrder_byte hm (lineTestResults_apart t) (by simp [lineTestResults]), fun k y hk hy hlow => ?_⟩
  have hbyte := failureBytes_getElem? hk hy
  have hlen : k < (failureBytes t.failures).length := (List.getElem?_eq_some_iff.1 hbyte).1
  have hread := doneOrder_read (o := .unitLink) (g := t.tag) (code := code) (x := subject) hm (lineTestResults_apart t)
    (y := (4, failureBytes t.failures)) (by simp [lineTestResults]) hlen
  rw [List.getD_eq_getElem?_getD, hbyte, Option.getD_some, Nat.add_assoc] at hread
  rw [resultByte, byteAt, hread, BitVec.toNat_ofNat]
  cases y.2 <;> simp [bit] <;> omega

/-- A LINE_TEST with no unit left completes its order (R97). -/
structure LineTestEnds (t : LineTest) (s e : State) : Prop where
  ends : OrderEnds t.tag 4 (if t.failures = [] then .ok else .faulted) t.address s e
  shown : LineTestShown t e.mem
  frame : e = { s with
    mem := e.mem, disp := { s.disp with service := e.disp.service }, ul := { s.ul with lineTest := none }
    mail := { s.mail with reports := e.mail.reports } }

theorem lineTestGoOn_completes (hm : Memory.wf s.mem) (ht : t.address < 128) (hu : t.units = []) :
    LineTestEnds t s (lineTestGoOn t s) := by
  have hends (code : ResultCode) := doneOrder_ends (o := .unitLink) (g := t.tag) (code := code) (x := some t.address)
    (s := { s with ul.lineTest := none }) hm (lineTestResults_fit t)
  rw [lineTestGoOn_ends hu]
  refine ⟨?_, lineTest_shown hm .., by rw [doneOrder_frame]⟩
  have h := hends (if t.failures = [] then .ok else .faulted)
  rwa [Option.getD_some, Nat.mod_eq_of_lt (by omega)] at h

theorem beginWork_wf (g : OrderTag) (hm : Memory.wf s.mem) : Memory.wf (beginWork g s).mem := writeCellState_wf hm

/-- An order that ends in the step that has begun its work has ended. -/
theorem orderEnds_of_beginWork {g : OrderTag} {st y : Nat} {code : ResultCode} {u : State} (hm : Memory.wf s.mem)
    (h : OrderEnds g st code y (beginWork g s) u) : OrderEnds g st code y s u := by
  obtain ⟨hcell, hstamp, houtside, hservice⟩ := h
  refine ⟨hcell, hstamp, fun a ha => (houtside a ha).trans ?_, hservice⟩
  exact (Memory.read_write hm ..).trans (if_neg (by omega))

section
variable {g : OrderTag} {a : Nat} {rest : List Order}

theorem lineTestStep_busy {x : LineTest} (hq : s.mail.lineTests = .lineTest g a :: rest) (hx : s.ul.lineTest = some x) :
    lineTestStep s = refuseOrder .unitLink g [(0, leBytes 0 1), (1, leBytes 0 1)] .busy (some a)
      { s with mail.lineTests := rest } := by
  unfold lineTestStep
  rw [hq]
  dsimp only
  rw [hx]

/-- The test that LINE_TEST begins: of one unit, or of every unit of the list. -/
def lineTestOf (g : OrderTag) (a : Nat) (units : List Nat) (s : State) : LineTest :=
  { tag := g, address := a, pattern := s.sup.settings.pattern, units := units, tested := 0, failures := [] }

theorem lineTestStep_begins (hq : s.mail.lineTests = .lineTest g a :: rest) (hx : s.ul.lineTest = none) {units : List Nat}
    (hunits : (if a = 127 then s.ul.units else [a]) = units) :
    lineTestStep s = lineTestGoOn (lineTestOf g a units s) (beginWork g { s with mail.lineTests := rest }) := by
  unfold lineTestStep
  rw [hq]
  dsimp only
  rw [hx]
  dsimp only
  rw [hunits]
  rfl

theorem lineTestStep_loops (hm : Memory.wf s.mem) (hq : s.mail.lineTests = .lineTest g a :: rest) (hx : s.ul.lineTest = none)
    {u : Nat} {us : List Nat} (hunits : (if a = 127 then s.ul.units else [a]) = u :: us) :
    ∃ t, exec .lineTest s = .next (finishLink s t) ∧ OrderWorks g s t ∧ t = { s with
      mem := t.mem, mail.lineTests := rest
      ul := { s.ul with
        sweepQ := s.ul.sweepQ ++ [.loop u s.sup.settings.pattern], lineTest := some (lineTestOf g a (u :: us) s) } } :=
  ⟨_, next_finishLink ((lineTestStep_begins hq hx hunits).trans (lineTestGoOn_next rfl _)),
    orderWorks_of_mem hm rfl, rfl⟩

end

/-- The failures after the LOOP of a unit has ended. -/
def LineTest.failuresWith (x : LineTest) (u : Nat) (r : LoopResult) : List (Nat × Bool) :=
  x.failures ++ if r = .right then [] else [(u, decide (r = .wrong))]

theorem loopOutcomeStep_goesOn {r : LoopResult} {rest : List LoopResult} {x : LineTest} {u : Nat} {us : List Nat}
    (hr : s.mail.loopResults = r :: rest) (hx : s.ul.lineTest = some x) (hu : x.units = u :: us) :
    loopOutcomeStep s = lineTestGoOn { x with units := us, tested := x.tested + 1, failures := x.failuresWith u r }
      { s with mail.loopResults := rest } := by
  unfold loopOutcomeStep
  rw [hr, hx]
  dsimp only
  rw [hu]
  cases r with
  | right => simp [LineTest.failuresWith]
  | wrong => rfl
  | noEcho => rfl

end

/-! ### The statement -/

/-- Settles O48: each step is read off what it places; the round of a rebuild is either begun again or kept. -/
theorem sweepAttentionAndLineTest : Obligations.SweepAttentionAndLineTest := by
  refine ⟨fun s u hp hout hdue hu => ?sweep, fun s u l hp huatn hout hcapable => ?asserted, fun s => ?deasserted,
    fun s g a rest hm ha hq => ⟨fun x hx => ?busy, fun hx hlow hhigh => ?oneUnit, fun hx ha127 hnone => ?noUnits,
      fun u us hx ha127 hunits => ?everyUnit⟩,
    fun s r rest x u us hm hr hx hu => ⟨fun hus ht => ?lastLoop, fun v vs hus => ?nextLoop⟩, fun s => ?rebuild,
    fun s => ⟨List.filter_sublist, fun u => mem_attentionCapable⟩,
    fun l pos hl => ⟨nextAddress_eq_none, fun u => nextAddress_eq_some hl⟩⟩
  case sweep => exact next_finishLink (trySweep_due hp hout hdue hu)
  case asserted =>
    exact next_finishLink ((uatnAssertedStep_begins hp huatn).trans
      (beginRound_polls (s := { s with ul.uatn := true }) hp rfl hout hcapable))
  case deasserted => exact ⟨uatnDeassertedStep s, rfl, rfl⟩
  case busy =>
    have hends := completeOrder_ends .unitLink g [(0, leBytes 0 1), (1, leBytes 0 1)] .busy (some a) stRefused
      (s := { s with mail.lineTests := rest }) hm (by decide) (by simp [leBytes_length])
    rw [Option.getD_some, Nat.mod_eq_of_lt (by omega)] at hends
    exact ⟨_, next_finishLink (lineTestStep_busy hq hx), hends, by rw [refuseOrder_frame], by rw [refuseOrder_frame]⟩
  case oneUnit => exact lineTestStep_loops hm hq hx (if_neg (by omega))
  case everyUnit =>
    subst ha127
    exact lineTestStep_loops hm hq hx ((if_pos rfl).trans hunits)
  case noUnits =>
    subst ha127
    have hbegun : Memory.wf (beginWork g { s with mail.lineTests := rest }).mem := beginWork_wf g hm
    obtain ⟨hends, ⟨htested, hfailed, -⟩, hframe⟩ :=
      lineTestGoOn_completes (t := lineTestOf g 127 [] s) hbegun (Nat.lt_succ_self 127) rfl
    have hul : ({ s.ul with lineTest := none } : UnitLink) = s.ul := by rw [← hx]
    refine ⟨_, next_finishLink (lineTestStep_begins hq hx ((if_pos rfl).trans hnone)), orderEnds_of_beginWork hm hends, htested,
      hfailed, hframe.trans ?_⟩
    dsimp only [beginWork_ul]
    rw [hul]
    rfl
  case lastLoop =>
    obtain ⟨hends, ⟨htested, hfailed, hfailures⟩, hframe⟩ :=
      lineTestGoOn_completes (t := { x with units := us, tested := x.tested + 1, failures := x.failuresWith u r })
        (s := { s with mail.loopResults := rest }) hm ht hus
    exact ⟨_, next_finishLink (loopOutcomeStep_goesOn hr hx hu), hends, htested, hfailed, hfailures, hframe⟩
  case nextLoop => exact next_finishLink ((loopOutcomeStep_goesOn hr hx hu).trans (lineTestGoOn_next hus _))
  case rebuild =>
    refine ⟨rebuildUnits_units s, fun h => (rebuildUnits_rebuilt_fresh h).set, fun h => (rebuildUnits_rebuilt_kept h).set,
      fun hstays => ?stays, fun u huatn hout hp => ⟨fun h => (rebuildUnits_rebuilt_fresh h).polls u huatn hout hp,
        fun h => (rebuildUnits_rebuilt_kept h).polls u huatn hout hp⟩⟩
    by_cases hfresh : s.roundFresh
    · obtain ⟨hq, hout, hpos⟩ := (rebuildUnits_rebuilt_fresh hfresh).stays hstays
      exact ⟨hq, hout, fun _ => hpos, fun h => absurd hfresh h⟩
    · obtain ⟨hq, hout, hpos⟩ := (rebuildUnits_rebuilt_kept hfresh).stays hstays
      exact ⟨hq, hout, fun h => absurd h hfresh, fun _ => hpos⟩

end Sys2Proof.Machine
end
